-- ==== Sys2Proof/Word.lean ====
section
/-! DEFINITION. The word types of the CN1 and the agents that name themselves in its messages. -/

namespace Sys2Proof

/-- A byte of memory (R12). -/
abbrev Byte := BitVec 8
/-- A 32-bit word: an FP32 value's bits, a 32-bit register, a lane register. -/
abbrev W32 := BitVec 32
/-- A 64-bit word: a parameter register, a 64-bit register, a gate word. -/
abbrev W64 := BitVec 64

end Sys2Proof
end

