-- ==== Sys2Proof/Msg.lean ====
section
/-! DEFINITION. What a command carries and what the chip sends: agents, packets, lane sites and
emissions. Plain data. -/

namespace Sys2Proof

/-- The agents that reach control and status space (Table 19.2); `dma` carries core and engine, `mesh`
an inbound mesh write with its source agent code. -/
inductive Agent where
  | headland
  | shingle
  | host
  | dma (core engine : Nat)
  | mesh (sagt : Nat)
  deriving DecidableEq, Repr

/-- A fabric packet: the header of Table 10.6 with its data bytes. -/
structure Packet where
  route : W64
  addr : Nat
  tlen : Nat
  plen : Nat
  xid : Nat
  src : Nat
  sagt : Nat
  dom : Nat
  gen : Nat
  kind : Nat
  last : Bool
  rmv : Bool
  rcore : Nat
  rmark : Nat
  status : Nat
  hop : Nat
  segi : Nat
  dl : Bool
  data : List Byte
  deriving DecidableEq, Repr

/-- Reads that a macro-operation makes ahead of the event that finishes it (R109, R120, R170, R171): the local addresses
of scratchpad words, and accumulator elements as tile × 4096 + row × 64 + column. -/
structure Early where
  words : List Nat := []
  elems : List Nat := []
  deriving DecidableEq, Repr

/-- Where a lane instruction executes: a lane (0 to 63) of a core's Skipper, with its predicate code
(0 always, 1 when F is set, 2 in the first beat, 3 in the last beat; Table 7.2), whether the beat is the
first and the last of its operation or row, and whether the lane is active in it (R223). -/
structure LaneSite where
  core : Nat
  lane : Nat
  pred : Nat
  first : Bool
  last : Bool
  active : Bool
  deriving DecidableEq, Repr

/-- What a link-management control flit says besides acknowledgement and credits. -/
inductive LinkNote where
  | nothing
  /-- the neighbour's stranded flag (R566) -/
  | stranded (flag : Bool)
  /-- the tick of a child that asks for an exchange (R493) -/
  | tick (t1 : Nat)
  deriving DecidableEq, Repr

/-- What the host has configured in the CXL port (R450, R453, Table 14.2): the three BARs, the base of the one HDM decoder once
it is committed, with 512 GiB, and the vectors that the MSI-X table masks. -/
structure CxlConf where
  bar0 : Nat := 0
  bar2 : Nat := 0
  bar4 : Nat := 0
  hdm : Option Nat := none
  masked : List Nat := []
  deriving DecidableEq, Repr

/-- What the link's FEC and CRC find in a message from the host (Table 14.1): nothing, an error that is corrected, or one that
no retry removes. -/
inductive LinkError where
  | clean
  | corrected
  | lost
  deriving DecidableEq, Repr

/-- A request that waits at a slow-tier controller: its class (Table 9.2), address, and the bytes of a write
or the length of a read. -/
structure SlowReq where
  cls : Nat
  addr : Nat
  write : Option (List Byte)
  len : Nat
  deriving DecidableEq, Repr

/-- Messages of the CXL port toward the host (Host attachment). -/
inductive CxlMsg where
  /-- the answer to a device-coherency snoop (R450) -/
  | rspIHitI (addr : Nat)
  /-- back-invalidation of a unit (R457): invalidate for a device write, data for a device read -/
  | biSnpInv (addr : Nat)
  | biSnpData (addr : Nat)
  /-- data of a host read; `poison` marks a unit that failed its check (R455) -/
  | memData (addr : Nat) (data : List Byte) (poison : Bool)
  /-- a completion without data -/
  | cmp (addr : Nat)
  /-- a request completed with an error (R452) -/
  | err (addr : Nat)
  /-- an AER error message: correctable or not (Table 14.1) -/
  | aer (correctable : Bool)
  deriving DecidableEq, Repr

/-- What the chip sends outward. The list of emissions is the model's own record of them. -/
inductive Emission where
  /-- a flit leaves a port (R328) -/
  | flit (port : Nat) (bytes : List Byte)
  /-- a link-management message in a control flit: 1 identity, 3 stranded flag,
  4 ticks of an exchange -/
  | control (port kind : Nat) (words : List Nat)
  /-- a message of the link key agreement (R367) -/
  | linkKey (port : Nat) (bytes : List Byte)
  /-- a Bore credit returned to the neighbour in a direction for a core (R376) -/
  | boreCredit (axis dir core : Nat)
  /-- a mirror (0) or restore (1) stream of an Ebb die over its buddy port: header words and bytes -/
  | stream (die kind : Nat) (hdr : List Nat) (data : List Byte)
  /-- the acknowledgement of a mirror stream: 1, with step and slot, or its refusal: 0 -/
  | streamAck (die ok step slot : Nat)
  /-- a message to the host over CXL -/
  | cxl (m : CxlMsg)
  /-- a write into host memory (completion records, R469) -/
  | hostWrite (addr : Nat) (data : List Byte)
  /-- the answer of a memory to one access: address, status, bytes read -/
  | memory (addr status : Nat) (data : List Byte)
  /-- an MSI-X vector (R473) -/
  | msix (vector : Nat)
  /-- a report, answer, heartbeat or alert to management: a code and its values. 1 a request refused (its
  number); 2 reference lost; 3 stretch bound exceeded; 4 tick lock lost; 5 throttle level (stack, level);
  6 HBM hot (stack); 7 a condition of Table 15.5 (bit of PWR_STAT); 8 gate watchdog (phase, members);
  9 set point refused (k); 10 link version error (port); 11 fuse parity; 12 image refused at boot (bit of
  SEC_EVT); 13 memory training failed; 14 self-test (FAILPH, NFAIL); 15 image delivery (0 accepted, or
  1 + bit of SEC_EVT); 16 heartbeat; 17 entropy health failed; 18 DTLS connection (1 accepted) -/
  | mgmt (code : Nat) (vals : List Nat)
  /-- the device's side of a DTLS handshake: key share, certificate chain and signature -/
  | dtls (bytes : List Byte)
  /-- an SPDM response: the code of the request answered and its bytes -/
  | spdm (code : Nat) (bytes : List Byte)
  /-- bits shifted out of the test port -/
  | tdo (bits : List Bool)
  deriving DecidableEq, Repr

end Sys2Proof
end

