-- ==== Sys2Proof/Syntax.lean ====
section
/-! DEFINITION. The commands of the CN1: one constructor per row of the table of operations and events.
Where a row is an event of a unit, its operands say which unit and what the outside supplies with it; an operand with
a default is what only some events carry. -/

namespace Sys2Proof

/-- The commands (spec/opcode_table.json). -/
inductive Instr where
  /-- NOP (R165). Control record with no effect beyond its wait mask and signal mark. Operands: core n
  reaches this record in core cycle cc. -/
  | nop (n cc : Nat)
  /-- END (R142). Control record that ends the replay and puts the core at a program boundary. Operands:
  core n reaches this record in core cycle cc. -/
  | endRec (n cc : Nat)
  /-- BR (R196). Unconditional branch to a record index in the active half. Operands: core n reaches
  this record in core cycle cc. -/
  | br (n cc : Nat)
  /-- BRC (R196). Branch taken when the named comparator's condition equals SENSE. Operands: core n
  reaches this record in core cycle cc. -/
  | brc (n cc : Nat)
  /-- MTHR (R165). Sets the threshold of a tide mark. Operands: core n reaches this record in core cycle
  cc. -/
  | mthr (n cc : Nat)
  /-- MADD (R197). Adds a signed delta to a tide mark count at the end of the issue cc. Operands: core n
  reaches this record in core cycle cc. -/
  | madd (n cc : Nat)
  /-- CSET (R166). Sets a scalar counter to a value. Operands: core n reaches this record in core cycle
  cc. -/
  | cset (n cc : Nat)
  /-- CADD (R166). Adds a value to a scalar counter modulo 2^32. Operands: core n reaches this record in
  core cycle cc. -/
  | cadd (n cc : Nat)
  /-- CMPS (R166). Sets the counter, relation and limit of a comparator. Operands: core n reaches this
  record in core cycle cc. -/
  | cmps (n cc : Nat)
  /-- PSET (R165). Sets a parameter register to a value. Operands: core n reaches this record in core
  cycle cc. -/
  | pset (n cc : Nat)
  /-- PADD (R165). Adds a value to a parameter register modulo 2^64. Operands: core n reaches this
  record in core cycle cc. -/
  | padd (n cc : Nat)
  /-- PSTEP (R169). Copies CORE_STEP into a parameter register. Operands: core n reaches this record in
  core cycle cc. -/
  | pstep (n cc : Nat)
  /-- PMAD (R165). Sets a parameter register to base plus counter times stride. Operands: core n reaches
  this record in core cycle cc. -/
  | pmad (n cc : Nat)
  /-- DPATCH (R165). Writes one 64-bit word of a descriptor slot. Operands: core n reaches this record
  in core cycle cc. -/
  | dpatch (n cc : Nat)
  /-- DSLD (R198). Loads a descriptor slot from a scratchpad line once the control master is granted.
  Operands: core n reaches this record in core cycle cc, its request having waited waits cc. -/
  | dsld (n cc waits : Nat)
  /-- PLD (R198). Loads a parameter register from 8 scratchpad bytes once granted. Operands: core n
  reaches this record in core cycle cc, its request having waited waits cc. -/
  | pld (n cc waits : Nat)
  /-- PST (R198). Stores a parameter register into 8 scratchpad bytes once granted. Operands: as DSLD;
  lost: port 1 lost the word to port 0 (R118). -/
  | pst (n cc waits : Nat) (lost : Bool)
  /-- RECORD_ISSUE (R152). The control unit issues a data-engine record when delay, wait mask and
  in-flight limits allow. Operands: core n issues its next data-engine record in core cycle cc. -/
  | recordIssue (n cc : Nat)
  /-- MMA (R199). Matrix product of two wing-order operands into an accumulator tile. Operands: wing eng
  (1 A, 2 B) of core n; waits: cc its requests waited (R117); early: words and elements read now, ahead of
  the event that finishes the operation (R171); with any, the command only reads. -/
  | mma (n eng waits : Nat) (early : Early := {})
  /-- MNS (R201). Newton-Schulz inverse square or fourth root of a symmetric matrix in a tile. Operands:
  wing eng (1 A, 2 B) of core n; waits and early as for MMA. -/
  | mns (n eng waits : Nat) (early : Early := {})
  /-- SKRUN (R210). Runs a Skipper kernel over L elements of flat streams. Operands: the Skipper of core
  n starts its next operation; early as for MMA. -/
  | skrun (n : Nat) (early : Early := {})
  /-- SKWALK (R210). Runs a Skipper kernel over whole tensors in walk order. Operands: the Skipper of
  core n starts its next operation; early as for MMA. -/
  | skwalk (n : Nat) (early : Early := {})
  /-- SKCMP (R212). Compresses input elements whose mask element is non-zero. Operands: the Skipper of
  core n starts its next operation. -/
  | skcmp (n : Nat)
  /-- SKEXP (R212). Expands input elements into positions whose mask element is non-zero. Operands: the
  Skipper of core n starts its next operation. -/
  | skexp (n : Nat)
  /-- ALD (R206). Loads an FP32 or BF16 64x64 source into an accumulator tile. Operands: on core n;
  waits: cc its requests waited; early as for MMA. -/
  | ald (n waits : Nat) (early : Early := {})
  /-- ADR (R207). Drains an accumulator tile by rows or columns to the scratchpad with conversion.
  Operands: on core n; waits: cc its requests waited; early as for MMA; lost: words lost at port 1 (R118). -/
  | adr (n waits : Nat) (early : Early := {}) (lost : List Nat := [])
  /-- AZERO (R208). Writes +0 with valid check bits to every row of a tile. Operands: on core n; waits:
  cc its requests waited. -/
  | azero (n waits : Nat)
  /-- SKKLD (R231). Loads and checks a kernel image into kernel memory. Operands: on core n; waits: cc
  its requests waited; early as for MMA. -/
  | skkld (n waits : Nat) (early : Early := {})
  /-- SKIPPER_BEAT (R247). One beat of 64 elements passes through read, lanes, conversion and output
  writes. Operands: the next beat of core n; cc its reads and writes waited; early as for MMA; lost:
  words lost at port 1 (R118). -/
  | skipperBeat (n rwaits wwaits : Nat) (early : Early := {}) (lost : List Nat := [])
  /-- RSUM (R253). Reduces each input row to its FP32 sum in a fixed tree order. Operands: on core n, as for ADR. -/
  | rsum (n waits : Nat) (early : Early := {}) (lost : List Nat := [])
  /-- RMAX (R254). Reduces each input row to its maximum. Operands: on core n, as for ADR. -/
  | rmax (n waits : Nat) (early : Early := {}) (lost : List Nat := [])
  /-- RAMAX (R254). Reduces each input row to its maximum and the index of that maximum. Operands: on
  core n, as for ADR. -/
  | ramax (n waits : Nat) (early : Early := {}) (lost : List Nat := [])
  /-- DLOAD (R214). DMA copy from a local address into the own scratchpad. Operands: DMA engine eng (6,
  7) of core n; early as for MMA; mesh: cc that its far accesses waited, by the core they reach (R117);
  lost: scratchpad words lost at port 1 (R118). -/
  | dload (n eng waits : Nat) (lost : List Nat) (early : Early := {}) (mesh : List (Nat × Nat) := [])
  /-- DSTORE (R214). DMA copy from the own scratchpad to a local address. Operands: DMA engine eng (6,
  7) of core n; early, mesh and lost as for DLOAD. -/
  | dstore (n eng waits : Nat) (lost : List Nat) (early : Early := {}) (mesh : List (Nat × Nat) := [])
  /-- DLOADT (R215). DMA load with 32x32 transpose into the own scratchpad. Operands: DMA engine eng (6,
  7) of core n; early, mesh and lost as for DLOAD. -/
  | dloadt (n eng waits : Nat) (lost : List Nat) (early : Early := {}) (mesh : List (Nat × Nat) := [])
  /-- DCOPY (R214). DMA copy between two own-scratchpad descriptors. Operands: DMA engine eng (6, 7) of
  core n; early and lost as for DLOAD. -/
  | dcopy (n eng waits : Nat) (lost : List Nat) (early : Early := {})
  /-- PUT (R216). Sends a scratchpad source to a remote local address over the fabric. Operands: the
  fabric put/get unit of core n starts its next operation; waits: cc its reads waited; early as for MMA. -/
  | put (n waits : Nat) (early : Early := {})
  /-- GET (R216). Fetches a remote range into a scratchpad destination. Operands: the fabric put/get
  unit of core n starts its next operation. -/
  | get (n : Nat)
  /-- BLD (R218). Board load from another chip of the board into the scratchpad. Operands: the fabric
  put/get unit of core n starts its next operation. -/
  | bld (n : Nat)
  /-- BST (R218). Board store from the scratchpad to another chip of the board. Operands: the fabric
  put/get unit of core n starts its next operation; waits: cc its reads waited; early as for MMA. -/
  | bst (n waits : Nat) (early : Early := {})
  /-- RSIG (R217). Signals a mark on a remote core without data. Operands: the fabric put/get unit of
  core n starts its next operation. -/
  | rsig (n : Nat)
  /-- GCONT (R219). Hands the core's 64-bit gate contribution to the chip's gate collector. Operands:
  the fabric put/get unit of core n starts its next operation. -/
  | gcont (n : Nat)
  /-- ALLREDUCE (R385). Collective reducing buffer 0 over the ring members into every member's buffer 1.
  Operands: core n hands its next collective to the Bore; mesh and lost as for DLOAD. -/
  | allreduce (n : Nat) (lost : List Nat) (mesh : List (Nat × Nat) := [])
  /-- REDSCAT (R385). Collective reduce-scatter giving each member its owned shard, optionally landed in
  the slow tier. Operands: core n hands its next collective to the Bore; mesh and lost as for DLOAD. -/
  | redscat (n : Nat) (lost : List Nat) (mesh : List (Nat × Nat) := [])
  /-- ALLGATHER (R388). Collective gathering every member's buffer 0 into every buffer 1. Operands: core
  n hands its next collective to the Bore; mesh and lost as for DLOAD. -/
  | allgather (n : Nat) (lost : List Nat) (mesh : List (Nat × Nat) := [])
  /-- BCAST (R388). Collective copying the root's buffer 0 into every member's buffer 1. Operands: core
  n hands its next collective to the Bore; mesh and lost as for DLOAD. -/
  | bcast (n : Nat) (lost : List Nat) (mesh : List (Nat × Nat) := [])
  /-- RINGPASS (R388). Collective sending buffer 0 to one ring neighbour and receiving from the other.
  Operands: core n hands its next collective to the Bore; mesh and lost as for
  DLOAD. -/
  | ringpass (n : Nat) (lost : List Nat) (mesh : List (Nat × Nat) := [])
  /-- PERMUTE (R388). Collective sending buffer 0 to member TGT and receiving from member SRC. Operands:
  core n hands its next collective to the Bore; mesh and lost as for DLOAD. -/
  | permute (n : Nat) (lost : List Nat) (mesh : List (Nat × Nat) := [])
  /-- MACRO_OP_COMPLETE (R140). A data-engine macro-operation completes and signals its mark. Operands:
  the oldest operation of engine eng completes in cc. -/
  | macroOpComplete (n eng cc : Nat)
  /-- CHECK_CYCLE (R173). In hazard-watch mode one cc in every 16 holds every core-clock unit. Operands:
  a check cycle of core n. -/
  | checkCycle (n : Nat)
  /-- WAIT_TIMEOUT (R178). A record held only by its wait mask beyond CORE_WAITWD sets WAITTO and writes
  a fault record. Operands: the record has been held for its wait mask alone for held cc. -/
  | waitTimeout (n held : Nat)
  /-- LANE_NOP (R228). Lane instruction with no effect. -/
  | laneNop (x : LaneSite)
  /-- MOV (R228). Lane register copy. Operands: registers d, a. -/
  | mov (x : LaneSite) (d a : Nat)
  /-- LDI (R228). Loads the next instruction word as a constant. Operands: register d takes the next
  word. -/
  | ldi (x : LaneSite) (d : Nat) (imm : W32)
  /-- FSEL (R228). Selects A or B according to the lane flag. Operands: registers d, a, b. -/
  | fsel (x : LaneSite) (d a b : Nat)
  /-- FADD (R236). FP32 addition in a lane. Operands: registers d, a, b. -/
  | fadd (x : LaneSite) (d a b : Nat)
  /-- FSUB (R236). FP32 subtraction in a lane. Operands: registers d, a, b. -/
  | fsub (x : LaneSite) (d a b : Nat)
  /-- FMUL (R236). FP32 multiplication in a lane. Operands: registers d, a, b. -/
  | fmul (x : LaneSite) (d a b : Nat)
  /-- FMA (R236). FP32 fused multiply-add rounded once. Operands: registers d, a, b, c. -/
  | fma (x : LaneSite) (d a b c : Nat)
  /-- FMIN (R236). FP32 minimum with NaN propagation. Operands: registers d, a, b. -/
  | fmin (x : LaneSite) (d a b : Nat)
  /-- FMAX (R236). FP32 maximum with NaN propagation. Operands: registers d, a, b. -/
  | fmax (x : LaneSite) (d a b : Nat)
  /-- FABS (R228). Clears the sign bit. Operands: registers d, a. -/
  | fabs (x : LaneSite) (d a : Nat)
  /-- FNEG (R228). Inverts the sign bit. Operands: registers d, a. -/
  | fneg (x : LaneSite) (d a : Nat)
  /-- FCMP (R239). Sets the lane flag from an FP32 comparison. Operands: condition md of registers a, b. -/
  | fcmp (x : LaneSite) (md a b : Nat)
  /-- CVTIF (R236). Converts a signed integer to FP32. Operands: registers d, a. -/
  | cvtif (x : LaneSite) (d a : Nat)
  /-- CVTFI (R238). Converts FP32 to a signed integer toward zero. Operands: registers d, a. -/
  | cvtfi (x : LaneSite) (d a : Nat)
  /-- RBF (R236). Rounds an FP32 value to a BF16 value held as FP32. Operands: registers d, a. -/
  | rbf (x : LaneSite) (d a : Nat)
  /-- RCP (R237). Correctly rounded reciprocal. Operands: registers d, a. -/
  | rcp (x : LaneSite) (d a : Nat)
  /-- DIV (R237). Correctly rounded division. Operands: registers d, a, b. -/
  | div (x : LaneSite) (d a b : Nat)
  /-- SQRT (R237). Correctly rounded square root. Operands: registers d, a. -/
  | sqrt (x : LaneSite) (d a : Nat)
  /-- RSQRT (R237). Correctly rounded reciprocal square root. Operands: registers d, a. -/
  | rsqrt (x : LaneSite) (d a : Nat)
  /-- EXP2 (R237). Correctly rounded 2^A. Operands: registers d, a. -/
  | exp2 (x : LaneSite) (d a : Nat)
  /-- EXP (R237). Correctly rounded e^A. Operands: registers d, a. -/
  | exp (x : LaneSite) (d a : Nat)
  /-- LOG2 (R237). Correctly rounded base-2 logarithm. Operands: registers d, a. -/
  | log2 (x : LaneSite) (d a : Nat)
  /-- LN (R237). Correctly rounded natural logarithm. Operands: registers d, a. -/
  | ln (x : LaneSite) (d a : Nat)
  /-- TANH (R237). Correctly rounded hyperbolic tangent. Operands: registers d, a. -/
  | tanh (x : LaneSite) (d a : Nat)
  /-- SIGM (R237). Correctly rounded logistic sigmoid. Operands: registers d, a. -/
  | sigm (x : LaneSite) (d a : Nat)
  /-- ERF (R237). Correctly rounded error function. Operands: registers d, a. -/
  | erf (x : LaneSite) (d a : Nat)
  /-- IADD (R228). Integer addition modulo 2^32. Operands: registers d, a, b. -/
  | iadd (x : LaneSite) (d a b : Nat)
  /-- ISUB (R228). Integer subtraction modulo 2^32. Operands: registers d, a, b. -/
  | isub (x : LaneSite) (d a b : Nat)
  /-- IMUL (R228). Low 32 bits of an integer product. Operands: registers d, a, b. -/
  | imul (x : LaneSite) (d a b : Nat)
  /-- AND (R228). Bitwise AND. Operands: registers d, a, b. -/
  | andL (x : LaneSite) (d a b : Nat)
  /-- OR (R228). Bitwise OR. Operands: registers d, a, b. -/
  | orL (x : LaneSite) (d a b : Nat)
  /-- XOR (R228). Bitwise exclusive OR. Operands: registers d, a, b. -/
  | xorL (x : LaneSite) (d a b : Nat)
  /-- SHL (R228). Left shift. Operands: registers d, a, b. -/
  | shl (x : LaneSite) (d a b : Nat)
  /-- SHR (R228). Logical right shift. Operands: registers d, a, b. -/
  | shr (x : LaneSite) (d a b : Nat)
  /-- SAR (R228). Arithmetic right shift. Operands: registers d, a, b. -/
  | sar (x : LaneSite) (d a b : Nat)
  /-- IMIN (R228). Signed integer minimum. Operands: registers d, a, b. -/
  | imin (x : LaneSite) (d a b : Nat)
  /-- IMAX (R228). Signed integer maximum. Operands: registers d, a, b. -/
  | imax (x : LaneSite) (d a b : Nat)
  /-- ICMP (R239). Sets the lane flag from an integer comparison. Operands: condition md of registers a,
  b. -/
  | icmp (x : LaneSite) (md a b : Nat)
  /-- RNG (R230). Produces rng32 of a seed and an index. Operands: registers d, a, b, c. -/
  | rng (x : LaneSite) (d a b c : Nat)
  /-- DISPATCH_RECORD (R467). The ring engine takes a dispatch record from a ring after its phase
  matches. Operands: the ring engine reads the record at the head of the ring. -/
  | dispatchRecord (ring : Nat)
  /-- PATCH_APPLY (R143). A core applies one parameter-register patch per cc at a program boundary.
  Operands: core n applies its next patch. -/
  | patchApply (n : Nat)
  /-- REPLAY_START (R143). A replay starts after its patches and advances the replay index. Operands:
  core n starts its replay in core cycle cc. -/
  | replayStart (n cc : Nat)
  /-- PHASE_RETRY (R464). A pending slot whose phase does not match is read again every 1 µs until it
  matches or times out. Operands: the pending slot is read again after waiting for waited µs in all. -/
  | phaseRetry (ring waited : Nat)
  /-- COMPLETION_RECORD (R469). The ring engine writes a finished replay's completion record in start
  order. Operands: the oldest finished replay of core n. -/
  | completionRecord (n : Nat)
  /-- MSI_X_INTERRUPT (R473). The queue's MSI-X vector is sent after the completion write is
  acknowledged. Operands: queue q; acked: how many more of its writes into host memory are globally observed. -/
  | msix (q : Nat) (acked : Nat := 0)
  /-- DOORBELL (R463). A ring doorbell sets the ring's new TAIL. Operands: a write at BAR2 offset off
  (host) or of CXL_DB (off 0). -/
  | doorbell (agent : Agent) (off size : Nat) (v : W64)
  /-- CQ_HEAD_DOORBELL (R472). A completion-queue doorbell advances the queue's HEAD. Operands: a write
  at BAR2 offset off. -/
  | cqHeadDoorbell (off size : Nat) (v : W64)
  /-- RING_ENABLE (R460). CXL_RINGCTL with EN=1 reads the context entry and makes the ring ACTIVE.
  Operands: agent writes ring or queue number num. -/
  | ringEnable (agent : Agent) (num : Nat)
  /-- RING_DISABLE (R461). CXL_RINGCTL with EN=0 makes the ring OFF. Operands: agent writes ring or
  queue number num. -/
  | ringDisable (agent : Agent) (num : Nat)
  /-- CQ_ENABLE (R460). CXL_CQCTL with EN=1 reads the context entry and makes the queue ACTIVE.
  Operands: agent writes ring or queue number num. -/
  | cqEnable (agent : Agent) (num : Nat)
  /-- CQ_DISABLE (R461). CXL_CQCTL with EN=0 makes the queue OFF. Operands: agent writes ring or queue
  number num. -/
  | cqDisable (agent : Agent) (num : Nat)
  /-- HOST_MEM_READ (R453). Host CXL.mem read of HBM. Operands: host physical address; keep: how the
  host will hold the unit (0 not, 1 shared, 2 possibly modified); e: what the link finds (Table 14.1). -/
  | hostMemRead (hpa keep : Nat) (e : LinkError := .clean)
  /-- HOST_MEM_WRITE (R454). Host CXL.mem write of HBM. Operands: 64 B; keep as for HOST_MEM_READ. -/
  | hostMemWrite (hpa : Nat) (data : List Byte) (keep : Nat) (e : LinkError := .clean)
  /-- MEMWRPTL (R456). Host partial-line write performed as a partial-unit write. Operands: bytes
  selected by the mask; keep as for HOST_MEM_READ. -/
  | memWrPtl (hpa : Nat) (mask : W64) (data : List Byte) (keep : Nat) (e : LinkError := .clean)
  /-- H2D_SNOOP (R450). A host snoop is answered with RspIHitI. -/
  | h2dSnoop (addr : Nat) (e : LinkError := .clean)
  /-- BIRSP (R457). The host's back-invalidation response releases the pending device write or read.
  Operands: the host gives the unit back, with data if its copy was modified. -/
  | birsp (addr : Nat) (data : Option (List Byte))
  /-- CXL_LINK_DOWN (R474). The CXL link goes down and host-memory completions are discarded. -/
  | cxlLinkDown
  /-- CXL_PORT_RESET (R546). PERST#, hot reset or link-disable resets only the CXL port. -/
  | cxlPortReset
  /-- IDE_KM (R514). The host installs IDE keys in an SPDM session. Operands: keys installed in SPDM
  session sess for CXL.io (stream 0) or CXL.cachemem (1). -/
  | ideKm (sess stream : Nat)
  /-- IM_WRITE (R147). A write to instruction memory, refused when addressed to the active half.
  Operands: 64-bit word of half of core n. -/
  | imWrite (agent : Agent) (n half word : Nat) (v : W64)
  /-- SWITCH (R148). CORE_IMCTL.SWITCH requests an exchange of instruction-memory halves. -/
  | switchHalf (agent : Agent) (n : Nat)
  /-- HALF_EXCHANGE (R148). At a program boundary with writes drained the active and inactive halves
  exchange. -/
  | halfExchange (n : Nat)
  /-- RESUME (R176). CORE_CTL.RESUME abandons the halted replay and returns the core to IDLE. -/
  | resume (agent : Agent) (n : Nat)
  /-- STOP_SET (R177). Setting CORE_CTL.STOP stops issue and dispatch. -/
  | stopSet (agent : Agent) (n : Nat)
  /-- STOP_CLEAR (R177). Clearing CORE_CTL.STOP abandons the interrupted replay and returns to IDLE. -/
  | stopClear (agent : Agent) (n : Nat)
  /-- CORE_MSIG (R159). A write to CORE_MSIG increments the named mark. -/
  | coreMsig (agent : Agent) (n v : Nat)
  /-- MARK_WRITE (R162). A control-space write of a mark's COUNT with that cc's increments applied.
  Operands: value written to mark k, with the increments and consumption of that cc. -/
  | markWrite (agent : Agent) (n k v inc dec : Nat)
  /-- DMA_HALT (R134). DMA_CTL.HALT makes an engine start no further macro-operation until cleared. -/
  | dmaHalt (agent : Agent) (n eng : Nat) (on : Bool)
  /-- SPD_BANKPWR (R125). A bank power request starts a transition and refuses requests until the bank
  is on. -/
  | spdBankpwr (agent : Agent) (n : Nat) (v : W64)
  /-- BANK_TRANSITION (R125). A bank power-state transition completes after its transition time. -/
  | bankTransition (n bank : Nat)
  /-- CODEWORD (R327). A received RS codeword is decoded and its ten flits passed on or failed.
  Operands: the symbols of port p's eight lanes, and the codeword that the decoder finds for them. -/
  | codeword (p : Nat) (lanes : List (List Nat)) (found : List Nat := [])
  /-- DATA_FLIT (R330). A data flit is accepted in sequence or discarded. Operands: 64 B on port p;
  first: it is the first flit replayed in answer to a request. -/
  | dataFlit (p : Nat) (bytes : List Byte) (first : Bool)
  /-- CONTROL_FLIT (R332). A link-management control flit delivers acknowledgements, credits and
  messages. Operands: 64 B on port p and what else the flit says. -/
  | controlFlit (p : Nat) (bytes : List Byte) (note : LinkNote)
  /-- REPLAY_REQUEST (R331). A replay request makes the transmitter resend held flits. Operands: 64 B on
  port p; recent: requests in the last 1 ms, this one included. -/
  | replayRequest (p : Nat) (bytes : List Byte) (recent : Nat)
  /-- TAG_FLIT (R369). A tag flit verifies or fails an encrypted frame. Operands: its 6 B of link header and the
  58 B after them, the tag first; first as for DATA_FLIT. -/
  | tagFlit (p : Nat) (head rest : List Byte) (first : Bool)
  /-- FRAME_CLOSE (R368). A frame closes after 16 flit times with nothing to send on its VC. -/
  | frameClose (p vc : Nat)
  /-- ROUTER_HOP (R341). A router forwards a packet along its route word, with domain and port checks.
  Operands: the router takes the packet that is next on a VC of port p. -/
  | routerHop (p vc : Nat)
  /-- PUT_DATA (R350). A PUT data packet is written and counted toward its transfer. Operands: packet k
  of those that wait for this chip; cc its writes waited at its own core and, by core, at others; words
  lost at port 1. -/
  | putData (k waits : Nat) (lost : List Nat) (mesh : List (Nat × Nat) := [])
  /-- GET_REQUEST (R354). A GET request is answered with GET data packets. Operands: packet k of those
  that wait; cc its reads waited. -/
  | getRequest (k waits : Nat)
  /-- GET_DATA (R354). A GET data packet is written and counted by the requester. Operands: as PUT_DATA. -/
  | getData (k waits : Nat) (lost : List Nat)
  /-- BOARD_STORE_DATA (R442). Board store data is performed at the destination. Operands: as PUT_DATA. -/
  | boardStoreData (k waits : Nat) (lost : List Nat)
  /-- COMPLETION (R350). A completion packet is counted by the source agent. Operands: packet k of those
  that wait. -/
  | completion (k : Nat)
  /-- MARK_SIGNAL (R217). An RSIG packet signals the named mark of a core. Operands: packet k of those
  that wait. -/
  | markSignal (k : Nat)
  /-- BOARD_LOAD_REQUEST (R441). A board load request is answered with GET data. Operands: as
  GET_REQUEST. -/
  | boardLoadRequest (k waits : Nat)
  /-- BUSY_RESEND (R352). A packet answered BUSY is resent after BUSYWAIT. -/
  | busyResend (sagt xid : Nat)
  /-- TRANSFER_TIMEOUT (R353). An idle transfer-table entry is freed after XTO. Operands: idle µs. -/
  | transferTimeout (src sagt xid idle : Nat)
  /-- SOURCE_TIMEOUT (R553). A PUT, GET, RSIG, BLD or BST with no response for XTO completes with
  REMOTE. Operands: idle µs. -/
  | sourceTimeout (n xid idle : Nat)
  /-- ADVANCE (R358). RTE_CTL.ADVANCE increments the route generation unless old packets are
  outstanding. -/
  | advance (agent : Agent)
  /-- FENCE_REQ (R359). RTE_FENCE.REQ clears DONE and starts a fence. -/
  | fenceReq (agent : Agent)
  /-- FENCE_DONE (R359). DONE is set when no packet of an old generation remains. -/
  | fenceDone
  /-- LINK_ENABLE (R364). LNK_CFG.EN starts PHY training of a port. -/
  | linkEnable (agent : Agent) (p : Nat) (on : Bool)
  /-- IDENT (R364). After training each end exchanges identity and versions and checks them. Operands:
  what the neighbour sends. -/
  | ident (p coord port vmin vmax : Nat) (str : Bool)
  /-- KEYX (R367). Hybrid key agreement and signature check bring the link toward UP. Operands: what
  the neighbour sends: its ephemeral key, its encapsulation key or ciphertext, its signature and its static identity keys. -/
  | keyx (p : Nat) (pub kem : List Byte) (sig idKey : List Byte := [])
  /-- LNK_EXPECT (R366). A write of LNK_EXPECT repeats the identity comparison of a quarantined link. -/
  | lnkExpect (agent : Agent) (p : Nat) (v : W64)
  /-- LINK_FAIL (R370). A link enters FAIL or DOWN and discards held flits and waiting packets. -/
  | linkFail (p : Nat) (down : Bool)
  /-- LINK_RETRAIN (R370). A failed link retrains after 10 ms while enabled. -/
  | linkRetrain (p : Nat)
  /-- BORE_MESSAGE (R384). A Bore data message is placed, reduced or relayed by the receiving Bore.
  Operands: packet k of those that wait; mesh and lost as for DLOAD. -/
  | boreMessage (axis k : Nat) (lost : List Nat) (mesh : List (Nat × Nat) := [])
  /-- BORE_CREDIT (R377). A returned Bore credit lets a held packet be sent. Operands: the core the credit is for;
  256 is the gate. -/
  | boreCredit (axis dir core : Nat)
  /-- BORE_WATCHDOG (R394). An open collective idle beyond BORE_WDOG sets WDOG and reports. Operands:
  idle µs. -/
  | boreWatchdog (axis core idle : Nat)
  /-- BORE_AXCFG (R409). A write to BORE_AXCFG, refused while collectives or gate propagation are open. -/
  | boreAxcfg (agent : Agent) (axis v : Nat)
  /-- GATE_MESSAGE (R403). A gate message is recorded, held or discarded and forwarded while hops
  remain. Operands: packet k of those that wait. -/
  | gateMessage (k : Nat)
  /-- CHIP_CONTRIBUTION (R400). The chip sends its combined contribution once all cores and both Ebb
  dies have delivered. -/
  | chipContribution
  /-- JOB_WIDE_GATE_WORD (R406). The W phase completes and the chip holds the job-wide gate word. -/
  | jobWideGateWord
  /-- GATE_WATCHDOG (R407). A job-wide word overdue beyond GATE_WDOG sets WDOG and reports. Operands: µs since
  the first contribution of the step. -/
  | gateWatchdog (us : Nat)
  /-- GATE_DISABLE (R399). Clearing GATE_CFG.EN discards accepted contributions and clears latches. -/
  | gateDisable (agent : Agent)
  /-- STAGING_WRITE (R283). A write landing in the staging area is counted and checked. -/
  | stagingWrite (die addr : Nat) (data : List Byte)
  /-- EBB_GATE_WORD (R285). An Ebb die runs its checks and delivers its gate word when staging
  completes. -/
  | ebbGateWord (die : Nat)
  /-- STRANDLINE_WRITE (R554). Ebb die 0 writes the step's strandline entry after the gate word. -/
  | strandlineWrite
  /-- UPDATE_PASS (R304). The Ebb die runs the rule programs over its segments once its waits are met. -/
  | updatePass (die : Nat)
  /-- PASS_COMPLETE (R306). After the last weight write is acknowledged the completion marks are
  signalled. -/
  | passComplete (die : Nat)
  /-- MIRROR_STREAM (R309). The Ebb die streams its committed state to the buddy. -/
  | mirrorStream (die : Nat)
  /-- MIRROR_RECEIVE (R310). The buddy writes an accepted stream and trailer into a slot and
  acknowledges. Operands: the stream as it arrives on the buddy port. -/
  | mirrorReceive (die src step len slot : Nat) (data : List Byte)
  /-- MIRROR_ACK (R310). The sender records or discards a mirror acknowledgement. Operands: what the
  buddy answers. -/
  | mirrorAck (die step slot : Nat) (refused : Bool)
  /-- MIRROR_TIMEOUT (R311). An acknowledgement overdue beyond EBB_MIRWD sets MIRTO. -/
  | mirrorTimeout (die us : Nat)
  /-- MIRROR_DISABLE (R312). Clearing EBB_MIRCFG.EN ends the HOLD wait and abandons a stream. -/
  | mirrorDisable (agent : Agent) (die : Nat)
  /-- CLRFLT (R308). EBB_CTL.CLRFLT returns a faulted Ebb die to IDLE. -/
  | clrflt (agent : Agent) (die : Nat)
  /-- RULECHK (R297). EBB_RULECHK checks a rule program and sets or clears its valid bit. -/
  | rulechk (agent : Agent) (die v : Nat)
  /-- TIDE_LSCFG (R279). A write to TIDE_LSCFG, refused when inconsistent. -/
  | tideLscfg (agent : Agent) (die v : Nat)
  /-- TIDE_SCHEDULE_WRITE (R301). A write to the schedule registers, refused for invalid values. -/
  | tideScheduleWrite (agent : Agent) (die off size : Nat) (v : W64)
  /-- SNAPSHOT_REQUEST (R313). EBB_SNAPCFG.REQ latches a snapshot request. -/
  | snapshotRequest (agent : Agent) (die : Nat)
  /-- SNAPSHOT_COPY (R313). After a committed pass the state streams are copied into the other half. -/
  | snapshotCopy (die : Nat)
  /-- SNAPSHOT_SWAP (R318). The new half becomes current once no export is busy. -/
  | snapshotSwap (die : Nat)
  /-- EXPORT_START (R315). EBB_EXPCTL.START starts an export of the current half through a shore port. -/
  | exportStart (agent : Agent) (die v : Nat)
  /-- EXPORT_ABORT (R318). EBB_EXPCTL.ABORT ends the export in progress. -/
  | exportAbort (agent : Agent) (die : Nat)
  /-- EXPORT_ACKNOWLEDGEMENT (R317). The gateway's acknowledgement ends the export. Operands: packet k
  of those that wait. -/
  | exportAck (k : Nat)
  /-- EXPORT_TIMEOUT (R317). No acknowledgement within XTO after the last packet fails the export. -/
  | exportTimeout (die us : Nat)
  /-- BABORT (R558). RCV_CTL.BABORT ends all open collectives and frees the receive stores. -/
  | babort (agent : Agent)
  /-- GABORT (R558). RCV_CTL.GABORT resets the gate collector. -/
  | gabort (agent : Agent)
  /-- EABORT (R558). RCV_CTL.EABORT returns idle or staged Ebb dies to IDLE. -/
  | eabort (agent : Agent)
  /-- RESTORE_SEND (R561). EBB_RESTORE.SEND streams a mirror slot image to the buddy. -/
  | restoreSend (agent : Agent) (die slot : Nat)
  /-- RESTORE_RECEIVE (R561). An armed Ebb die writes a restore stream into its state area. Operands:
  the stream as it arrives on the buddy port. -/
  | restoreReceive (die src step len crc : Nat) (data : List Byte)
  /-- RESTORE_BUILD (R562). EBB_RESTORE.BUILD rewrites weight outputs from state stream 0. -/
  | restoreBuild (agent : Agent) (die : Nat)
  /-- FLT_CLR (R571). FLT_CTL.CLR clears the fault log's fixed section. -/
  | fltClr (agent : Agent)
  /-- HBM_ACCESS (R426). A stack performs an access to one 64 B unit. -/
  | hbmAccess (agent : Agent) (addr : Nat) (write : Bool) (mask : W64) (data : List Byte)
  /-- SLOW_TIER_ACCESS (R281). The slow-tier controller grants a request by priority class. Operands:
  the requests that wait, in order of arrival. -/
  | slowTierAccess (die : Nat) (reqs : List SlowReq)
  /-- HBM_TEMP_READING (R432). Every 32 µs a stack's temperature is read and its throttle level set. -/
  | hbmTempReading (stack temp : Nat)
  /-- HBM_REFRESH (R431). The base die issues per-bank refresh. -/
  | hbmRefresh (stack : Nat)
  /-- SLOW_TIER_REFRESH (R439). The Ebb die refreshes its packages. -/
  | slowTierRefresh (die : Nat)
  /-- SCRUB_COMPLETE (R448). A scrub completes and held accesses are released; when all are done the
  chip reaches READY. -/
  | scrubComplete (which : Nat)
  /-- SETPOINT_CHANGE (R485). A requested core clock takes effect at a frame boundary once the voltage
  permits. Operands: a frame boundary; settled: the voltage has reached what a higher clock needs. -/
  | setpointChange (settled : Bool)
  /-- REFCLK_LOSS (R482). The root PLL enters holdover when the reference leaves tolerance. -/
  | refclkLoss
  /-- REFCLK_RETURN (R482). The PLL relocks without phase step when the reference returns. -/
  | refclkReturn
  /-- CLOCK_STRETCH (R489). A droop detection delays the next core-clock edge by one root phase.
  Operands: mV below nominal that a detector sees. -/
  | clockStretch (mv : Nat)
  /-- STRETCH_WINDOW (R491). A 1 ms window with too many stretched cycles sets STRX. Operands: core
  cycles of the window, and those stretched. -/
  | stretchWindow (stretched cycles : Nat)
  /-- TICK_EXCHANGE (R493). Every 65,536 ticks a child exchanges ticks with its parent and computes the
  offset. Operands: the child sends its tick on port p, or receives there the parent's reply with t2 and t3. -/
  | tickExchange (reply : Bool) (p t2 t3 : Nat)
  /-- TICK_SLEW (R494). A locked child corrects its tick by one at most every 1,024 ticks. -/
  | tickSlew
  /-- POWER_SAMPLE (R499). Headland samples input power every 10 µs and acts at the limits. -/
  | powerSample (watts : Nat)
  /-- JUNCTION_SAMPLE (R499). Headland reads the junction sensors every 10 µs and acts at the limits. -/
  | junctionSample (temp : Nat)
  /-- CORE_WAVE (R497). A wave of 32 cores leaves reset 2 µs after the previous wave. -/
  | coreWave
  /-- POWER_ON_RESET (R543). Standby rails are applied. -/
  | powerOnReset
  /-- STANDBY_RESET_RELEASE (R529). The standby domain leaves reset 10 ms after the standby rails are
  good and reads the fuses. Operands: the strapped index; whether a fuse word fails its parity. -/
  | standbyResetRelease (bidx : Nat) (parityFail : Bool)
  /-- PLL_LOCK (R530). The root PLL locks and CLK_TICK starts. -/
  | pllLock
  /-- IMAGE_VERIFIED (R531). The boot ROM finishes verifying the image and loads the firmware. -/
  | imageVerified
  /-- MAIN_PG (R532). Main power good is asserted at the board. Operands: ms for which MAIN_PG was low. -/
  | mainPg (lowMs : Nat)
  /-- MAIN_DOMAIN_START (R532). The chip's main-domain slot opens and its sequence starts. Operands: ms
  since the main domains may start. -/
  | mainDomainStart (ms : Nat)
  /-- DOMAIN_POWER_UP (R533). The next main domain powers 200 µs after the previous one. -/
  | domainPowerUp
  /-- MEMORY_TRAINING_COMPLETE (R534). Memory training completes and keys and scrubs start. Operands:
  whether a stack or package failed. -/
  | memoryTrainingComplete (failed : Bool)
  /-- MAIN_POWER_RESET (R543). MAIN_PG falls or the 12 V input leaves its limits. Operands: whether
  MAIN_PG fell, rather than the input leaving its limits. -/
  | mainPowerReset (pgFell : Bool)
  /-- FIRMWARE_RESET (R544). Management requests a restart from the boot ROM. -/
  | firmwareReset
  /-- TENANT_SWITCH (R523). Management request that ends a tenant's use of the chip. -/
  | tenantSwitch
  /-- MEMORY_CLOSE (R523). Once quiet or after 10 ms the memories close, keys change, scrubs start and
  tenant SRAMs power off. Operands: 10 ms have passed. -/
  | memoryClose (late : Bool)
  /-- SWITCH_POWER_RESTORE (R523). After at least 1 ms power is restored to the core domain. -/
  | switchPowerRestore
  /-- SELF_TEST (R539). Headland accepts a self-test request and starts the phases. -/
  | selfTest
  /-- SELF_TEST_PHASE (R540). A self-test phase ends and its failures are recorded. Operands: cores that
  failed the phase; whether a chip-level unit did. -/
  | selfTestPhase (cores : List Nat) (unit : Bool)
  /-- IMAGE_DELIVERY (R510). Management delivers a firmware image to flash. Operands: the image, and
  what the flash reads back. -/
  | imageDelivery (image stored : List Byte)
  /-- SVN_COMMIT (R511). Management commits the fused security version. -/
  | svnCommit
  /-- REVOKE_SLOT (R512). Management revokes a signing key slot. Operands: the slot, and the signer's
  slot, keys and signatures. -/
  | revokeSlot (slot signer : Nat) (rsaPub slhPub rsa slh : List Byte)
  /-- SET_COORDINATES (R411). Headland writes RTE_COORD while all ports are down. Operands: the
  coordinate. -/
  | setCoordinates (v : Nat)
  /-- INSTALL_FINGERPRINTS (R516). Management installs link identity fingerprints. Operands: entry and
  fingerprint. -/
  | installFingerprints (k : Nat) (fp : List Byte)
  /-- SET_RTE_DOMAIN (R538). Headland writes a non-zero domain tag and the chip enters JOB. Operands:
  the tag. -/
  | setRteDomain (v : Nat)
  /-- SET_RTE_TRANSIT (R413). Headland writes the transit domain tags. Operands: four tags. -/
  | setRteTransit (v : W64)
  /-- SETPOINT_REQUEST (R484). Management requests a set point and effective tick. Operands: set point
  and tick. -/
  | setpointRequest (k : Nat) (due : W64)
  /-- SET_PWR_CAP (R499). Management sets the input power limit. Operands: W. -/
  | setPwrCap (v : Nat)
  /-- SET_HBM_THR (R436). Headland writes the HBM throttle threshold. Operands: the fields of HBM_THR of
  a stack. -/
  | setHbmThr (stack thr hyst band : Nat)
  /-- SET_IDE_POLICY (R452). Management sets whether IDE is required. Operands: REQ. -/
  | setIdePolicy (req : Bool)
  /-- SEVER (R566). Management severs a chip, which becomes stranded. -/
  | sever
  /-- STRANDED_ANNOUNCE (R566). The stranded flag is announced to every neighbour every 100 µs. -/
  | strandedAnnounce
  /-- RE_ADMIT (R568). Management re-admits a stranded chip through the self-test. -/
  | reAdmit
  /-- DEBUG_UNLOCK (R526). A signed token opens internal debug after a tenant switch. Operands: the
  token and its signer's keys. -/
  | debugUnlock (slot : Nat) (rsaPub slhPub nonce rsa slh : List Byte)
  /-- OWNER_INSTALL (R521). A chip with no owner record accepts one owner installation. Operands: hash
  of the key to be anchored. -/
  | ownerInstall (hash : List Byte)
  /-- OWNER_CHANGE (R521). A request chaining to the current anchor changes the owner. Operands: as
  OWNER_INSTALL; whether the signer chains to the anchor. -/
  | ownerChange (hash : List Byte) (chains : Bool)
  /-- STOP_SET_REQUEST (R557). Shingle asks Headland to set STOP on named cores. Operands: the cores
  named. -/
  | stopSetRequest (cores : List Nat)
  /-- STOP_CLEAR_REQUEST (R557). Shingle asks Headland to clear STOP on named cores. Operands: the cores
  named. -/
  | stopClearRequest (cores : List Nat)
  /-- LIVENESS_REQUEST (R564). Shingle reports liveness to Headland. -/
  | livenessRequest
  /-- SHINGLE_TIMEOUT (R564). No liveness request within a second sets SHTO. -/
  | shingleTimeout
  /-- HEARTBEAT (R564). Headland sends a heartbeat to management every PERIOD ms. -/
  | heartbeat
  /-- DTLS_CONNECTION (R520). A management client opens a DTLS session, authenticated or refused.
  Operands: whether the client offers the one suite; whether its certificate chains to the
  anchor; the hash of that certificate's key; the client's part of the handshake. -/
  | dtlsConnection (offers chains : Bool) (cert hello : List Byte := [])
  /-- RNG_HEALTH_FAIL (R513). A failed entropy health test stops key generation. -/
  | rngHealthFail
  /-- GET_VERSION (R517). SPDM request for supported versions. Operands: doe: over the DOE mailbox. -/
  | getVersion (doe : Bool)
  /-- GET_CAPABILITIES (R517). SPDM request for capabilities. Operands: doe: over the DOE mailbox. -/
  | getCapabilities (doe : Bool)
  /-- NEGOTIATE_ALGORITHMS (R517). SPDM algorithm negotiation. Operands: what the requester offers. -/
  | negotiateAlgorithms (doe rsa3072 sha384 : Bool)
  /-- GET_DIGESTS (R517). SPDM request for certificate chain digests. Operands: doe: over the DOE
  mailbox. -/
  | getDigests (doe : Bool)
  /-- GET_CERTIFICATE (R517). SPDM request for the certificate chain. Operands: slot and part. -/
  | getCertificate (doe : Bool) (slot off len : Nat)
  /-- CHALLENGE (R517). SPDM challenge answered with a signed response. Operands: slot and the
  requester's nonce. -/
  | challenge (doe : Bool) (slot : Nat) (theirs : List Byte)
  /-- GET_MEASUREMENTS (R517). SPDM request for the measurement blocks. Operands: block, or 0xFF for
  all; signed or not; the requester's nonce. -/
  | getMeasurements (doe : Bool) (k : Nat) (signed : Bool) (theirs : List Byte)
  /-- KEY_EXCHANGE (R517). SPDM key exchange opening a session. Operands: session. -/
  | keyExchange (doe : Bool) (sess : Nat)
  /-- FINISH (R517). SPDM session finish. Operands: session; whether the verification data is right. -/
  | finish (doe : Bool) (sess : Nat) (good : Bool)
  /-- END_SESSION (R517). SPDM session end. Operands: session. -/
  | endSession (doe : Bool) (sess : Nat)
  /-- VENDOR_DEFINED_REQUEST (R518). Request for the SLH-DSA signature over a recent signed response.
  Operands: request code, nonce and ms since the response. -/
  | vendorDefined (doe : Bool) (req : Nat) (nonce : List Byte) (ms : Nat)
  /-- BYPASS (R604). TAP instruction selecting the bypass register. Operands: bits shifted in. -/
  | bypass (tdi : List Bool)
  /-- IDCODE (R605). TAP instruction reading the device identification code. Operands: bits shifted in. -/
  | idcode (tdi : List Bool)
  /-- SAMPLE_PRELOAD (R604). TAP instruction sampling and preloading the boundary register. Operands:
  levels at the boundary cells and bits shifted in. -/
  | samplePreload (levels tdi : List Bool)
  /-- EXTEST (R604). TAP instruction driving pins from the boundary register. Operands: levels at the
  boundary cells and bits shifted in. -/
  | extest (levels tdi : List Bool)
  /-- CLAMP (R604). TAP instruction holding pins while bypassing. Operands: bits shifted in. -/
  | clamp (tdi : List Bool)
  /-- HIGHZ (R604). TAP instruction placing pins in high impedance. Operands: bits shifted in. -/
  | highz (tdi : List Bool)
  /-- REGISTER_WRITE (R585). A write to a register or window with no behaviour of its own, per field
  access types. Operands: size in bytes; more: of a host write above 8 B, what follows its first 8 B. -/
  | registerWrite (agent : Agent) (off size : Nat) (v : W64) (more : List W64 := [])
  /-- CXL_LINK_UP (R474). The CXL link completes training and comes up again, ending the outage in which
  host-memory completions were discarded and doorbells lost. Operands: mode, rate and width; what the host then configures. -/
  | cxlLinkUp (flit rate width : Nat) (conf : CxlConf := {})
  /-- ENTROPY_HEALTH_PASS (R513). The physical entropy source passes its health test again, and key
  generation and a session start that waited for it resume. -/
  | entropyHealthPass
  /-- STANDBY_POWER_LOSS (R595). VSB33 or VSB18 falls below its range, so the standby domain with tick,
  fuses and control complex loses power and no main domain stays powered. -/
  | standbyPowerLoss
  deriving DecidableEq, Repr

end Sys2Proof
end

