-- ==== Sys2Proof/WellFormed.lean ====
section
/-! DEFINITION. Well-formed commands: every unit, register, half, memory and agent that a command names exists, and a
flit or a memory unit has its 64 bytes. -/

namespace Sys2Proof

/-- A logical core. -/
def isCore (n : Nat) : Bool := decide (n < 256)
/-- Whom a Bore credit is for: a core, or 256, the gate (R376). -/
def isCredit (n : Nat) : Bool := decide (n ≤ 256)
/-- A link port (R321). -/
def isPort (p : Nat) : Bool := decide (p < 20)
/-- An axis. -/
def isAxis (a : Nat) : Bool := decide (a < 4)
/-- A direction of an axis, or one of two streams. -/
def isDir (d : Nat) : Bool := decide (d < 2)
/-- An Ebb die. -/
def isDie (e : Nat) : Bool := decide (e < 2)
/-- An HBM stack. -/
def isStack (k : Nat) : Bool := decide (k < 8)
/-- A memory of the ten that are scrubbed. -/
def isMemory (k : Nat) : Bool := decide (k < 10)
/-- An engine among a range of engine classes (Table 5.4). -/
def isEng (lo hi e : Nat) : Bool := decide (lo ≤ e ∧ e ≤ hi)
/-- A command ring. -/
def isRing (r : Nat) : Bool := decide (r < 32768)
/-- A completion queue. -/
def isQueue (q : Nat) : Bool := decide (q < 4096)
/-- A half of instruction memory. -/
def isHalf (h : Nat) : Bool := decide (h < 2)
/-- A 64-bit word of a half. -/
def isWord (w : Nat) : Bool := decide (w < 4096)
/-- A scratchpad bank. -/
def isBank (b : Nat) : Bool := decide (b < 32)
/-- A virtual channel. -/
def isVc (v : Nat) : Bool := decide (v < 8)
/-- A lane register. -/
def isReg (r : Nat) : Bool := decide (r < 32)
/-- A Tide mark. -/
def isMark (m : Nat) : Bool := decide (m < 64)
/-- An entry of the fingerprint table. -/
def isFinger (i : Nat) : Bool := decide (i < 64)
/-- How a host holds a unit: not, shared, possibly modified. -/
def isKeep (k : Nat) : Bool := decide (k < 3)
/-- 64 bytes. -/
def isUnit (bs : List Byte) : Bool := bs.length == 64
/-- An agent that exists. -/
def isAgent : Agent → Bool
  | .dma c e => isCore c && isEng 6 7 e
  | .mesh k => decide (k < 1024)
  | _ => true
/-- A lane of a core with a predicate code. -/
def isSite (x : LaneSite) : Bool := isCore x.core && decide (x.lane < 64) && decide (x.pred < 4)

/-- Is a command well formed. -/
def Instr.wf : Instr → Bool
  | .nop n _ => isCore n
  | .endRec n _ => isCore n
  | .br n _ => isCore n
  | .brc n _ => isCore n
  | .mthr n _ => isCore n
  | .madd n _ => isCore n
  | .cset n _ => isCore n
  | .cadd n _ => isCore n
  | .cmps n _ => isCore n
  | .pset n _ => isCore n
  | .padd n _ => isCore n
  | .pstep n _ => isCore n
  | .pmad n _ => isCore n
  | .dpatch n _ => isCore n
  | .dsld n _ _ => isCore n
  | .pld n _ _ => isCore n
  | .pst n _ _ _ => isCore n
  | .recordIssue n _ => isCore n
  | .mma n eng _ _ => isCore n && isEng 1 2 eng
  | .mns n eng _ _ => isCore n && isEng 1 2 eng
  | .skrun n _ => isCore n
  | .skwalk n _ => isCore n
  | .skcmp n => isCore n
  | .skexp n => isCore n
  | .ald n _ _ => isCore n
  | .adr n _ _ _ => isCore n
  | .azero n _ => isCore n
  | .skkld n _ _ => isCore n
  | .skipperBeat n _ _ _ _ => isCore n
  | .rsum n _ _ _ => isCore n
  | .rmax n _ _ _ => isCore n
  | .ramax n _ _ _ => isCore n
  | .dload n eng _ _ _ mesh => isCore n && isEng 6 7 eng && mesh.all fun e => isCore e.1
  | .dstore n eng _ _ _ mesh => isCore n && isEng 6 7 eng && mesh.all fun e => isCore e.1
  | .dloadt n eng _ _ _ mesh => isCore n && isEng 6 7 eng && mesh.all fun e => isCore e.1
  | .dcopy n eng _ _ _ => isCore n && isEng 6 7 eng
  | .put n _ _ => isCore n
  | .get n => isCore n
  | .bld n => isCore n
  | .bst n _ _ => isCore n
  | .rsig n => isCore n
  | .gcont n => isCore n
  | .allreduce n _ mesh => isCore n && mesh.all fun e => isCore e.1
  | .redscat n _ mesh => isCore n && mesh.all fun e => isCore e.1
  | .allgather n _ mesh => isCore n && mesh.all fun e => isCore e.1
  | .bcast n _ mesh => isCore n && mesh.all fun e => isCore e.1
  | .ringpass n _ mesh => isCore n && mesh.all fun e => isCore e.1
  | .permute n _ mesh => isCore n && mesh.all fun e => isCore e.1
  | .macroOpComplete n eng _ => isCore n && isEng 1 11 eng
  | .checkCycle n => isCore n
  | .waitTimeout n _ => isCore n
  | .laneNop x => isSite x
  | .mov x d a => isSite x && isReg d && isReg a
  | .ldi x d _ => isSite x && isReg d
  | .fsel x d a b => isSite x && isReg d && isReg a && isReg b
  | .fadd x d a b => isSite x && isReg d && isReg a && isReg b
  | .fsub x d a b => isSite x && isReg d && isReg a && isReg b
  | .fmul x d a b => isSite x && isReg d && isReg a && isReg b
  | .fma x d a b c => isSite x && isReg d && isReg a && isReg b && isReg c
  | .fmin x d a b => isSite x && isReg d && isReg a && isReg b
  | .fmax x d a b => isSite x && isReg d && isReg a && isReg b
  | .fabs x d a => isSite x && isReg d && isReg a
  | .fneg x d a => isSite x && isReg d && isReg a
  | .fcmp x _ a b => isSite x && isReg a && isReg b
  | .cvtif x d a => isSite x && isReg d && isReg a
  | .cvtfi x d a => isSite x && isReg d && isReg a
  | .rbf x d a => isSite x && isReg d && isReg a
  | .rcp x d a => isSite x && isReg d && isReg a
  | .div x d a b => isSite x && isReg d && isReg a && isReg b
  | .sqrt x d a => isSite x && isReg d && isReg a
  | .rsqrt x d a => isSite x && isReg d && isReg a
  | .exp2 x d a => isSite x && isReg d && isReg a
  | .exp x d a => isSite x && isReg d && isReg a
  | .log2 x d a => isSite x && isReg d && isReg a
  | .ln x d a => isSite x && isReg d && isReg a
  | .tanh x d a => isSite x && isReg d && isReg a
  | .sigm x d a => isSite x && isReg d && isReg a
  | .erf x d a => isSite x && isReg d && isReg a
  | .iadd x d a b => isSite x && isReg d && isReg a && isReg b
  | .isub x d a b => isSite x && isReg d && isReg a && isReg b
  | .imul x d a b => isSite x && isReg d && isReg a && isReg b
  | .andL x d a b => isSite x && isReg d && isReg a && isReg b
  | .orL x d a b => isSite x && isReg d && isReg a && isReg b
  | .xorL x d a b => isSite x && isReg d && isReg a && isReg b
  | .shl x d a b => isSite x && isReg d && isReg a && isReg b
  | .shr x d a b => isSite x && isReg d && isReg a && isReg b
  | .sar x d a b => isSite x && isReg d && isReg a && isReg b
  | .imin x d a b => isSite x && isReg d && isReg a && isReg b
  | .imax x d a b => isSite x && isReg d && isReg a && isReg b
  | .icmp x _ a b => isSite x && isReg a && isReg b
  | .rng x d a b c => isSite x && isReg d && isReg a && isReg b && isReg c
  | .dispatchRecord ring => isRing ring
  | .patchApply n => isCore n
  | .replayStart n _ => isCore n
  | .phaseRetry ring _ => isRing ring
  | .completionRecord n => isCore n
  | .msix q _ => isQueue q
  | .doorbell agent _ _ _ => isAgent agent
  | .cqHeadDoorbell _ _ _ => true
  | .ringEnable agent num => isAgent agent && isRing num
  | .ringDisable agent num => isAgent agent && isRing num
  | .cqEnable agent num => isAgent agent && isQueue num
  | .cqDisable agent num => isAgent agent && isQueue num
  | .hostMemRead _ keep _ => isKeep keep
  | .hostMemWrite _ data keep _ => isUnit data && isKeep keep
  | .memWrPtl _ _ data keep _ => isUnit data && isKeep keep
  | .h2dSnoop _ _ => true
  | .birsp _ data => data.elim true isUnit
  | .cxlLinkDown => true
  | .cxlPortReset => true
  | .ideKm _ stream => isDir stream
  | .imWrite agent n half word _ => isAgent agent && isCore n && isHalf half && isWord word
  | .switchHalf agent n => isAgent agent && isCore n
  | .halfExchange n => isCore n
  | .resume agent n => isAgent agent && isCore n
  | .stopSet agent n => isAgent agent && isCore n
  | .stopClear agent n => isAgent agent && isCore n
  | .coreMsig agent n _ => isAgent agent && isCore n
  | .markWrite agent n k _ _ _ => isAgent agent && isCore n && isMark k
  | .dmaHalt agent n eng _ => isAgent agent && isCore n && isEng 6 7 eng
  | .spdBankpwr agent n _ => isAgent agent && isCore n
  | .bankTransition n bank => isCore n && isBank bank
  | .codeword p _ _ => isPort p
  | .dataFlit p bytes _ => isPort p && isUnit bytes
  | .controlFlit p bytes _ => isPort p && isUnit bytes
  | .replayRequest p bytes _ => isPort p && isUnit bytes
  | .tagFlit p head rest _ => isPort p && head.length == 6 && rest.length == 58
  | .frameClose p vc => isPort p && isVc vc
  | .routerHop p vc => isPort p && isVc vc
  | .putData _ _ _ mesh => mesh.all fun e => isCore e.1
  | .getRequest _ _ => true
  | .getData _ _ _ => true
  | .boardStoreData _ _ _ => true
  | .completion _ => true
  | .markSignal _ => true
  | .boardLoadRequest _ _ => true
  | .busyResend _ _ => true
  | .transferTimeout _ _ _ _ => true
  | .sourceTimeout n _ _ => isCore n
  | .advance agent => isAgent agent
  | .fenceReq agent => isAgent agent
  | .fenceDone => true
  | .linkEnable agent p _ => isAgent agent && isPort p
  | .ident p _ _ _ _ _ => isPort p
  | .keyx p _ _ _ _ => isPort p
  | .lnkExpect agent p _ => isAgent agent && isPort p
  | .linkFail p _ => isPort p
  | .linkRetrain p => isPort p
  | .boreMessage axis _ _ mesh => isAxis axis && mesh.all fun e => isCore e.1
  | .boreCredit axis dir core => isAxis axis && isDir dir && isCredit core
  | .boreWatchdog axis core _ => isAxis axis && isCore core
  | .boreAxcfg agent axis _ => isAgent agent && isAxis axis
  | .gateMessage _ => true
  | .chipContribution => true
  | .jobWideGateWord => true
  | .gateWatchdog _ => true
  | .gateDisable agent => isAgent agent
  | .stagingWrite die _ _ => isDie die
  | .ebbGateWord die => isDie die
  | .strandlineWrite => true
  | .updatePass die => isDie die
  | .passComplete die => isDie die
  | .mirrorStream die => isDie die
  | .mirrorReceive die _ _ _ _ _ => isDie die
  | .mirrorAck die _ _ _ => isDie die
  | .mirrorTimeout die _ => isDie die
  | .mirrorDisable agent die => isAgent agent && isDie die
  | .clrflt agent die => isAgent agent && isDie die
  | .rulechk agent die _ => isAgent agent && isDie die
  | .tideLscfg agent die _ => isAgent agent && isDie die
  | .tideScheduleWrite agent die _ _ _ => isAgent agent && isDie die
  | .snapshotRequest agent die => isAgent agent && isDie die
  | .snapshotCopy die => isDie die
  | .snapshotSwap die => isDie die
  | .exportStart agent die _ => isAgent agent && isDie die
  | .exportAbort agent die => isAgent agent && isDie die
  | .exportAck _ => true
  | .exportTimeout die _ => isDie die
  | .babort agent => isAgent agent
  | .gabort agent => isAgent agent
  | .eabort agent => isAgent agent
  | .restoreSend agent die _ => isAgent agent && isDie die
  | .restoreReceive die _ _ _ _ _ => isDie die
  | .restoreBuild agent die => isAgent agent && isDie die
  | .fltClr agent => isAgent agent
  | .hbmAccess agent _ _ _ data => isAgent agent && isUnit data
  | .slowTierAccess die _ => isDie die
  | .hbmTempReading stack _ => isStack stack
  | .hbmRefresh stack => isStack stack
  | .slowTierRefresh die => isDie die
  | .scrubComplete which => isMemory which
  | .setpointChange _ => true
  | .refclkLoss => true
  | .refclkReturn => true
  | .clockStretch _ => true
  | .stretchWindow _ _ => true
  | .tickExchange _ p _ _ => decide (p < 16)
  | .tickSlew => true
  | .powerSample _ => true
  | .junctionSample _ => true
  | .coreWave => true
  | .powerOnReset => true
  | .standbyResetRelease _ _ => true
  | .pllLock => true
  | .imageVerified => true
  | .mainPg _ => true
  | .mainDomainStart _ => true
  | .domainPowerUp => true
  | .memoryTrainingComplete _ => true
  | .mainPowerReset _ => true
  | .firmwareReset => true
  | .tenantSwitch => true
  | .memoryClose _ => true
  | .switchPowerRestore => true
  | .selfTest => true
  | .selfTestPhase cores _ => cores.all isCore
  | .imageDelivery _ _ => true
  | .svnCommit => true
  | .revokeSlot _ _ _ _ _ _ => true
  | .setCoordinates _ => true
  | .installFingerprints k _ => isFinger k
  | .setRteDomain _ => true
  | .setRteTransit _ => true
  | .setpointRequest _ _ => true
  | .setPwrCap _ => true
  | .setHbmThr stack _ _ _ => isStack stack
  | .setIdePolicy _ => true
  | .sever => true
  | .strandedAnnounce => true
  | .reAdmit => true
  | .debugUnlock _ _ _ _ _ _ => true
  | .ownerInstall _ => true
  | .ownerChange _ _ => true
  | .stopSetRequest cores => cores.all isCore
  | .stopClearRequest cores => cores.all isCore
  | .livenessRequest => true
  | .shingleTimeout => true
  | .heartbeat => true
  | .dtlsConnection _ _ _ _ => true
  | .rngHealthFail => true
  | .getVersion _ => true
  | .getCapabilities _ => true
  | .negotiateAlgorithms _ _ _ => true
  | .getDigests _ => true
  | .getCertificate _ _ _ _ => true
  | .challenge _ _ _ => true
  | .getMeasurements _ _ _ _ => true
  | .keyExchange _ _ => true
  | .finish _ _ _ => true
  | .endSession _ _ => true
  | .vendorDefined _ _ _ _ => true
  | .bypass _ => true
  | .idcode _ => true
  | .samplePreload _ _ => true
  | .extest _ _ => true
  | .clamp _ => true
  | .highz _ => true
  | .registerWrite agent _ _ _ _ => isAgent agent
  | .cxlLinkUp _ _ _ _ => true
  | .entropyHealthPass => true
  | .standbyPowerLoss => true

end Sys2Proof
end

