-- ==== Sys2Proof/Machine/Sparse.lean ====
section
/-! DEFINITION. Sparse stores: a list of (key, value) pairs in one canonical form, keys strictly
rising and no value equal to what an unlisted key reads as. Every memory, register file and table
of the model is one of these. -/

namespace Sys2Proof.Machine

/-- The value at a key; `d` is what an unlisted key reads as. -/
def Sparse.get {α : Type} (d : α) : List (Nat × α) → Nat → α
  | [], _ => d
  | (k, v) :: t, a => if k = a then v else Sparse.get d t a

/-- Write a value at a key, keeping the canonical form. -/
def Sparse.set {α : Type} [DecidableEq α] (d : α) : List (Nat × α) → Nat → α → List (Nat × α)
  | [], a, v => if v = d then [] else [(a, v)]
  | (k, w) :: t, a, v =>
    if a < k then
      if v = d then (k, w) :: Sparse.set d t a v else (a, v) :: (k, w) :: t
    else if a = k then
      if v = d then Sparse.set d t a v else (a, v) :: t
    else (k, w) :: Sparse.set d t a v

/-- Every key is above `lo` and the keys rise; no value is the default. -/
def Sparse.wfFrom {α : Type} [DecidableEq α] (d : α) : Nat → List (Nat × α) → Bool
  | _, [] => true
  | lo, (k, v) :: t => decide (lo ≤ k) && decide (v ≠ d) && Sparse.wfFrom d (k + 1) t

/-- The canonical form: keys strictly rising, no value equal to the default. -/
def Sparse.wf {α : Type} [DecidableEq α] (d : α) (m : List (Nat × α)) : Bool := Sparse.wfFrom d 0 m

/-- Change one entry by a function. -/
def Sparse.modify {α : Type} [DecidableEq α] (d : α) (m : List (Nat × α)) (k : Nat) (f : α → α) :
    List (Nat × α) :=
  Sparse.set d m k (f (Sparse.get d m k))

/-- Drop every entry whose key satisfies `p` (those keys read as the default again). -/
def Sparse.drop {α : Type} (p : Nat → Bool) (m : List (Nat × α)) : List (Nat × α) :=
  m.filter fun e => !p e.1

/-- Keep `n` consecutive values from a key. -/
def Sparse.getN {α : Type} (d : α) (m : List (Nat × α)) (k : Nat) : Nat → List α
  | 0 => []
  | n + 1 => Sparse.get d m k :: Sparse.getN d m (k + 1) n

/-- Write consecutive values from a key. -/
def Sparse.setN {α : Type} [DecidableEq α] (d : α) : List (Nat × α) → Nat → List α → List (Nat × α)
  | m, _, [] => m
  | m, k, v :: vs => Sparse.setN d (Sparse.set d m k v) (k + 1) vs

end Sys2Proof.Machine
end

