-- ==== Sys2Proof/Machine/Bits.lean ====
section
/-! DEFINITION. Bit fields, sign extension and byte order (R11, R12). -/

namespace Sys2Proof.Machine

/-- The `len` bits of a word that start at bit `lo`, as a number (R11). -/
def fld {n : Nat} (v : BitVec n) (lo len : Nat) : Nat := v.toNat / 2 ^ lo % 2 ^ len

/-- One bit of a word. -/
def bit {n : Nat} (v : BitVec n) (i : Nat) : Bool := v.getLsbD i

/-- A word whose only ones are the `len` bits from `lo`. -/
def maskOf (n lo len : Nat) : BitVec n := BitVec.ofNat n ((2 ^ len - 1) * 2 ^ lo)

/-- The word with the `len` bits from `lo` replaced by the low bits of `x`. -/
def setFld {n : Nat} (v : BitVec n) (lo len x : Nat) : BitVec n :=
  (v &&& ~~~ maskOf n lo len) ||| BitVec.ofNat n ((x % 2 ^ len) * 2 ^ lo)

/-- The word with one bit written. -/
def setBit {n : Nat} (v : BitVec n) (i : Nat) (b : Bool) : BitVec n := setFld v i 1 b.toNat

/-- The number of a truth value. -/
def b2n (b : Bool) : Nat := b.toNat

/-- A number below 2^n read as two's complement. -/
def toSigned (n x : Nat) : Int := if x % 2 ^ n < 2 ^ (n - 1) then (x % 2 ^ n : Nat) else ((x % 2 ^ n : Nat) : Int) - 2 ^ n

/-- The number whose bytes, least significant first, are given (R12). -/
def leNat : List Byte → Nat
  | [] => 0
  | b :: t => b.toNat + 256 * leNat t

/-- The `n` bytes of a number, least significant first (R12). -/
def leBytes : Nat → Nat → List Byte
  | 0, _ => []
  | n + 1, x => BitVec.ofNat 8 x :: leBytes n (x / 256)

/-- `n` bytes of a list from position `o`, zero beyond its end. -/
def sliceB (bs : List Byte) (o n : Nat) : List Byte :=
  let c := (bs.drop o).take n
  c ++ List.replicate (n - c.length) 0

/-- The little-endian number in `n` bytes from position `o`. -/
def natAt (bs : List Byte) (o n : Nat) : Nat := leNat (sliceB bs o n)

/-- Ceiling division. -/
def cdiv (a b : Nat) : Nat := (a + b - 1) / b

/-- Round up to a multiple of 64 (R55). -/
def up64 (a : Nat) : Nat := cdiv a 64 * 64

/-- Saturating addition of a counter of `w` bits (R585: holds at the largest value). -/
def satAdd (w a b : Nat) : Nat := min (a + b) (2 ^ w - 1)

/-- One step of the CRC-32 of IEEE 802.3, reflected, over one bit. -/
def crcBit (c : BitVec 32) : BitVec 32 :=
  if c.getLsbD 0 then (c >>> 1) ^^^ 0xEDB88320#32 else c >>> 1

/-- The CRC-32 register after one byte. -/
def crcByte (c : BitVec 32) (b : Byte) : BitVec 32 :=
  crcBit (crcBit (crcBit (crcBit (crcBit (crcBit (crcBit (crcBit (c ^^^ b.setWidth 32))))))))

/-- CRC-32 (IEEE 802.3 polynomial, reflected, initial value and final XOR 0xFFFF_FFFF; R328). -/
def crc32 (bs : List Byte) : BitVec 32 := ~~~ (bs.foldl crcByte 0xFFFFFFFF#32)

/-- Do two half-open ranges of numbers meet. -/
def rangesMeet (a la b lb : Nat) : Bool := decide (0 < la ∧ 0 < lb ∧ a < b + lb ∧ b < a + la)

/-- Does the range from `a` of length `la` lie inside that from `b` of length `lb`. -/
def rangeIn (a la b lb : Nat) : Bool := decide (b ≤ a ∧ a + la ≤ b + lb)

/-- The positions of a list that satisfy a test. -/
def idxWhere {α : Type} (p : α → Bool) (l : List α) : List Nat :=
  (l.zipIdx.filter fun e => p e.1).map Prod.snd

/-- Replace the first element that satisfies a test. -/
def replFirst {α : Type} (p : α → Bool) (f : α → α) : List α → List α
  | [] => []
  | a :: t => if p a then f a :: t else a :: replFirst p f t

/-- Remove the first element that satisfies a test. -/
def dropFirst {α : Type} (p : α → Bool) : List α → List α
  | [] => []
  | a :: t => if p a then t else a :: dropFirst p t

end Sys2Proof.Machine
end

