-- ==== Sys2Proof/Machine/Float.lean ====
section
/-! DEFINITION. FP32 arithmetic, exact and rounded once (R47, R48, R59, R89, R236 to R239). A finite
value is a sign, a magnitude and a power of two; every operation forms the exact result and rounds it. -/

namespace Sys2Proof.Machine

/-- What an FP32 operation reports: the events of Table 3.3, R89 and R238. -/
structure Ev where
  nan : Bool := false
  inv : Bool := false
  ovf : Bool := false
  inf : Bool := false
  dz : Bool := false
  deriving DecidableEq, Repr

/-- Both sets of events. -/
def Ev.join (a b : Ev) : Ev :=
  ⟨a.nan || b.nan, a.inv || b.inv, a.ovf || b.ovf, a.inf || b.inf, a.dz || b.dz⟩

/-- The value of a floating-point encoding: a NaN, an infinity, or (−1)^neg × m × 2^e. -/
inductive Fv where
  | nan
  | inf (neg : Bool)
  | fin (neg : Bool) (m : Nat) (e : Int)
  deriving DecidableEq, Repr

/-- The canonical NaN of FP32 (R48). -/
def nan32 : W32 := 0x7FC00000#32
/-- An FP32 infinity. -/
def inf32 (neg : Bool) : W32 := if neg then 0xFF800000#32 else 0x7F800000#32
/-- An FP32 zero. -/
def zero32 (neg : Bool) : W32 := if neg then 0x80000000#32 else 0#32

/-- The value of an IEEE layout with `mb` fraction bits and the given bias, all codes finite. -/
def finOf (mb : Nat) (bias : Int) (neg : Bool) (ef m : Nat) : Fv :=
  if ef = 0 then .fin neg m (1 - bias - mb) else .fin neg (m + 2 ^ mb) (ef - bias - mb)

/-- The value of an FP32 encoding, subnormals kept (R47). -/
def fvOf32 (b : W32) : Fv :=
  let ef := fld b 23 8
  let m := fld b 0 23
  let neg := bit b 31
  if ef = 255 then (if m = 0 then .inf neg else .nan) else finOf 23 127 neg ef m

/-- Is the value a NaN. -/
def Fv.isNan : Fv → Bool
  | .nan => true
  | _ => false
/-- Is the value an infinity. -/
def Fv.isInf : Fv → Bool
  | .inf _ => true
  | _ => false
/-- Is the value finite. -/
def Fv.isFin : Fv → Bool
  | .fin .. => true
  | _ => false
/-- Is the value a zero. -/
def Fv.isZero : Fv → Bool
  | .fin _ m _ => m == 0
  | _ => false
/-- The sign of a value (false for a NaN). -/
def Fv.neg : Fv → Bool
  | .nan => false
  | .inf n => n
  | .fin n _ _ => n

/-- Is an FP32 encoding a NaN. -/
def isNan32 (b : W32) : Bool := (fvOf32 b).isNan

/-- Every conversion and arithmetic result writes only the canonical NaN (R48). -/
def canon32 (b : W32) : W32 := if isNan32 b then nan32 else b

/-- Rounding modes (Table 2.4); SR carries the 16-bit value of R60. -/
inductive Rm where
  | rne
  | rtz
  | sr (r : Nat)
  deriving DecidableEq, Repr

/-- Round the quotient `a + rem / den` (rem < den) to an integer: R59 and R60. -/
def roundQuot (rm : Rm) (a rem den : Nat) : Nat :=
  if rem = 0 then a
  else match rm with
    | .rne => if den < 2 * rem ∨ (2 * rem = den ∧ a % 2 = 1) then a + 1 else a
    | .rtz => a
    | .sr r => if 2 ^ 16 ≤ 2 ^ 16 * rem / den + r then a + 1 else a

/-- Round the magnitude m × 2^e to a grid of precision `p` whose smallest step is 2^q, the exponent
range unbounded above (R59): the answer k × 2^g as (k, g), k ≤ 2^p. -/
def roundGrid (p : Nat) (q : Int) (rm : Rm) (m : Nat) (e : Int) : Nat × Int :=
  if m = 0 then (0, q)
  else
    let g := max ((Nat.log2 m : Int) + e - (p - 1)) q
    if g ≤ e then (m * 2 ^ (e - g).toNat, g)
    else
      let d := 2 ^ (g - e).toNat
      (roundQuot rm (m / d) (m % d) d, g)

/-- The code of the rounded magnitude in a layout of exponent then fraction: codes rise with the
magnitude, so overflow is a code above the largest finite one (R59, R61). -/
def roundCode (p : Nat) (q : Int) (rm : Rm) (m : Nat) (e : Int) : Nat :=
  let (k, g) := roundGrid p q rm m e
  (g - q).toNat * 2 ^ (p - 1) + k

/-- Round an exact magnitude to FP32 under RNE; a magnitude above the range gives infinity and OVF. -/
def round32 (neg : Bool) (m : Nat) (e : Int) : W32 × Ev :=
  let c := roundCode 24 (-149) .rne m e
  if 0x7F800000 ≤ c then (inf32 neg, { ovf := true })
  else (BitVec.ofNat 32 (c + if neg then 2 ^ 31 else 0), {})

/-- A signed magnitude at a common exponent. -/
def sgnInt (neg : Bool) (m : Nat) : Int := if neg then -(m : Int) else m

/-- Round a signed exact value to FP32; an exact zero takes the sign `zneg`. -/
def round32Int (zneg : Bool) (v : Int) (e : Int) : W32 × Ev :=
  if v = 0 then (zero32 zneg, {}) else round32 (decide (v < 0)) v.natAbs e

/-- The events of operands that are NaN (R89, R238). -/
def nanResult : W32 × Ev := (nan32, { nan := true })
/-- An invalid operation (R89, R238). -/
def invResult : W32 × Ev := (nan32, { inv := true })

/-- The exact sum of two finite values as an integer at the lower exponent. -/
def addExact (n1 : Bool) (m1 : Nat) (e1 : Int) (n2 : Bool) (m2 : Nat) (e2 : Int) : Int × Int :=
  let e := min e1 e2
  (sgnInt n1 (m1 * 2 ^ (e1 - e).toNat) + sgnInt n2 (m2 * 2 ^ (e2 - e).toNat), e)

/-- Sum of two values, rounded once; an exact zero is −0 only from two −0 (R89, R236). -/
def addFv (x y : Fv) : W32 × Ev :=
  match x, y with
  | .nan, _ => nanResult
  | _, .nan => nanResult
  | .inf a, .inf b => if a = b then (inf32 a, {}) else invResult
  | .inf a, .fin .. => (inf32 a, {})
  | .fin .., .inf b => (inf32 b, {})
  | .fin n1 m1 e1, .fin n2 m2 e2 =>
    let (v, e) := addExact n1 m1 e1 n2 m2 e2
    round32Int (n1 && n2 && m1 == 0 && m2 == 0) v e

/-- add32 of R89, which is also FADD (R236). -/
def fadd32 (a b : W32) : W32 × Ev := addFv (fvOf32 a) (fvOf32 b)

/-- A value with its sign inverted. -/
def Fv.negate : Fv → Fv
  | .nan => .nan
  | .inf n => .inf !n
  | .fin n m e => .fin (!n) m e

/-- FSUB (R236). -/
def fsub32 (a b : W32) : W32 × Ev := addFv (fvOf32 a) (fvOf32 b).negate

/-- The exact product of two values; `none` for zero times infinity. -/
def mulExact (x y : Fv) : Option Fv :=
  match x, y with
  | .nan, _ => some .nan
  | _, .nan => some .nan
  | .inf a, .inf b => some (.inf (a != b))
  | .inf a, .fin n m _ => if m = 0 then none else some (.inf (a != n))
  | .fin n m _, .inf b => if m = 0 then none else some (.inf (n != b))
  | .fin n1 m1 e1, .fin n2 m2 e2 => some (.fin (n1 != n2) (m1 * m2) (e1 + e2))

/-- FMUL (R236, R238). -/
def fmul32 (a b : W32) : W32 × Ev :=
  match mulExact (fvOf32 a) (fvOf32 b) with
  | none => invResult
  | some .nan => nanResult
  | some (.inf n) => (inf32 n, {})
  | some (.fin n m e) => if m = 0 then (zero32 n, {}) else round32 n m e

/-- FMA, rounded once (R236); a zero times an infinity is INV whatever the addend, with NAN too if
the addend is one (R238). -/
def fma32 (a b c : W32) : W32 × Ev :=
  let z := fvOf32 c
  match mulExact (fvOf32 a) (fvOf32 b) with
  | none => (nan32, { inv := true, nan := z.isNan })
  | some p => addFv p z

/-- Is x below y, both not NaN, with −0 below +0. -/
def ltTotal (a b : W32) : Bool :=
  let key (w : W32) : Int := if bit w 31 then -(fld w 0 31 : Int) - 1 else fld w 0 31
  decide (key a < key b)

/-- FMIN: −0 is below +0; canonical NaN if either is NaN (R236). -/
def fmin32 (a b : W32) : W32 × Ev :=
  if isNan32 a || isNan32 b then nanResult else (if ltTotal b a then b else a, {})

/-- FMAX: +0 is above −0; canonical NaN if either is NaN (R236). -/
def fmax32 (a b : W32) : W32 × Ev :=
  if isNan32 a || isNan32 b then nanResult else (if ltTotal a b then b else a, {})

/-- Compare two values that are no NaN: −1, 0 or 1, zeros equal. -/
def cmpVal (a b : W32) : Int :=
  let key (w : W32) : Int := sgnInt (bit w 31) (fld w 0 31)
  if key a < key b then -1 else if key a = key b then 0 else 1

/-- The conditions of Table 7.5 on FP32 values (R239); reserved codes are no condition. -/
def fcmp32 (md : Nat) (a b : W32) : Option Bool :=
  let un := isNan32 a || isNan32 b
  let c := cmpVal a b
  match md with
  | 0 => some (!un && c == 0)
  | 1 => some (un || c != 0)
  | 2 => some (!un && decide (c < 0))
  | 3 => some (!un && decide (c ≤ 0))
  | 4 => some (!un && decide (0 < c))
  | 5 => some (!un && decide (0 ≤ c))
  | 6 => some un
  | _ => none

/-- The conditions of Table 7.5 on integers (R239). -/
def icmp32 (md : Nat) (a b : W32) : Option Bool :=
  match md with
  | 0 => some (a == b)
  | 1 => some (a != b)
  | 2 => some (BitVec.slt a b)
  | 3 => some (BitVec.sle a b)
  | 4 => some (BitVec.slt b a)
  | 5 => some (BitVec.sle b a)
  | 7 => some (BitVec.ult a b)
  | 8 => some (BitVec.ule b a)
  | _ => none

/-- CVTIF: a signed integer as FP32, RNE. -/
def cvtif32 (a : W32) : W32 × Ev := round32Int false a.toInt 0

/-- The integer part of a finite value, toward zero. -/
def truncInt (neg : Bool) (m : Nat) (e : Int) : Int :=
  sgnInt neg (if 0 ≤ e then m * 2 ^ e.toNat else m / 2 ^ (-e).toNat)

/-- CVTFI: toward zero; 0 for a NaN and the nearer limit for a value out of range, with INV (R238).
A NaN operand also records NAN. -/
def cvtfi32 (a : W32) : W32 × Ev :=
  match fvOf32 a with
  | .nan => (0#32, { nan := true, inv := true })
  | .inf n => (if n then 0x80000000#32 else 0x7FFFFFFF#32, { inv := true })
  | .fin n m e =>
    let v := truncInt n m e
    if v < -2147483648 then (0x80000000#32, { inv := true })
    else if 2147483647 < v then (0x7FFFFFFF#32, { inv := true })
    else (BitVec.ofInt 32 v, {})

/-- RBF: rounded to BF16 under RNE, held as FP32 (R236). -/
def rbf32 (a : W32) : W32 × Ev :=
  match fvOf32 a with
  | .nan => nanResult
  | .inf n => (inf32 n, {})
  | .fin n m e =>
    let c := roundCode 8 (-133) .rne m e
    if 0x7F80 ≤ c then (inf32 n, { ovf := true })
    else (BitVec.ofNat 32 (c * 2 ^ 16 + if n then 2 ^ 31 else 0), {})

/-- The hash of R60 in full 32 bits, which is rng32 (R230). -/
def rng32 (a b i : W32) : W32 :=
  let h := a ^^^ (i * 0x3B9AC5E1#32)
  let h := h ^^^ b
  let h := (h ^^^ (h >>> 16)) * 0x71D36A4B#32
  let h := (h ^^^ (h >>> 13)) * 0x5E2F90C7#32
  h ^^^ (h >>> 16)

/-- sr_bits of R60: 16 bits from a 64-bit seed and an element index modulo 2^32. -/
def srBits (seed : W64) (i : Nat) : Nat :=
  fld (rng32 (seed.setWidth 32) ((seed >>> 32).setWidth 32) (BitVec.ofNat 32 i)) 0 16

end Sys2Proof.Machine
end

