-- ==== Sys2Proof/Machine/Transc.lean ====
section
/-! DEFINITION. The transcendentals of Table 7.3, each the exact result rounded once under RNE (R237).
Algebraic results come from integer division and integer square roots with a sticky bit. The others
are evaluated in fixed point with 512 fraction bits, far below half an ulp of any result that is no
exact binary fraction (DEDUCED: no FP32 operand brings a result that close to a rounding boundary). -/

namespace Sys2Proof.Machine

/-- Fraction bits of the fixed-point evaluation. -/
def fxBits : Nat := 512
/-- 1 in fixed point. -/
def fxOne : Nat := 2 ^ fxBits

/-- ⌊√n⌋, found bit by bit from bit `k − 1` down. -/
def isqrtFrom (n : Nat) : Nat → Nat → Nat
  | 0, r => r
  | k + 1, r => isqrtFrom n k (if (r + 2 ^ k) * (r + 2 ^ k) ≤ n then r + 2 ^ k else r)

/-- ⌊√n⌋. -/
def isqrt (n : Nat) : Nat := isqrtFrom n (Nat.log2 n / 2 + 1) 0

/-- Round a magnitude known as `m` × 2^e plus a remainder that is zero exactly when `exact`. -/
def roundSticky (neg : Bool) (m : Nat) (e : Int) (exact : Bool) : W32 × Ev :=
  round32 neg (2 * m + if exact then 0 else 1) (e - 1)

/-- The rounded quotient of two finite magnitudes, the divisor not zero. -/
def divFin (neg : Bool) (m1 : Nat) (e1 : Int) (m2 : Nat) (e2 : Int) : W32 × Ev :=
  if m1 = 0 then (zero32 neg, {})
  else roundSticky neg (m1 * 2 ^ 64 / m2) (e1 - e2 - 64) (m1 * 2 ^ 64 % m2 == 0)

/-- DIV (Table 7.4). -/
def fdiv32 (a b : W32) : W32 × Ev :=
  match fvOf32 a, fvOf32 b with
  | .nan, _ => nanResult
  | _, .nan => nanResult
  | .inf _, .inf _ => invResult
  | .inf n, .fin n2 _ _ => (inf32 (n != n2), {})
  | .fin n _ _, .inf n2 => (zero32 (n != n2), {})
  | .fin n1 m1 e1, .fin n2 m2 e2 =>
    if m2 = 0 then
      if m1 = 0 then invResult else (inf32 (n1 != n2), { dz := true })
    else divFin (n1 != n2) m1 e1 m2 e2

/-- RCP (Table 7.4). -/
def frcp32 (a : W32) : W32 × Ev := fdiv32 0x3F800000#32 a

/-- SQRT (Table 7.4). -/
def fsqrt32 (a : W32) : W32 × Ev :=
  match fvOf32 a with
  | .nan => nanResult
  | .inf n => if n then invResult else (inf32 false, {})
  | .fin n m e =>
    if m = 0 then (zero32 n, {})
    else if n then invResult
    else
      let (m', e') := if e % 2 = 0 then (m * 2 ^ 64, e - 64) else (m * 2 ^ 65, e - 65)
      let s := isqrt m'
      roundSticky false s (e' / 2) (s * s == m')

/-- RSQRT (Table 7.4). -/
def frsqrt32 (a : W32) : W32 × Ev :=
  match fvOf32 a with
  | .nan => nanResult
  | .inf n => if n then invResult else (zero32 false, {})
  | .fin n m e =>
    if m = 0 then (inf32 n, { dz := true })
    else if n then invResult
    else
      let (m', e') := if e % 2 = 0 then (m, e) else (2 * m, e - 1)
      let s := isqrt (2 ^ 128 / m')
      roundSticky false s (-64 - e' / 2) (s * s * m' == 2 ^ 128)

/-- ∑ z^(2k+1) / (2k+1) for `n` terms from the k-th, times one sign per term: atanh (alt false) or
atan (alt true) of the fixed-point z, `z2` its square and `p` the current power. -/
def atanSum (alt : Bool) (z2 : Nat) : Nat → Nat → Nat → Int
  | 0, _, _ => 0
  | n + 1, k, p =>
    let t : Int := (p / (2 * k + 1) : Nat)
    (if alt && k % 2 == 1 then -t else t) + atanSum alt z2 n (k + 1) (p * z2 / fxOne)

/-- atanh of a fixed-point z ≤ 1/3. -/
def atanhFx (z : Nat) : Nat := (atanSum false (z * z / fxOne) 170 0 z).toNat
/-- ln 2 = 2 atanh(1/3). -/
def ln2Fx : Nat := 2 * atanhFx (fxOne / 3)
/-- π = 16 atan(1/5) − 4 atan(1/239). -/
def piFx : Nat :=
  (16 * atanSum true (fxOne / 25) 120 0 (fxOne / 5) - 4 * atanSum true (fxOne / 57121) 40 0 (fxOne / 239)).toNat

/-- ∑ x^k / k! for `n` terms after the term `t` of index `k`. -/
def expSum (x : Nat) : Nat → Nat → Nat → Nat
  | 0, _, t => t
  | n + 1, k, t => t + expSum x n (k + 1) (t * x / fxOne / (k + 1))

/-- e^x for a fixed-point 0 ≤ x < 1. -/
def expFx (x : Nat) : Nat := expSum x 110 0 fxOne

/-- The fixed-point value of a finite magnitude below 2^15, rounded down. -/
def toFx (m : Nat) (e : Int) : Nat :=
  let s := e + fxBits
  if 0 ≤ s then m * 2 ^ s.toNat else m / 2 ^ (-s).toNat

/-- e^(±x) for a fixed-point x ≥ 0, as (f, n) with value f × 2^(n − 512) and f in [1, 2). -/
def expParts (neg : Bool) (x : Nat) : Nat × Int :=
  let n := x / ln2Fx
  let r := x % ln2Fx
  if neg then
    if r = 0 then (fxOne, -(n : Int)) else (expFx (ln2Fx - r), -(n : Int) - 1)
  else (expFx r, n)

/-- e^(−x) in fixed point; 0 where it is below 2^−512. -/
def expNegFx (x : Nat) : Nat :=
  let (f, n) := expParts true x
  f / 2 ^ (-n).toNat

/-- The magnitude of a finite value is at least 2^k. -/
def magGe (m : Nat) (e : Int) (k : Int) : Bool := m != 0 && decide (k ≤ (Nat.log2 m : Int) + e)

/-- The result of an exponential whose operand is too large in magnitude for the range. -/
def expFar (neg : Bool) : W32 × Ev := if neg then (zero32 false, {}) else (inf32 false, { ovf := true })

/-- EXP (Table 7.4): overflow gives +∞ and OVF; below the range a subnormal or +0 with no event. -/
def fexp32 (a : W32) : W32 × Ev :=
  match fvOf32 a with
  | .nan => nanResult
  | .inf n => (if n then zero32 false else inf32 false, {})
  | .fin n m e =>
    if m = 0 then (0x3F800000#32, {})
    else if magGe m e 8 then expFar n
    else
      let (f, k) := expParts n (toFx m e)
      roundSticky false f (k - fxBits) false

/-- EXP2 (Table 7.4); an integer operand gives an exact power of two. -/
def fexp232 (a : W32) : W32 × Ev :=
  match fvOf32 a with
  | .nan => nanResult
  | .inf n => (if n then zero32 false else inf32 false, {})
  | .fin n m e =>
    if m = 0 then (0x3F800000#32, {})
    else if magGe m e 9 then expFar n
    else
      let x := toFx m e
      let i := x / fxOne
      let f := x % fxOne
      if f = 0 ∧ e ≥ -(fxBits : Int) then round32 false 1 (if n then -(i : Int) else i)
      else if n then roundSticky false (expFx ((fxOne - f) * ln2Fx / fxOne)) (-(i : Int) - 1 - fxBits) false
      else roundSticky false (expFx (f * ln2Fx / fxOne)) ((i : Int) - fxBits) false

/-- The natural logarithm of m × 2^e (m not 0) in fixed point, signed. -/
def lnFx (m : Nat) (e : Int) : Int :=
  let l := Nat.log2 m
  let f := m * fxOne / 2 ^ l
  ((l : Int) + e) * ln2Fx + 2 * atanhFx ((f - fxOne) * fxOne / (f + fxOne))

/-- LN (Table 7.4). -/
def fln32 (a : W32) : W32 × Ev :=
  match fvOf32 a with
  | .nan => nanResult
  | .inf n => if n then invResult else (inf32 false, {})
  | .fin n m e =>
    if m = 0 then (inf32 true, { dz := true })
    else if n then invResult
    else if a = 0x3F800000#32 then (0#32, {})
    else
      let v := lnFx m e
      roundSticky (decide (v < 0)) v.natAbs (-fxBits) false

/-- LOG2 (Table 7.4); a power of two gives its exact exponent. -/
def flog232 (a : W32) : W32 × Ev :=
  match fvOf32 a with
  | .nan => nanResult
  | .inf n => if n then invResult else (inf32 false, {})
  | .fin n m e =>
    if m = 0 then (inf32 true, { dz := true })
    else if n then invResult
    else if m = 2 ^ Nat.log2 m then round32Int false ((Nat.log2 m : Int) + e) 0
    else
      let v := lnFx m e
      roundSticky (decide (v < 0)) (v.natAbs * fxOne / ln2Fx) (-fxBits) false

/-- TANH (Table 7.4): (1 − e^(−2x)) / (1 + e^(−2x)). -/
def ftanh32 (a : W32) : W32 × Ev :=
  match fvOf32 a with
  | .nan => nanResult
  | .inf n => (if n then 0xBF800000#32 else 0x3F800000#32, {})
  | .fin n m e =>
    if m = 0 then (zero32 n, {})
    else if magGe m e 5 then (if n then 0xBF800000#32 else 0x3F800000#32, {})
    else
      let t := expNegFx (2 * toFx m e)
      roundSticky n ((fxOne - t) * fxOne / (fxOne + t)) (-fxBits) false

/-- SIGM (Table 7.4): 1 / (1 + e^(−x)). -/
def fsigm32 (a : W32) : W32 × Ev :=
  match fvOf32 a with
  | .nan => nanResult
  | .inf n => (if n then zero32 false else 0x3F800000#32, {})
  | .fin n m e =>
    if m = 0 then (0x3F000000#32, {})
    else if magGe m e 8 then (if n then zero32 false else 0x3F800000#32, {})
    else
      let t := expNegFx (toFx m e)
      roundSticky false ((if n then t else fxOne) * fxOne / (fxOne + t)) (-fxBits) false

/-- ∑ x (2x²)^k / (1·3·…·(2k+1)) for `n` terms after the term `t` of index `k`. -/
def erfSum (x2 : Nat) : Nat → Nat → Nat → Nat
  | 0, _, t => t
  | n + 1, k, t => t + erfSum x2 n (k + 1) (2 * t * x2 / fxOne / (2 * k + 3))

/-- ERF (Table 7.4): (2/√π) e^(−x²) ∑ x (2x²)^k / (1·3·…·(2k+1)). -/
def ferf32 (a : W32) : W32 × Ev :=
  match fvOf32 a with
  | .nan => nanResult
  | .inf n => (if n then 0xBF800000#32 else 0x3F800000#32, {})
  | .fin n m e =>
    if m = 0 then (zero32 n, {})
    else if magGe m e 3 then (if n then 0xBF800000#32 else 0x3F800000#32, {})
    else
      let x := toFx m e
      let x2 := x * x / fxOne
      let s := expNegFx x2 * erfSum x2 600 0 x / fxOne
      roundSticky n (2 * s * fxOne / isqrt (piFx * fxOne)) (-fxBits) false

/-- cos(π x) for a fixed-point 0 ≤ x ≤ 1, signed: the alternating series after halving at 1/2. -/
def cosSum (y2 : Nat) : Nat → Nat → Nat → Int
  | 0, _, _ => 0
  | n + 1, k, t => (t : Int) - cosSum y2 n (k + 1) (t * y2 / fxOne / ((2 * k + 1) * (2 * k + 2)))

/-- cos(π x) in fixed point for 0 ≤ x ≤ 1. -/
def cospiFx (x : Nat) : Int :=
  let y := piFx * (if 2 * x ≤ fxOne then x else fxOne - x) / fxOne
  let c := cosSum (y * y / fxOne) 100 0 fxOne
  if 2 * x ≤ fxOne then c else -c

/-- cos(π x), correctly rounded, of an FP32 value in 0 to 1 (R237, R300). -/
def fcospi32 (a : W32) : W32 × Ev :=
  match fvOf32 a with
  | .fin _ m e =>
    let x := toFx m e
    if 2 * x = fxOne then (0#32, {})
    else
      let c := cospiFx x
      roundSticky (decide (c < 0)) c.natAbs (-512) (x == 0)
  | _ => (nan32, {})

end Sys2Proof.Machine
end

