-- ==== Sys2Proof/Machine/Formats.lean ====
section
/-! DEFINITION. Tensor formats, the numeric word, conversions and scale selection (R45 to R74). -/

namespace Sys2Proof.Machine

/-- The formats of Table 2.1; the integer formats carry their signedness (R52). -/
inductive Fmt where
  | fp32 | bf16 | e4m3 | e5m2 | e3m2 | e2m3 | e2m1 | mxint8
  | int8 (sgn : Bool) | int4 (sgn : Bool)
  deriving DecidableEq, Repr

/-- The format of a code (Table 2.1). -/
def Fmt.ofCode (c : Nat) (sgn : Bool) : Option Fmt :=
  match c with
  | 0x00 => some .fp32 | 0x01 => some .bf16
  | 0x08 => some .e4m3 | 0x09 => some .e5m2 | 0x0A => some .e3m2 | 0x0B => some .e2m3
  | 0x0C => some .e2m1 | 0x0D => some .mxint8
  | 0x10 => some (.int8 sgn) | 0x11 => some (.int4 sgn)
  | _ => none

/-- Element width in bits (Table 2.1). -/
def Fmt.width : Fmt → Nat
  | .fp32 => 32 | .bf16 => 16 | .e4m3 => 8 | .e5m2 => 8 | .e3m2 => 6 | .e2m3 => 6 | .e2m1 => 4
  | .mxint8 => 8 | .int8 _ => 8 | .int4 _ => 4

/-- The narrow formats carry a scale plane. -/
def Fmt.narrow : Fmt → Bool
  | .fp32 => false | .bf16 => false | _ => true

/-- emax of Table 2.2. -/
def Fmt.emax : Fmt → Int
  | .e4m3 => 8 | .e5m2 => 15 | .e3m2 => 4 | .e2m3 => 2 | .e2m1 => 2 | .mxint8 => 0
  | .int8 s => if s then 6 else 7
  | .int4 s => if s then 2 else 3
  | .fp32 => 127 | .bf16 => 127

/-- Precision and exponent of the smallest step of the destination grid (R59, Table 2.2); the
integer formats have one step throughout. -/
def Fmt.grid : Fmt → Nat × Int
  | .fp32 => (24, -149) | .bf16 => (8, -133) | .e4m3 => (4, -9) | .e5m2 => (3, -16)
  | .e3m2 => (3, -4) | .e2m3 => (4, -3) | .e2m1 => (2, -1)
  | .mxint8 => (512, -6) | .int8 _ => (512, 0) | .int4 _ => (512, 0)

/-- The code of the largest finite magnitude (Table 2.2). -/
def Fmt.maxCode : Fmt → Nat
  | .fp32 => 0x7F7FFFFF | .bf16 => 0x7F7F | .e4m3 => 0x7E | .e5m2 => 0x7B | .e3m2 => 0x1F
  | .e2m3 => 0x1F | .e2m1 => 0x7 | .mxint8 => 127
  | .int8 s => if s then 127 else 255
  | .int4 s => if s then 7 else 15

/-- Two's complement and unsigned integer elements. -/
def Fmt.isInt : Fmt → Bool
  | .mxint8 => true | .int8 _ => true | .int4 _ => true | _ => false

/-- An integer format without a sign. -/
def Fmt.unsigned : Fmt → Bool
  | .int8 s => !s | .int4 s => !s | _ => false

/-- The code of a NaN, where the format has one (R48, Table 2.2). -/
def Fmt.nanCode : Fmt → Option Nat
  | .fp32 => some 0x7FC00000 | .bf16 => some 0x7FC0 | .e4m3 => some 0x7F | .e5m2 => some 0x7E
  | _ => none

/-- The code of +∞, where the format has one. -/
def Fmt.infCode : Fmt → Option Nat
  | .fp32 => some 0x7F800000 | .bf16 => some 0x7F80 | .e5m2 => some 0x7C | _ => none

/-- The value of a BF16 encoding, widened exactly. -/
def fvOf16 (c : Nat) : Fv := fvOf32 (BitVec.ofNat 32 (c % 2 ^ 16 * 2 ^ 16))

/-- The value of an element code without its scale (Table 2.2, R50, R51). -/
def Fmt.value (f : Fmt) (c : Nat) : Fv :=
  match f with
  | .fp32 => fvOf32 (BitVec.ofNat 32 c)
  | .bf16 => fvOf16 c
  | .e4m3 => if c % 128 = 127 then .nan else finOf 3 7 (c / 128 % 2 == 1) (c / 8 % 16) (c % 8)
  | .e5m2 =>
    if c / 4 % 32 = 31 then (if c % 4 = 0 then .inf (c / 128 % 2 == 1) else .nan)
    else finOf 2 15 (c / 128 % 2 == 1) (c / 4 % 32) (c % 4)
  | .e3m2 => finOf 2 3 (c / 32 % 2 == 1) (c / 4 % 8) (c % 4)
  | .e2m3 => finOf 3 1 (c / 32 % 2 == 1) (c / 8 % 4) (c % 8)
  | .e2m1 => finOf 1 1 (c / 8 % 2 == 1) (c / 2 % 4) (c % 2)
  | .mxint8 => let k := toSigned 8 c; .fin (decide (k < 0)) k.natAbs (-6)
  | .int8 s => let k : Int := if s then toSigned 8 c else (c % 256 : Nat); .fin (decide (k < 0)) k.natAbs 0
  | .int4 s => let k : Int := if s then toSigned 4 c else (c % 16 : Nat); .fin (decide (k < 0)) k.natAbs 0

/-- The value of an element with its scale byte (R53); FP32 and BF16 have none. -/
def Fmt.scaled (f : Fmt) (c scale : Nat) : Fv :=
  if f.narrow then
    if scale = 0xFF then .nan
    else match f.value c with
      | .fin n m e => .fin n m (e + scale - 127)
      | v => v
  else f.value c

/-- The conversion events of Table 2.8 with the number of clipped or clamped elements (Table 2.9). -/
structure CvtEv where
  ovf : Bool := false
  inv : Bool := false
  clip : Bool := false
  usat : Bool := false
  count : Nat := 0
  deriving DecidableEq, Repr

/-- Both sets of events. -/
def CvtEv.join (a b : CvtEv) : CvtEv :=
  ⟨a.ovf || b.ovf, a.inv || b.inv, a.clip || b.clip, a.usat || b.usat, a.count + b.count⟩

/-- Expansion of an element to FP32 (R58); FP32 and BF16 widen with the canonical NaN (R48). -/
def expandElem (f : Fmt) (c scale : Nat) : W32 × CvtEv :=
  match f.scaled c scale with
  | .nan => (nan32, { inv := f.narrow })
  | .inf n => (inf32 n, { ovf := f.narrow })
  | .fin n m e =>
    if m = 0 then (zero32 n, {})
    else let (w, ev) := round32 n m e; (w, { ovf := ev.ovf })

/-- A numeric word (Table 2.3). -/
structure NumWord where
  sraddr : Nat
  srseed : Nat
  fixscl : Nat
  sgn : Bool
  bax : Bool
  ssrc : Bool
  sat : Bool
  rm : Nat
  fmt : Nat
  resv : Bool
  deriving DecidableEq, Repr

/-- The fields of a numeric word (Table 2.3). -/
def NumWord.ofWord (w : W64) : NumWord :=
  { sraddr := fld w 32 22, srseed := fld w 24 8, fixscl := fld w 16 8, sgn := bit w 10, bax := bit w 9,
    ssrc := bit w 8, sat := bit w 7, rm := fld w 5 2, fmt := fld w 0 5,
    resv := fld w 54 10 != 0 || fld w 11 5 != 0 }

/-- The format a numeric word names. -/
def NumWord.format (w : NumWord) : Option Fmt := Fmt.ofCode w.fmt w.sgn

/-- The FMT checks of R45, Table 2.4 and R57. `dest` says the word names a destination, `checkSr` that
SRADDR is checked too (not in a WNUM of a segment entry). RM = 0b11 is refused whatever the word names, a source
included (the model's choice, log entry 16: R56 says that a source uses FMT, SGN and BAX alone, Table 2.4 only that the
code is refused). -/
def NumWord.ok (w : NumWord) (dest checkSr : Bool) : Bool :=
  match w.format with
  | none => false
  | some f =>
    let isI := w.fmt == 0x10 || w.fmt == 0x11
    !w.resv && w.rm != 3 && (!w.sgn || isI) &&
      !(dest && f.narrow && w.ssrc && (w.fixscl == 0xFF || (checkSr && w.sraddr % 128 != 0)))

/-- The rounding of element `i` under RM and the stochastic-rounding seed (Table 2.4, R60). -/
def NumWord.rmAt (w : NumWord) (seed : W64) (i : Nat) : Rm :=
  match w.rm with
  | 0 => .rne
  | 1 => .rtz
  | _ => .sr (srBits seed i)

/-- The sign bit of a code. -/
def Fmt.signed (f : Fmt) (neg : Bool) (c : Nat) : Nat :=
  if !neg then c
  else if f.isInt then (2 ^ f.width - c) % 2 ^ f.width
  else c + 2 ^ (f.width - 1)

/-- A finite source magnitude m × 2^e converted with rounding, saturation and sign (R59, R61, R62, R65). -/
def cvtFin (f : Fmt) (rm : Rm) (sat neg : Bool) (m : Nat) (e : Int) : Nat × CvtEv :=
  let c := roundCode f.grid.1 f.grid.2 rm m e
  if f.unsigned && neg then (0, if c = 0 then {} else { usat := true, count := 1 })
  else if f.maxCode < c then
    match sat, f.infCode, f.nanCode with
    | false, some i, _ => (f.signed neg i, { ovf := true })
    | false, none, some n => (n, { ovf := true })
    | _, _, _ => (f.signed neg f.maxCode, { clip := true, count := 1 })
  else (f.signed neg c, {})

/-- One element converted with the scale exponent `x` (0 for FP32 and BF16), for a source that does not
make its whole block NaN (R59 to R65). FP32 to FP32 only makes a NaN canonical (R48). -/
def cvtElem (f : Fmt) (rm : Rm) (sat : Bool) (x : Int) (src : W32) : Nat × CvtEv :=
  if f = .fp32 then ((canon32 src).toNat, {})
  else match fvOf32 src with
    | .nan => ((f.nanCode).getD 0, { inv := true })
    | .inf n =>
      (match f.infCode, f.nanCode with
        | some i, _ => f.signed n i
        | none, some c => c
        | none, none => 0, { ovf := true })
    | .fin n m e => cvtFin f rm sat n m (e - x)

/-- ⌊log₂⌋ of a finite non-zero FP32 magnitude. -/
def floorLog2 (a : W32) : Int :=
  match fvOf32 a with
  | .fin _ m e => (Nat.log2 m : Int) + e
  | _ => 0

/-- The largest finite magnitude among source values, +0 if there is none (R66). -/
def amaxOf (vs : List W32) : W32 :=
  vs.foldl (fun a v =>
    let v' := v &&& 0x7FFFFFFF#32
    if (fvOf32 v).isFin && decide (a.toNat < v'.toNat) then v' else a) 0#32

/-- A scale exponent as its clamped E8M0 byte (R67, R69). -/
def scaleByte (x : Int) : Nat := (max (-127) (min 127 x) + 127).toNat

/-- The block scale of R67. -/
def blockScale (f : Fmt) (vs : List W32) : Nat :=
  let a := amaxOf vs
  if a = 0#32 then 0 else scaleByte (floorLog2 a - f.emax)

/-- The estimated scale of R69, EST already admitted by R72. -/
def estScale (f : Fmt) (est : W32) (h fixscl : Nat) : Nat :=
  if est &&& 0x7FFFFFFF#32 = 0#32 then fixscl else scaleByte (floorLog2 est + h - f.emax)

/-- A converted block: its scale byte, its codes and the events. -/
structure BlockOut where
  scale : Nat
  codes : List Nat
  ev : CvtEv
  deriving DecidableEq, Repr

/-- Convert one block with its scale byte; each source comes with its rounding. In the formats without
infinity and NaN a non-finite source makes the whole block NaN (R63, R64). -/
def cvtBlock (f : Fmt) (sat : Bool) (scale : Nat) (vs : List (Rm × W32)) : BlockOut :=
  let anyInf := vs.any fun v => (fvOf32 v.2).isInf
  let anyNan := vs.any fun v => isNan32 v.2
  if f.nanCode.isNone && (anyInf || anyNan) then
    ⟨0xFF, vs.map fun _ => 0, { ovf := anyInf, inv := anyNan }⟩
  else
    let rs := vs.map fun v => cvtElem f v.1 sat (scale - 127) v.2
    ⟨scale, rs.map Prod.fst, rs.foldl (fun e r => e.join r.2) {}⟩

/-- A scale record (Table 2.6). -/
structure ScaleRec where
  hist : List W32
  cur : W32
  est : W32
  step : Nat
  cls : Nat
  clipped : Bool
  tail : List Byte
  deriving DecidableEq, Repr

/-- A scale record read from its 128 bytes; bytes 78 to 127 outside CLASS and CLIPPED are kept. -/
def ScaleRec.ofBytes (bs : List Byte) : ScaleRec :=
  { hist := (List.range 16).map fun i => BitVec.ofNat 32 (natAt bs (4 * i) 4)
    cur := BitVec.ofNat 32 (natAt bs 64 4), est := BitVec.ofNat 32 (natAt bs 68 4)
    step := natAt bs 72 6, cls := natAt bs 78 1 % 16, clipped := natAt bs 79 1 % 2 == 1
    tail := sliceB bs 78 50 }

/-- The 128 bytes of a scale record. -/
def ScaleRec.toBytes (r : ScaleRec) : List Byte :=
  r.hist.flatMap (fun h => leBytes 4 h.toNat) ++ leBytes 4 r.cur.toNat ++ leBytes 4 r.est.toNat ++
    leBytes 6 r.step ++ r.tail.take 1 ++
    [BitVec.ofNat 8 ((r.tail.getD 1 0).toNat / 2 * 2 + b2n r.clipped)] ++ r.tail.drop 2

/-- max of R70: a NaN when any operand is one. -/
def maxOfList (vs : List W32) : W32 := vs.foldl (fun a v => (fmax32 a v).1) 0xFF800000#32

/-- 2 × EST with the largest finite value in place of infinity (sat_fp32 of R70). Minus infinity, which only a negative
EST written by software gives, becomes the negative value of largest magnitude (the model's choice, log entry 16). -/
def satDouble (v : W32) : W32 :=
  let d := (fmul32 v 0x40000000#32).1
  if (fvOf32 d).isInf then (if bit d 31 then 0xFF7FFFFF#32 else 0x7F7FFFFF#32) else d

/-- start_use of R70 with the refusals of R72: `none` where the use is refused with SCALE. -/
def ScaleRec.startUse (r : ScaleRec) (s : Nat) : Option ScaleRec :=
  let r' :=
    if r.step < s then
      let c := if r.clipped then (fmax32 r.cur (satDouble r.est)).1 else r.cur
      let h := r.hist.set (r.step % 16) c
      let n := min (s - 1) (r.step + 16) - r.step
      let h := (List.range n).foldl (fun l k => l.set ((r.step + 1 + k) % 16) 0#32) h
      { r with hist := h, est := maxOfList h, cur := 0#32, clipped := false, step := s }
    else r
  let bad := match fvOf32 r'.est with
    | .fin n m _ => n && m != 0
    | _ => true
  if s < r.step || bad then none else some r'

/-- The end of a use (R70): CUR := max(CUR, observed amax), CLIPPED set if an element clipped. -/
def ScaleRec.endUse (r : ScaleRec) (amax : W32) (clipped : Bool) : ScaleRec :=
  { r with cur := (fmax32 r.cur amax).1, clipped := r.clipped || clipped }

end Sys2Proof.Machine
end

