-- ==== Sys2Proof/Machine/Dot.lean ====
section
/-! DEFINITION. The dot product, bit for bit (R79 to R100). -/

namespace Sys2Proof.Machine

/-- Where an event of an accumulation arose (R100). -/
inductive Stage where
  | group | tree | acc
  deriving DecidableEq, Repr

/-- One operation of an accumulation with the events it produced: the log of R100, in its order. -/
structure DotEv where
  stage : Stage
  idx : Nat
  ev : Ev
  deriving DecidableEq, Repr

/-- The exact sum of finite products at the lowest exponent (R84). -/
def exactSum (ps : List (Bool × Nat × Int)) : Int × Int :=
  let e := ps.foldl (fun a p => min a p.2.2) (ps.headD (false, 0, 0)).2.2
  (ps.foldl (fun a p => a + sgnInt p.1 (p.2.1 * 2 ^ (p.2.2 - e).toNat)) 0, e)

/-- The group value and its events (R85 to R87, Table 3.3). -/
def groupValue (as bs : List Fv) : W32 × Ev :=
  let ps := List.zipWith mulExact as bs
  let nanOp := as.any Fv.isNan || bs.any Fv.isNan
  let infs := ps.filterMap fun p => match p with
    | some (.inf n) => some n
    | _ => none
  let zeroInf := ps.any Option.isNone
  if zeroInf || (infs.contains true && infs.contains false) then (nan32, { inv := true, nan := nanOp })
  else if nanOp then (nan32, { nan := true })
  else match infs with
    | n :: _ => (inf32 n, { inf := true })
    | [] =>
      let fs := ps.filterMap fun p => match p with
        | some (.fin n m e) => some (n, m, e)
        | _ => none
      let (v, e) := exactSum fs
      round32Int (fs.all fun p => p.1 && p.2.1 == 0) v e

/-- One level of the pairwise tree: partners are added, a lone node passes up unchanged (R88). -/
def treeLevel : List W32 → List W32 × List Ev
  | a :: b :: t =>
    let (w, e) := fadd32 a b
    let (l, es) := treeLevel t
    (w :: l, e :: es)
  | l => (l, [])

/-- tree8 of R88, with the events level by level. -/
def tree8 (xs : List W32) : W32 × List Ev :=
  let (l1, e1) := treeLevel xs
  let (l2, e2) := treeLevel l1
  let (l3, e3) := treeLevel l2
  (l3.headD 0#32, e1 ++ e2 ++ e3)

/-- The segments from the s-th on, given the group values with their events (R88, R90): `acc` is none
while a CLEAR operation has not written its first segment. -/
def accSegments : Nat → Nat → Option W32 → List (W32 × Ev) → W32 × List DotEv
  | 0, _, acc, _ => (acc.getD 0#32, [])
  | fuel + 1, s, acc, vs =>
    if vs.isEmpty then (acc.getD 0#32, [])
    else
      let seg := vs.take 8
      let (t, tev) := tree8 (seg.map Prod.fst)
      let log := (seg.zipIdx.map fun g => DotEv.mk .group (8 * s + g.2) g.1.2) ++
        tev.map (DotEv.mk .tree s)
      let (a, aev) := match acc with
        | none => (t, [])
        | some a => let (w, e) := fadd32 a t; (w, [DotEv.mk .acc s e])
      let (r, rest) := accSegments fuel (s + 1) (some a) (vs.drop 8)
      (r, log ++ aev ++ rest)

/-- Cut a list into groups of `n`. -/
def groupsOf {α : Type} (n : Nat) : Nat → List α → List (List α)
  | 0, _ => []
  | fuel + 1, l => if l.isEmpty then [] else l.take n :: groupsOf n fuel (l.drop n)

/-- One output element: its row of A and column of B along K, and the accumulator's previous value in
ACCUMULATE mode (R84 to R90). -/
def dotElement (prev : Option W32) (a b : List Fv) : W32 × List DotEv :=
  let gs := List.zipWith groupValue (groupsOf 32 a.length a) (groupsOf 32 b.length b)
  accSegments gs.length 0 prev gs

/-- The joined events of a log (R95). -/
def dotEvents (log : List DotEv) : Ev := log.foldl (fun e d => e.join d.ev) {}
/-- The number of INV events of a log (R97). -/
def dotInvCount (log : List DotEv) : Nat := (log.filter fun d => d.ev.inv).length
/-- The first INV or OVF event of a log, for the record of R100. -/
def dotFirst (inv : Bool) (log : List DotEv) : Option DotEv :=
  log.find? fun d => if inv then d.ev.inv else d.ev.ovf

/-- May these formats be paired (Table 3.1). -/
def pairingOk (a b : Fmt) : Bool :=
  (a == .bf16 && b == .bf16) || (a.narrow && b.narrow)

/-- cc per group of 32 K indices (Table 3.1). -/
def ccPerGroup (a b : Fmt) : Nat :=
  if a == .bf16 then 32 else if a.width == 8 || b.width == 8 then 16 else 8

end Sys2Proof.Machine
end

