-- ==== Sys2Proof/Config.lean ====
section
/-! DEFINITION. What the spec leaves to a part, to the outside or to mathematics that this model does
not compute: uninterpreted constants. Nothing in the model can see a value of them. -/

namespace Sys2Proof

/-- A value the spec calls undefined or does not state, fresh for each index of State.freeCtr. -/
opaque Config.freeWord : Nat → W64

/-- SHA-384 of a byte string (R508, R517). -/
opaque Config.sha384 : List Byte → List Byte

/-- SHA-384 of a signing key slot's two public keys, as fused (R508). -/
opaque Config.slotHash : Nat → List Byte

/-- Does an RSASSA-PSS signature verify (R508): modulus, message, signature. -/
opaque Config.rsaVerify : List Byte → List Byte → List Byte → Bool

/-- Does an SLH-DSA-SHA2-192s signature verify (R508): public key, message, signature. -/
opaque Config.slhVerify : List Byte → List Byte → List Byte → Bool

/-- The device identity hash (R512, R526). -/
opaque Config.identityHash : List Byte

/-- Has Headland issued this nonce for a debug unlock (R526). -/
opaque Config.nonceIssued : List Byte → Bool

/-- SHA-384 of the boot ROM (Table 16.4). -/
opaque Config.romHash : List Byte

/-- The fingerprint of this chip's link identity pair (R516). -/
opaque Config.linkFingerprint : List Byte

/-- The certificate chain of slot 0 (Attestation): HHASH and SVN decide its alias certificate. -/
opaque Config.certChain : List Byte → Nat → List Byte

/-- Signatures of the alias pair (Table 16.3): HHASH, SVN, message. -/
opaque Config.aliasRsa : List Byte → Nat → List Byte → List Byte

/-- As aliasRsa, of SLH-DSA (R518). -/
opaque Config.aliasSlh : List Byte → Nat → List Byte → List Byte

/-- Parts of SPDM messages that the device chooses (nonces, key shares, capability bits), by request code and an
index: what the SPDM standard and the part decide. -/
opaque Config.spdmBody : Nat → Nat → List Byte

/-- FUSE_ROWMAPi as fused (R529, Table 1.2). -/
opaque Config.fuseRowmap : Nat → W32

/-- SPD_COLREPi of a core as fused (R124, R529). -/
opaque Config.spdColrep : Nat → Nat → W32

/-- Bytes under AES-256-GCM in counter mode (R368): key, IV, position of the first byte in the frame, bytes. -/
opaque Config.gcmSeal : List Byte → Nat → Nat → List Byte → List Byte

/-- The bytes recovered from encrypted ones (R368). -/
opaque Config.gcmOpen : List Byte → Nat → Nat → List Byte → List Byte

/-- The 16-byte tag of AES-256-GCM (R368): key, IV, additional data, encrypted bytes. -/
opaque Config.gcmTag : List Byte → Nat → List Byte → List Byte → List Byte

/-- Link key agreement (R367): the ephemeral P-384 public key of a secret, and the ECDH secret with a neighbour's. -/
opaque Config.ecdhPublic : W64 → List Byte
/-- The ECDH secret of a secret and a neighbour's public key (R367). -/
opaque Config.ecdhSecret : W64 → List Byte → List Byte
/-- The ML-KEM-1024 encapsulation key of a secret (R367). -/
opaque Config.kemPublic : W64 → List Byte
/-- The ML-KEM-1024 ciphertext of a secret under an encapsulation key (R367). -/
opaque Config.kemCipher : W64 → List Byte → List Byte
/-- The ML-KEM secret of the end that encapsulates: its secret and the encapsulation key (R367). -/
opaque Config.kemEncaps : W64 → List Byte → List Byte
/-- The ML-KEM secret of the end that decapsulates: its secret and the ciphertext (R367). -/
opaque Config.kemDecaps : W64 → List Byte → List Byte
/-- HKDF-SHA-384 (R367): salt and secret. -/
opaque Config.hkdf384 : List Byte → List Byte → List Byte
/-- The signature of this chip's static link identity key over a transcript hash (R367, R515). -/
opaque Config.linkSign : List Byte → List Byte
/-- Does a link identity signature verify: the neighbour's public identity keys, hash, signature (R367). -/
opaque Config.linkVerify : List Byte → List Byte → List Byte → Bool

/-- A unit's 64 B under AES-256-XTS (R444): data key, tweak key, tweak, plaintext. -/
opaque Config.xtsEncrypt : List Byte → List Byte → List Byte → List Byte → List Byte
end Sys2Proof
end

