-- ==== Sys2Proof/Machine/Regs.lean ====
section
/-! DEFINITION. The registers and windows of control and status space: one name per register of
Table 19.9, with its block, offset, width, fields, access types (Table 19.3) and reset value, each
from the field map the table names. A window is a series of words under one name (R590), and a
register wider than 64 bits a series of 64-bit words (R582). -/

namespace Sys2Proof.Machine

/-- Access types (Table 19.3). `cnt` is an RW counter. -/
inductive Acc where
  | ro | rw | wo | w1c | rwl | cnt
  deriving DecidableEq, Repr

/-- Blocks of control and status space (Table 19.1); HBM, SLT and MEM_SCRUB are the parts of the
memory block. -/
inductive Blk where
  | core | fuse | csr | cxl | rte | lnk | bore | gate | ebb | flt | cc | clk | hbm | slt | scrub | sec | trace
  deriving DecidableEq, Repr

/-- A field of a register: its bits and access type. -/
structure Field where
  hi : Nat
  lo : Nat
  acc : Acc
  deriving DecidableEq, Repr

/-- Where a register stands: block, offset within it, width in bits, number in its series and the
bytes from one to the next (Table 19.9). -/
structure RegInfo where
  blk : Blk
  off : Nat
  width : Nat
  count : Nat
  step : Nat
  deriving DecidableEq, Repr

/-- The registers and windows of Table 19.9. -/
inductive Reg where
  /-- CORE_IM0 window, 32 KiB in 8 B words (R590) -/
  | coreIm0
  /-- CORE_IM1 window (R590) -/
  | coreIm1
  /-- CORE_DESC window: 256 descriptor slots of 64 B (Table 6.3) -/
  | coreDesc
  /-- CORE_PARAM0 to CORE_PARAM255 -/
  | coreParam
  /-- SKP_PREG window: Pp of lane l at 32l + 4p (Table 7.11) -/
  | skpPreg
  /-- MARK0 to MARK63: THR, COUNT (Table 5.16) -/
  | mark
  /-- CORE_CTR0 to CORE_CTR15 (Table 5.18) -/
  | coreCtr
  /-- CORE_CMP0 to CORE_CMP7: LIMIT, REL, CTR (Table 5.19) -/
  | coreCmp
  /-- SPD_CONFL0 to SPD_CONFL10 (Table 4.12) -/
  | spdConfl
  /-- SPD_COLREP0 to SPD_COLREP31, from fuses (Table 4.14) -/
  | spdColrep
  /-- CNT_SEL0 to CNT_SEL7: SAT, EVENT (Table 18.13) -/
  | cntSel
  /-- CNT_VAL0 to CNT_VAL7: WRAP, COUNT (Table 18.13) -/
  | cntVal
  /-- CORE_IMCTL: SWITCH (Table 5.8) -/
  | coreImctl
  /-- CORE_IMSTAT: GEN, REFCNT, CHK, PEND, REFUSED, ACTIVE (Table 5.9) -/
  | coreImstat
  /-- CORE_CTL: RESUME, STOP (Table 5.10) -/
  | coreCtl
  /-- CORE_STAT: RPLIDX, INFLT, HAZ, WAITTO, MOVF, ERR, STATE (Table 5.11) -/
  | coreStat
  /-- CORE_HALT: TAG, OPCODE, ECLS, STATUS (Table 5.12) -/
  | coreHalt
  /-- CORE_DBG: HZW (Table 5.13) -/
  | coreDbg
  /-- CORE_WAITWD: LIMIT (Table 5.14) -/
  | coreWaitwd
  /-- CORE_STEP: STEP (Table 5.15) -/
  | coreStep
  /-- CORE_MSIG: MARK (Table 5.17) -/
  | coreMsig
  /-- TRC_CTL: KMASK, FRZ, EN (Table 5.20) -/
  | trcCtl
  /-- TRC_STAT: OVWR, WPTR (Table 5.21) -/
  | trcStat
  /-- MAT_NSTAT: one nibble per tile (Table 3.4) -/
  | matNstat
  /-- MAT_NCTL: OVFREC, INVREC (Table 3.5) -/
  | matNctl
  /-- MAT_INVCNT (Table 3.6) -/
  | matInvcnt
  /-- MAT_NSSTAT: HIGHB, HIGHA (Table 6.13) -/
  | matNsstat
  /-- MAT_WAKECNT: WINGB, WINGA (Table 4.17) -/
  | matWakecnt
  /-- CVT_STAT: USAT, CLIP, INV, OVF (Table 2.8) -/
  | cvtStat
  /-- CVT_CLIPCNT (Table 2.9) -/
  | cvtClipcnt
  /-- CVT_HEADROOM: two bits per class (Table 2.10) -/
  | cvtHeadroom
  /-- SPD_BANKPWR: requested state per bank (Table 4.9) -/
  | spdBankpwr
  /-- SPD_BANKST: state per bank (Table 4.10) -/
  | spdBankst
  /-- SPD_PORTMAP (Table 4.11) -/
  | spdPortmap
  /-- SPD_STAT: CHK, BANK, ALIGN, LOST (Table 4.13) -/
  | spdStat
  /-- DMA_CTL0, DMA_CTL1: HALT, BURST (Table 4.15) -/
  | dmaCtl
  /-- DMA_STAT0, DMA_STAT1: INFLT, BUSY, FMT, CHK, SCALE, SHAPE, ADDR (Table 4.16) -/
  | dmaStat
  /-- SKP_STAT: ROVF, RINV, RNAN, DZ, OVF, INV, NAN (Table 7.7) -/
  | skpStat
  /-- SKP_CMPCNT (Table 7.9) -/
  | skpCmpcnt
  /-- SKP_LEN: ARG, LEN (Table 7.8) -/
  | skpLen
  /-- SKP_KVAL (Table 7.10) -/
  | skpKval
  /-- TRC_MEM window: 4,096 events of 16 B (Table 5.7) -/
  | trcMem
  /-- FUSE_ROWMAP0 to 15: DEFECTS, SPARECOL (Table 1.2) -/
  | fuseRowmap
  /-- CSR_ID: LAYOUT, ORDER, STEPL, STEPD (Table 19.5) -/
  | csrId
  /-- CSR_LOCK: BANK, BOOT (Table 19.6) -/
  | csrLock
  /-- CSR_REFCNT (Table 19.7) -/
  | csrRefcnt
  /-- CSR_REFADDR: V, AGENT, CAUSE, OFFSET (Table 19.8) -/
  | csrRefaddr
  /-- CXL_RINGBASE (Table 14.8) -/
  | cxlRingbase
  /-- CXL_CQBASE -/
  | cxlCqbase
  /-- CXL_STEPREC -/
  | cxlSteprec
  /-- CXL_DB -/
  | cxlDb
  /-- CXL_RINGCTL: EN, RING -/
  | cxlRingctl
  /-- CXL_CQCTL: EN, CQ -/
  | cxlCqctl
  /-- CXL_RCFG: PHTO -/
  | cxlRcfg
  /-- CXL_IDEPOL: REQ -/
  | cxlIdepol
  /-- CXL_LINKSTAT: IDE, FLIT, RATE, WIDTH -/
  | cxlLinkstat
  /-- CXL_STAT: LINKDN, IDEREQ, POISON, HDMREF, CQOFF, CTLERR, PHTO, DBSZ, DBERR -/
  | cxlStat
  /-- CXL_CQLOST -/
  | cxlCqlost
  /-- CXL_DBSTR -/
  | cxlDbstr
  /-- CXL_CQSTAT window: STATE, HEAD, TAIL -/
  | cxlCqstat
  /-- CXL_RINGSTAT window: STATE, TAIL, HEAD -/
  | cxlRingstat
  /-- RTE_COORD (Table 10.15) -/
  | rteCoord
  /-- RTE_RING: ring lengths X to W -/
  | rteRing
  /-- RTE_DATELINE -/
  | rteDateline
  /-- RTE_DOMAIN -/
  | rteDomain
  /-- RTE_GEN: CUR -/
  | rteGen
  /-- RTE_TRANSIT: four tags -/
  | rteTransit
  /-- RTE_CTL: ADVANCE -/
  | rteCtl
  /-- RTE_FENCE: DONE, REQ -/
  | rteFence
  /-- RTE_STAT: GENBUSY -/
  | rteStat
  /-- RTE_XSTAT: OPEN -/
  | rteXstat
  /-- RTE_XCFG: XTO, BUSYWAIT -/
  | rteXcfg
  /-- RTE_EARLYLAST -/
  | rteEarlylast
  /-- RTE_BUSYCNT -/
  | rteBusycnt
  /-- RTE_XTOCNT -/
  | rteXtocnt
  /-- RTE_DOMERR -/
  | rteDomerr
  /-- RTE_BOARD window -/
  | rteBoard
  /-- RTE_TABLE window -/
  | rteTable
  /-- LNK_CFG: RTHR, LSW, ENC, EN (Table 10.13) -/
  | lnkCfg
  /-- LNK_STAT: NSTR, AUTHF4, KEYERR, IDERR, VERR, STATE -/
  | lnkStat
  /-- LNK_EXPECT: V, PORT, COORD, FPIDX -/
  | lnkExpect
  /-- LNK_NBR: STR, VMAX, VMIN, PORT, COORD -/
  | lnkNbr
  /-- LNK_VER: NEG, MAX, MIN -/
  | lnkVer
  /-- LNK_FECSYM (Table 10.14) -/
  | lnkFecsym
  /-- LNK_UNCOR (Table 10.14) -/
  | lnkUncor
  /-- LNK_CRCF (Table 10.14) -/
  | lnkCrcf
  /-- LNK_REPLAY (Table 10.14) -/
  | lnkReplay
  /-- LNK_DROP (Table 10.14) -/
  | lnkDrop
  /-- LNK_AUTHF (Table 10.14) -/
  | lnkAuthf
  /-- BORE_AXCFG: EN, LEN, START (Table 11.10) -/
  | boreAxcfg
  /-- BORE_STAT: OPEN, NSERR, CFGREF, LINK, WDOG, MISM, OVF, INV, NAN (Table 11.11) -/
  | boreStat
  /-- BORE_WDOG: LIMIT -/
  | boreWdog
  /-- BORE_NSADDR: EN, ADDR -/
  | boreNsaddr
  /-- GATE_CFG: EN (Table 11.14) -/
  | gateCfg
  /-- GATE_STAT: NCORE, EBB1, EBB0, CFGERR, STEPERR, WDOG, PHASE, STATE -/
  | gateStat
  /-- GATE_WORD -/
  | gateWord
  /-- GATE_STEP -/
  | gateStep
  /-- GATE_CONTRIB -/
  | gateContrib
  /-- GATE_WDOG: LIMIT -/
  | gateWdog
  /-- EBB_CTL: CLRFLT (Table 9.10) -/
  | ebbCtl
  /-- EBB_STAT: STATE, SNAPERR, PCHK, MIRTO, MIRREF, WREF, CFGERR, STGOVF, WCLIP, WINV, WOVF, RDZ, ROVF, RINV, RNAN, GINF, GNAN (Table 9.11) -/
  | ebbStat
  /-- EBB_STGBASE (Table 9.12) -/
  | ebbStgbase
  /-- EBB_STGLEN -/
  | ebbStglen
  /-- EBB_STGCNT -/
  | ebbStgcnt
  /-- EBB_SEGCNT -/
  | ebbSegcnt
  /-- EBB_RULECHK -/
  | ebbRulechk
  /-- EBB_RULEVAL -/
  | ebbRuleval
  /-- EBB_DONE: MARK -/
  | ebbDone
  /-- EBB_DONECORE0 to 3 -/
  | ebbDonecore
  /-- EBB_MIRSTAT: ACKV, PEND, ACKSLOT, ACKSTEP -/
  | ebbMirstat
  /-- EBB_MIRWD: LIMIT -/
  | ebbMirwd
  /-- EBB_HEADROOM (Table 2.10) -/
  | ebbHeadroom
  /-- EBB_SNAPSTAT: VALID, BUSY, CUR, STEP -/
  | ebbSnapstat
  /-- EBB_RESTORE: WSTEP, ERR, DONE, ARM, SLOT, BUILD, SEND (Table 18.12) -/
  | ebbRestore
  /-- EBB_EXPSTAT: HALF, PORT, ERR, DONE, BUSY, STEP (Table 9.30) -/
  | ebbExpstat
  /-- EBB_EXPCTL: XTAG, PORT, ABORT, START (Table 9.29) -/
  | ebbExpctl
  /-- EBB_MIRCFG: TXBASE; TXLEN; RXBASE; BUDDY, EN, RXSLOT (Table 9.20) -/
  | ebbMircfg
  /-- EBB_SNAPCFG: BASE0; BASE1; SMASK, REQ, HSIZE (Table 9.23) -/
  | ebbSnapcfg
  /-- EBB_STEP (Table 9.28) -/
  | ebbStep
  /-- TIDE_LSCFG: EMAX, EMIN, RUN (Table 8.12) -/
  | tideLscfg
  /-- TIDE_LSEVT: SKIPS, CFGERR, CEIL, FLOOR (Table 8.15) -/
  | tideLsevt
  /-- TIDE_LSCALE: SNEXT, EUSED, ENEXT (Table 8.13) -/
  | tideLscale
  /-- TIDE_LSSTAT: STEP, RUNCNT (Table 8.14) -/
  | tideLsstat
  /-- TIDE_CFG: RESTART, SHAPE (Table 9.25) -/
  | tideCfg
  /-- TIDE_WARM -/
  | tideWarm
  /-- TIDE_LEN -/
  | tideLen
  /-- TIDE_LR: LRMAX, LRMIN (Table 9.26) -/
  | tideLr
  /-- TIDE_BETA: B1, B2 -/
  | tideBeta
  /-- TIDE_BCP: P1, P2 -/
  | tideBcp
  /-- TIDE_POS -/
  | tidePos
  /-- TIDE_STEPVAL: word 0 TB2, TUS; word 1 TLR, TB1 (Table 9.27) -/
  | tideStepval
  /-- EBB_RULE window: word k of program p at 64p + k (Table 9.15) -/
  | ebbRule
  /-- EBB_HSET window: Hk of set h at 8h + k (Table 9.16) -/
  | ebbHset
  /-- EBB_SEG window: 1,024 entries of 64 B (Table 9.14) -/
  | ebbSeg
  /-- FLT_HEAD: FULL, NEXT (Table 18.10) -/
  | fltHead
  /-- FLT_SEQ -/
  | fltSeq
  /-- FLT_LOST -/
  | fltLost
  /-- FLT_CTL: CLR -/
  | fltCtl
  /-- FLT_MEM window: 512 records of 64 B (Table 18.5) -/
  | fltMem
  /-- RST_STAT: MAINCNT, FUSEERR, MEMERR, PGLOSS, LATESLOT, CAUSE (Table 17.6) -/
  | rstStat
  /-- TST_CTL: START -/
  | tstCtl
  /-- TST_STAT: FAILPH, NFAIL, PHASE, STATE -/
  | tstStat
  /-- RCV_CTL: EABORT, GABORT, BABORT (Table 18.11) -/
  | rcvCtl
  /-- RCV_STAT: REF -/
  | rcvStat
  /-- MGT_HBT: SHTO, PERIOD -/
  | mgtHbt
  /-- TST_FAILCORE -/
  | tstFailcore
  /-- CLK_SETPT: EMERG, PEND, LATE, REFUSED, KCUR, KREQ (Table 15.7) -/
  | clkSetpt
  /-- CLK_STAT: STRX, REFLOSS, HOLD, PLLLOCK -/
  | clkStat
  /-- CLK_SETAT -/
  | clkSetat
  /-- CLK_TICK -/
  | clkTick
  /-- CLK_DROOP: THR -/
  | clkDroop
  /-- CLK_STRETCH -/
  | clkStretch
  /-- CLK_STRWIN: MAX -/
  | clkStrwin
  /-- CLK_TICKCFG: EN, MASTER, PARENT -/
  | clkTickcfg
  /-- CLK_TICKSTAT: LOCK, EVER, LOSS, OFFSET -/
  | clkTickstat
  /-- PWR_CAP: LIMIT -/
  | pwrCap
  /-- PWR_MEAS: PEAK, AVG -/
  | pwrMeas
  /-- PWR_TEMP: TMAX, WARN, TJ -/
  | pwrTemp
  /-- PWR_STAT: TRIP, EMERG, WARN, PEAK, CAP -/
  | pwrStat
  /-- HBM_THR: BAND, HYST, THR (Table 13.4) -/
  | hbmThr
  /-- HBM_TEMP: LEVEL, TMAX, TEMP -/
  | hbmTemp
  /-- HBM_STAT: HOT, THR, CHK -/
  | hbmStat
  /-- HBM_CHKCNT -/
  | hbmChkcnt
  /-- HBM_THRTIME -/
  | hbmThrtime
  /-- HBM_CHKADDR: V, ADDR -/
  | hbmChkaddr
  /-- SLT_STAT: CHK -/
  | sltStat
  /-- SLT_CHKCNT -/
  | sltChkcnt
  /-- SLT_CHKADDR: V, ADDR -/
  | sltChkaddr
  /-- MEM_SCRUB: SLT1, SLT0, HBM (Table 13.11) -/
  | memScrub
  /-- SEC_STATE: IMGSVN, FUSESVN, KEYSLOT, DBG, STATE (Table 16.8) -/
  | secState
  /-- SEC_EVT: RNGF, REQREF, HASHF, SIGF, SVNLOW, KEYREV, FMT -/
  | secEvt
  /-- SEC_SESSION: COUNT -/
  | secSession
  /-- MGT_CRED: OWNED, ANCHOR -/
  | mgtCred
  /-- MGT_AUTHF -/
  | mgtAuthf
  /-- SEC_SWDROP -/
  | secSwdrop
  deriving DecidableEq, Repr

/-- Every register, in the order of the declaration. -/
def Reg.all : List Reg := (List.range 175).map Reg.ofNat

/-- Block, offset, width, number and step of each register (Table 19.9). -/
def Reg.info : Reg → RegInfo
  | .coreIm0 => ⟨.core, 0x0, 64, 4096, 8⟩
  | .coreIm1 => ⟨.core, 0x8000, 64, 4096, 8⟩
  | .coreDesc => ⟨.core, 0x10000, 64, 2048, 8⟩
  | .coreParam => ⟨.core, 0x14000, 64, 256, 8⟩
  | .skpPreg => ⟨.core, 0x14800, 32, 512, 4⟩
  | .mark => ⟨.core, 0x16000, 32, 64, 4⟩
  | .coreCtr => ⟨.core, 0x16100, 32, 16, 4⟩
  | .coreCmp => ⟨.core, 0x16140, 64, 8, 8⟩
  | .spdConfl => ⟨.core, 0x16180, 32, 11, 4⟩
  | .spdColrep => ⟨.core, 0x16200, 32, 32, 4⟩
  | .cntSel => ⟨.core, 0x16280, 32, 8, 4⟩
  | .cntVal => ⟨.core, 0x162A0, 64, 8, 8⟩
  | .coreImctl => ⟨.core, 0x16300, 32, 1, 4⟩
  | .coreImstat => ⟨.core, 0x16304, 32, 1, 4⟩
  | .coreCtl => ⟨.core, 0x16308, 32, 1, 4⟩
  | .coreStat => ⟨.core, 0x1630C, 32, 1, 4⟩
  | .coreHalt => ⟨.core, 0x16310, 64, 1, 8⟩
  | .coreDbg => ⟨.core, 0x16318, 32, 1, 4⟩
  | .coreWaitwd => ⟨.core, 0x1631C, 32, 1, 4⟩
  | .coreStep => ⟨.core, 0x16320, 64, 1, 8⟩
  | .coreMsig => ⟨.core, 0x16328, 32, 1, 4⟩
  | .trcCtl => ⟨.core, 0x1632C, 32, 1, 4⟩
  | .trcStat => ⟨.core, 0x16330, 64, 1, 8⟩
  | .matNstat => ⟨.core, 0x16338, 32, 1, 4⟩
  | .matNctl => ⟨.core, 0x1633C, 32, 1, 4⟩
  | .matInvcnt => ⟨.core, 0x16340, 32, 1, 4⟩
  | .matNsstat => ⟨.core, 0x16344, 32, 1, 4⟩
  | .matWakecnt => ⟨.core, 0x16348, 32, 1, 4⟩
  | .cvtStat => ⟨.core, 0x1634C, 32, 1, 4⟩
  | .cvtClipcnt => ⟨.core, 0x16350, 32, 1, 4⟩
  | .cvtHeadroom => ⟨.core, 0x16354, 32, 1, 4⟩
  | .spdBankpwr => ⟨.core, 0x16358, 64, 1, 8⟩
  | .spdBankst => ⟨.core, 0x16360, 64, 1, 8⟩
  | .spdPortmap => ⟨.core, 0x16368, 32, 1, 4⟩
  | .spdStat => ⟨.core, 0x1636C, 32, 1, 4⟩
  | .dmaCtl => ⟨.core, 0x16370, 32, 2, 4⟩
  | .dmaStat => ⟨.core, 0x16378, 32, 2, 4⟩
  | .skpStat => ⟨.core, 0x16380, 32, 1, 4⟩
  | .skpCmpcnt => ⟨.core, 0x16384, 32, 1, 4⟩
  | .skpLen => ⟨.core, 0x16388, 64, 1, 8⟩
  | .skpKval => ⟨.core, 0x16390, 64, 1, 8⟩
  | .trcMem => ⟨.trace, 0x0, 64, 8192, 8⟩
  | .fuseRowmap => ⟨.fuse, 0x0, 32, 16, 4⟩
  | .csrId => ⟨.csr, 0x0, 32, 1, 4⟩
  | .csrLock => ⟨.csr, 0x4, 32, 1, 4⟩
  | .csrRefcnt => ⟨.csr, 0x8, 32, 1, 4⟩
  | .csrRefaddr => ⟨.csr, 0x10, 64, 1, 8⟩
  | .cxlRingbase => ⟨.cxl, 0x0, 64, 1, 8⟩
  | .cxlCqbase => ⟨.cxl, 0x8, 64, 1, 8⟩
  | .cxlSteprec => ⟨.cxl, 0x10, 64, 1, 8⟩
  | .cxlDb => ⟨.cxl, 0x18, 64, 1, 8⟩
  | .cxlRingctl => ⟨.cxl, 0x20, 32, 1, 4⟩
  | .cxlCqctl => ⟨.cxl, 0x24, 32, 1, 4⟩
  | .cxlRcfg => ⟨.cxl, 0x28, 32, 1, 4⟩
  | .cxlIdepol => ⟨.cxl, 0x2C, 32, 1, 4⟩
  | .cxlLinkstat => ⟨.cxl, 0x30, 32, 1, 4⟩
  | .cxlStat => ⟨.cxl, 0x34, 32, 1, 4⟩
  | .cxlCqlost => ⟨.cxl, 0x38, 32, 1, 4⟩
  | .cxlDbstr => ⟨.cxl, 0x3C, 32, 1, 4⟩
  | .cxlCqstat => ⟨.cxl, 0x10000, 64, 4096, 8⟩
  | .cxlRingstat => ⟨.cxl, 0x40000, 64, 32768, 8⟩
  | .rteCoord => ⟨.rte, 0x0, 32, 1, 4⟩
  | .rteRing => ⟨.rte, 0x4, 32, 1, 4⟩
  | .rteDateline => ⟨.rte, 0x8, 64, 1, 8⟩
  | .rteDomain => ⟨.rte, 0x10, 32, 1, 4⟩
  | .rteGen => ⟨.rte, 0x14, 32, 1, 4⟩
  | .rteTransit => ⟨.rte, 0x18, 64, 1, 8⟩
  | .rteCtl => ⟨.rte, 0x20, 32, 1, 4⟩
  | .rteFence => ⟨.rte, 0x24, 32, 1, 4⟩
  | .rteStat => ⟨.rte, 0x28, 32, 1, 4⟩
  | .rteXstat => ⟨.rte, 0x2C, 32, 1, 4⟩
  | .rteXcfg => ⟨.rte, 0x30, 64, 1, 8⟩
  | .rteEarlylast => ⟨.rte, 0x38, 32, 1, 4⟩
  | .rteBusycnt => ⟨.rte, 0x3C, 32, 1, 4⟩
  | .rteXtocnt => ⟨.rte, 0x40, 32, 1, 4⟩
  | .rteDomerr => ⟨.rte, 0x44, 32, 1, 4⟩
  | .rteBoard => ⟨.rte, 0x100, 64, 16, 8⟩
  | .rteTable => ⟨.rte, 0x8000, 64, 4096, 8⟩
  | .lnkCfg => ⟨.lnk, 0x0, 32, 1, 4⟩
  | .lnkStat => ⟨.lnk, 0x4, 32, 1, 4⟩
  | .lnkExpect => ⟨.lnk, 0x8, 64, 1, 8⟩
  | .lnkNbr => ⟨.lnk, 0x10, 64, 1, 8⟩
  | .lnkVer => ⟨.lnk, 0x18, 32, 1, 4⟩
  | .lnkFecsym => ⟨.lnk, 0x1C, 32, 1, 4⟩
  | .lnkUncor => ⟨.lnk, 0x20, 32, 1, 4⟩
  | .lnkCrcf => ⟨.lnk, 0x24, 32, 1, 4⟩
  | .lnkReplay => ⟨.lnk, 0x28, 32, 1, 4⟩
  | .lnkDrop => ⟨.lnk, 0x2C, 32, 1, 4⟩
  | .lnkAuthf => ⟨.lnk, 0x30, 32, 1, 4⟩
  | .boreAxcfg => ⟨.bore, 0x0, 32, 1, 4⟩
  | .boreStat => ⟨.bore, 0x4, 32, 1, 4⟩
  | .boreWdog => ⟨.bore, 0x8, 32, 1, 4⟩
  | .boreNsaddr => ⟨.bore, 0x10, 64, 1, 8⟩
  | .gateCfg => ⟨.gate, 0x0, 32, 1, 4⟩
  | .gateStat => ⟨.gate, 0x4, 32, 1, 4⟩
  | .gateWord => ⟨.gate, 0x8, 64, 1, 8⟩
  | .gateStep => ⟨.gate, 0x10, 64, 1, 8⟩
  | .gateContrib => ⟨.gate, 0x18, 64, 1, 8⟩
  | .gateWdog => ⟨.gate, 0x20, 32, 1, 4⟩
  | .ebbCtl => ⟨.ebb, 0x0, 32, 1, 4⟩
  | .ebbStat => ⟨.ebb, 0x4, 32, 1, 4⟩
  | .ebbStgbase => ⟨.ebb, 0x8, 64, 1, 8⟩
  | .ebbStglen => ⟨.ebb, 0x10, 64, 1, 8⟩
  | .ebbStgcnt => ⟨.ebb, 0x18, 64, 1, 8⟩
  | .ebbSegcnt => ⟨.ebb, 0x20, 32, 1, 4⟩
  | .ebbRulechk => ⟨.ebb, 0x24, 32, 1, 4⟩
  | .ebbRuleval => ⟨.ebb, 0x28, 32, 1, 4⟩
  | .ebbDone => ⟨.ebb, 0x2C, 32, 1, 4⟩
  | .ebbDonecore => ⟨.ebb, 0x30, 64, 4, 8⟩
  | .ebbMirstat => ⟨.ebb, 0x50, 64, 1, 8⟩
  | .ebbMirwd => ⟨.ebb, 0x58, 32, 1, 4⟩
  | .ebbHeadroom => ⟨.ebb, 0x5C, 32, 1, 4⟩
  | .ebbSnapstat => ⟨.ebb, 0x60, 64, 1, 8⟩
  | .ebbRestore => ⟨.ebb, 0x68, 64, 1, 8⟩
  | .ebbExpstat => ⟨.ebb, 0x70, 64, 1, 8⟩
  | .ebbExpctl => ⟨.ebb, 0x78, 32, 1, 4⟩
  | .ebbMircfg => ⟨.ebb, 0x80, 64, 4, 8⟩
  | .ebbSnapcfg => ⟨.ebb, 0xA0, 64, 4, 8⟩
  | .ebbStep => ⟨.ebb, 0xC0, 64, 1, 8⟩
  | .tideLscfg => ⟨.ebb, 0x100, 32, 1, 4⟩
  | .tideLsevt => ⟨.ebb, 0x104, 32, 1, 4⟩
  | .tideLscale => ⟨.ebb, 0x108, 64, 1, 8⟩
  | .tideLsstat => ⟨.ebb, 0x110, 64, 1, 8⟩
  | .tideCfg => ⟨.ebb, 0x118, 32, 1, 4⟩
  | .tideWarm => ⟨.ebb, 0x11C, 32, 1, 4⟩
  | .tideLen => ⟨.ebb, 0x120, 32, 1, 4⟩
  | .tideLr => ⟨.ebb, 0x128, 64, 1, 8⟩
  | .tideBeta => ⟨.ebb, 0x130, 64, 1, 8⟩
  | .tideBcp => ⟨.ebb, 0x138, 64, 1, 8⟩
  | .tidePos => ⟨.ebb, 0x140, 64, 1, 8⟩
  | .tideStepval => ⟨.ebb, 0x150, 64, 2, 8⟩
  | .ebbRule => ⟨.ebb, 0x800, 32, 512, 4⟩
  | .ebbHset => ⟨.ebb, 0x1000, 32, 128, 4⟩
  | .ebbSeg => ⟨.ebb, 0x10000, 64, 8192, 8⟩
  | .fltHead => ⟨.flt, 0x0, 32, 1, 4⟩
  | .fltSeq => ⟨.flt, 0x4, 32, 1, 4⟩
  | .fltLost => ⟨.flt, 0x8, 32, 1, 4⟩
  | .fltCtl => ⟨.flt, 0xC, 32, 1, 4⟩
  | .fltMem => ⟨.flt, 0x8000, 64, 4096, 8⟩
  | .rstStat => ⟨.cc, 0x0, 32, 1, 4⟩
  | .tstCtl => ⟨.cc, 0x4, 32, 1, 4⟩
  | .tstStat => ⟨.cc, 0x8, 32, 1, 4⟩
  | .rcvCtl => ⟨.cc, 0xC, 32, 1, 4⟩
  | .rcvStat => ⟨.cc, 0x10, 32, 1, 4⟩
  | .mgtHbt => ⟨.cc, 0x14, 32, 1, 4⟩
  | .tstFailcore => ⟨.cc, 0x20, 64, 4, 8⟩
  | .clkSetpt => ⟨.clk, 0x0, 32, 1, 4⟩
  | .clkStat => ⟨.clk, 0x4, 32, 1, 4⟩
  | .clkSetat => ⟨.clk, 0x8, 64, 1, 8⟩
  | .clkTick => ⟨.clk, 0x10, 64, 1, 8⟩
  | .clkDroop => ⟨.clk, 0x18, 32, 1, 4⟩
  | .clkStretch => ⟨.clk, 0x1C, 32, 1, 4⟩
  | .clkStrwin => ⟨.clk, 0x20, 32, 1, 4⟩
  | .clkTickcfg => ⟨.clk, 0x24, 32, 1, 4⟩
  | .clkTickstat => ⟨.clk, 0x28, 32, 1, 4⟩
  | .pwrCap => ⟨.clk, 0x2C, 32, 1, 4⟩
  | .pwrMeas => ⟨.clk, 0x30, 32, 1, 4⟩
  | .pwrTemp => ⟨.clk, 0x34, 32, 1, 4⟩
  | .pwrStat => ⟨.clk, 0x38, 32, 1, 4⟩
  | .hbmThr => ⟨.hbm, 0x0, 32, 1, 4⟩
  | .hbmTemp => ⟨.hbm, 0x4, 32, 1, 4⟩
  | .hbmStat => ⟨.hbm, 0x8, 32, 1, 4⟩
  | .hbmChkcnt => ⟨.hbm, 0xC, 32, 1, 4⟩
  | .hbmThrtime => ⟨.hbm, 0x10, 32, 1, 4⟩
  | .hbmChkaddr => ⟨.hbm, 0x18, 64, 1, 8⟩
  | .sltStat => ⟨.slt, 0x0, 32, 1, 4⟩
  | .sltChkcnt => ⟨.slt, 0x4, 32, 1, 4⟩
  | .sltChkaddr => ⟨.slt, 0x8, 64, 1, 8⟩
  | .memScrub => ⟨.scrub, 0x0, 32, 1, 4⟩
  | .secState => ⟨.sec, 0x0, 32, 1, 4⟩
  | .secEvt => ⟨.sec, 0x4, 32, 1, 4⟩
  | .secSession => ⟨.sec, 0x8, 64, 1, 8⟩
  | .mgtCred => ⟨.sec, 0x10, 64, 1, 8⟩
  | .mgtAuthf => ⟨.sec, 0x18, 32, 1, 4⟩
  | .secSwdrop => ⟨.sec, 0x1C, 32, 1, 4⟩

/-- The fields of word `i` of each register; bits in no field are reserved (R15). -/
def Reg.fields (r : Reg) (i : Nat) : List Field :=
  match r with
  | .coreIm0 => [⟨63, 0, .rw⟩]
  | .coreIm1 => [⟨63, 0, .rw⟩]
  | .coreDesc => [⟨63, 0, .rw⟩]
  | .coreParam => [⟨63, 0, .rw⟩]
  | .skpPreg => [⟨31, 0, .ro⟩]
  | .mark => [⟨23, 16, .rw⟩, ⟨15, 0, .rw⟩]
  | .coreCtr => [⟨31, 0, .rw⟩]
  | .coreCmp => [⟨63, 32, .rw⟩, ⟨10, 8, .rw⟩, ⟨3, 0, .rw⟩]
  | .spdConfl => [⟨31, 0, .cnt⟩]
  | .spdColrep => [⟨31, 31, .ro⟩, ⟨25, 16, .ro⟩, ⟨15, 15, .ro⟩, ⟨9, 0, .ro⟩]
  | .cntSel => [⟨8, 8, .rw⟩, ⟨7, 0, .rw⟩]
  | .cntVal => [⟨63, 63, .w1c⟩, ⟨47, 0, .rw⟩]
  | .coreImctl => [⟨0, 0, .wo⟩]
  | .coreImstat => [⟨31, 24, .ro⟩, ⟨23, 8, .ro⟩, ⟨3, 3, .w1c⟩, ⟨2, 2, .ro⟩, ⟨1, 1, .w1c⟩, ⟨0, 0, .ro⟩]
  | .coreCtl => [⟨1, 1, .wo⟩, ⟨0, 0, .rwl⟩]
  | .coreStat => [⟨31, 24, .ro⟩, ⟨20, 16, .ro⟩, ⟨7, 7, .w1c⟩, ⟨6, 6, .w1c⟩, ⟨5, 5, .w1c⟩, ⟨4, 4, .w1c⟩, ⟨2, 0, .ro⟩]
  | .coreHalt => [⟨63, 32, .ro⟩, ⟨31, 24, .ro⟩, ⟨23, 20, .ro⟩, ⟨19, 16, .ro⟩]
  | .coreDbg => [⟨0, 0, .rw⟩]
  | .coreWaitwd => [⟨31, 0, .rw⟩]
  | .coreStep => [⟨47, 0, .rw⟩]
  | .coreMsig => [⟨5, 0, .wo⟩]
  | .trcCtl => [⟨15, 8, .rw⟩, ⟨1, 1, .rw⟩, ⟨0, 0, .rw⟩]
  | .trcStat => [⟨63, 32, .cnt⟩, ⟨11, 0, .rw⟩]
  | .matNstat => [⟨31, 0, .w1c⟩]
  | .matNctl => [⟨1, 1, .rw⟩, ⟨0, 0, .rw⟩]
  | .matInvcnt => [⟨31, 0, .cnt⟩]
  | .matNsstat => [⟨1, 1, .w1c⟩, ⟨0, 0, .w1c⟩]
  | .matWakecnt => [⟨31, 16, .cnt⟩, ⟨15, 0, .cnt⟩]
  | .cvtStat => [⟨3, 3, .w1c⟩, ⟨2, 2, .w1c⟩, ⟨1, 1, .w1c⟩, ⟨0, 0, .w1c⟩]
  | .cvtClipcnt => [⟨31, 0, .cnt⟩]
  | .cvtHeadroom => [⟨31, 0, .rw⟩]
  | .spdBankpwr => [⟨63, 0, .rwl⟩]
  | .spdBankst => [⟨63, 0, .ro⟩]
  | .spdPortmap => [⟨10, 0, .rw⟩]
  | .spdStat => [⟨3, 3, .w1c⟩, ⟨2, 2, .w1c⟩, ⟨1, 1, .w1c⟩, ⟨0, 0, .w1c⟩]
  | .dmaCtl => [⟨8, 8, .rw⟩, ⟨6, 4, .rw⟩]
  | .dmaStat => [⟨20, 16, .ro⟩, ⟨8, 8, .ro⟩, ⟨4, 4, .w1c⟩, ⟨3, 3, .w1c⟩, ⟨2, 2, .w1c⟩, ⟨1, 1, .w1c⟩, ⟨0, 0, .w1c⟩]
  | .skpStat => [⟨6, 6, .w1c⟩, ⟨5, 5, .w1c⟩, ⟨4, 4, .w1c⟩, ⟨3, 3, .w1c⟩, ⟨2, 2, .w1c⟩, ⟨1, 1, .w1c⟩, ⟨0, 0, .w1c⟩]
  | .skpCmpcnt => [⟨23, 0, .ro⟩]
  | .skpLen => [⟨63, 32, .ro⟩, ⟨23, 0, .ro⟩]
  | .skpKval => [⟨63, 0, .ro⟩]
  | .trcMem => [⟨63, 0, .ro⟩]
  | .fuseRowmap => [⟨15, 8, .ro⟩, ⟨4, 0, .ro⟩]
  | .csrId => [⟨31, 0, .ro⟩]
  | .csrLock => [⟨1, 1, .ro⟩, ⟨0, 0, .ro⟩]
  | .csrRefcnt => [⟨31, 0, .cnt⟩]
  | .csrRefaddr => [⟨63, 63, .w1c⟩, ⟨57, 56, .ro⟩, ⟨55, 52, .ro⟩, ⟨31, 0, .ro⟩]
  | .cxlRingbase => [⟨43, 0, .rw⟩]
  | .cxlCqbase => [⟨43, 0, .rw⟩]
  | .cxlSteprec => [⟨43, 0, .rw⟩]
  | .cxlDb => [⟨30, 16, .wo⟩, ⟨15, 0, .wo⟩]
  | .cxlRingctl => [⟨31, 31, .wo⟩, ⟨14, 0, .wo⟩]
  | .cxlCqctl => [⟨31, 31, .wo⟩, ⟨11, 0, .wo⟩]
  | .cxlRcfg => [⟨31, 0, .rw⟩]
  | .cxlIdepol => [⟨0, 0, .rwl⟩]
  | .cxlLinkstat => [⟨9, 8, .ro⟩, ⟨7, 6, .ro⟩, ⟨5, 4, .ro⟩, ⟨3, 0, .ro⟩]
  | .cxlStat => [⟨8, 8, .w1c⟩, ⟨7, 7, .w1c⟩, ⟨6, 6, .w1c⟩, ⟨5, 5, .w1c⟩, ⟨4, 4, .w1c⟩, ⟨3, 3, .w1c⟩, ⟨2, 2, .w1c⟩, ⟨1, 1, .w1c⟩, ⟨0, 0, .w1c⟩]
  | .cxlCqlost => [⟨31, 0, .cnt⟩]
  | .cxlDbstr => [⟨31, 0, .cnt⟩]
  | .cxlCqstat => [⟨33, 32, .ro⟩, ⟨31, 16, .ro⟩, ⟨15, 0, .ro⟩]
  | .cxlRingstat => [⟨33, 32, .ro⟩, ⟨31, 16, .ro⟩, ⟨15, 0, .ro⟩]
  | .rteCoord => [⟨23, 0, .rwl⟩]
  | .rteRing => [⟨23, 0, .rw⟩]
  | .rteDateline => [⟨47, 0, .rw⟩]
  | .rteDomain => [⟨15, 0, .rwl⟩]
  | .rteGen => [⟨15, 0, .ro⟩]
  | .rteTransit => [⟨63, 48, .rwl⟩, ⟨47, 32, .rwl⟩, ⟨31, 16, .rwl⟩, ⟨15, 0, .rwl⟩]
  | .rteCtl => [⟨0, 0, .wo⟩]
  | .rteFence => [⟨1, 1, .ro⟩, ⟨0, 0, .wo⟩]
  | .rteStat => [⟨0, 0, .w1c⟩]
  | .rteXstat => [⟨14, 0, .ro⟩]
  | .rteXcfg => [⟨63, 32, .rw⟩, ⟨31, 0, .rw⟩]
  | .rteEarlylast => [⟨31, 0, .cnt⟩]
  | .rteBusycnt => [⟨31, 0, .cnt⟩]
  | .rteXtocnt => [⟨31, 0, .cnt⟩]
  | .rteDomerr => [⟨31, 0, .cnt⟩]
  | .rteBoard => [⟨63, 0, .rw⟩]
  | .rteTable => [⟨63, 0, .rw⟩]
  | .lnkCfg => [⟨31, 16, .rw⟩, ⟨11, 8, .rw⟩, ⟨1, 1, .rwl⟩, ⟨0, 0, .rw⟩]
  | .lnkStat => [⟨7, 7, .ro⟩, ⟨6, 6, .w1c⟩, ⟨5, 5, .w1c⟩, ⟨4, 4, .w1c⟩, ⟨3, 3, .w1c⟩, ⟨2, 0, .ro⟩]
  | .lnkExpect => [⟨63, 63, .rwl⟩, ⟨52, 48, .rwl⟩, ⟨47, 24, .rwl⟩, ⟨23, 0, .rwl⟩]
  | .lnkNbr => [⟨48, 48, .ro⟩, ⟨47, 40, .ro⟩, ⟨39, 32, .ro⟩, ⟨28, 24, .ro⟩, ⟨23, 0, .ro⟩]
  | .lnkVer => [⟨23, 16, .ro⟩, ⟨15, 8, .rwl⟩, ⟨7, 0, .rwl⟩]
  | .lnkFecsym => [⟨31, 0, .cnt⟩]
  | .lnkUncor => [⟨31, 0, .cnt⟩]
  | .lnkCrcf => [⟨31, 0, .cnt⟩]
  | .lnkReplay => [⟨31, 0, .cnt⟩]
  | .lnkDrop => [⟨31, 0, .cnt⟩]
  | .lnkAuthf => [⟨31, 0, .cnt⟩]
  | .boreAxcfg => [⟨31, 31, .rw⟩, ⟨13, 8, .rw⟩, ⟨5, 0, .rw⟩]
  | .boreStat => [⟨24, 16, .ro⟩, ⟨7, 7, .w1c⟩, ⟨6, 6, .w1c⟩, ⟨5, 5, .w1c⟩, ⟨4, 4, .w1c⟩, ⟨3, 3, .w1c⟩, ⟨2, 2, .w1c⟩, ⟨1, 1, .w1c⟩, ⟨0, 0, .w1c⟩]
  | .boreWdog => [⟨31, 0, .rw⟩]
  | .boreNsaddr => [⟨63, 63, .rw⟩, ⟨43, 0, .rw⟩]
  | .gateCfg => [⟨0, 0, .rw⟩]
  | .gateStat => [⟨24, 16, .ro⟩, ⟨15, 15, .ro⟩, ⟨14, 14, .ro⟩, ⟨10, 10, .w1c⟩, ⟨9, 9, .w1c⟩, ⟨8, 8, .w1c⟩, ⟨3, 2, .ro⟩, ⟨1, 0, .ro⟩]
  | .gateWord => [⟨63, 0, .ro⟩]
  | .gateStep => [⟨47, 0, .ro⟩]
  | .gateContrib => [⟨63, 0, .ro⟩]
  | .gateWdog => [⟨31, 0, .rw⟩]
  | .ebbCtl => [⟨0, 0, .wo⟩]
  | .ebbStat => [⟨18, 16, .ro⟩, ⟨15, 15, .w1c⟩, ⟨14, 14, .w1c⟩, ⟨13, 13, .w1c⟩, ⟨12, 12, .w1c⟩, ⟨11, 11, .w1c⟩, ⟨10, 10, .w1c⟩, ⟨9, 9, .w1c⟩, ⟨8, 8, .w1c⟩, ⟨7, 7, .w1c⟩, ⟨6, 6, .w1c⟩, ⟨5, 5, .w1c⟩, ⟨4, 4, .w1c⟩, ⟨3, 3, .w1c⟩, ⟨2, 2, .w1c⟩, ⟨1, 1, .w1c⟩, ⟨0, 0, .w1c⟩]
  | .ebbStgbase => [⟨43, 0, .rw⟩]
  | .ebbStglen => [⟨39, 0, .rw⟩]
  | .ebbStgcnt => [⟨39, 0, .ro⟩]
  | .ebbSegcnt => [⟨10, 0, .rw⟩]
  | .ebbRulechk => [⟨2, 0, .wo⟩]
  | .ebbRuleval => [⟨7, 0, .ro⟩]
  | .ebbDone => [⟨5, 0, .rw⟩]
  | .ebbDonecore => [⟨63, 0, .rw⟩]
  | .ebbMirstat => [⟨50, 50, .ro⟩, ⟨49, 49, .ro⟩, ⟨48, 48, .ro⟩, ⟨47, 0, .ro⟩]
  | .ebbMirwd => [⟨31, 0, .rw⟩]
  | .ebbHeadroom => [⟨31, 0, .rw⟩]
  | .ebbSnapstat => [⟨50, 50, .ro⟩, ⟨49, 49, .ro⟩, ⟨48, 48, .ro⟩, ⟨47, 0, .ro⟩]
  | .ebbRestore => [⟨63, 16, .rw⟩, ⟨7, 7, .w1c⟩, ⟨6, 6, .ro⟩, ⟨5, 5, .rw⟩, ⟨4, 4, .rw⟩, ⟨1, 1, .wo⟩, ⟨0, 0, .wo⟩]
  | .ebbExpstat => [⟨53, 53, .ro⟩, ⟨52, 52, .ro⟩, ⟨51, 51, .w1c⟩, ⟨50, 50, .ro⟩, ⟨49, 49, .ro⟩, ⟨47, 0, .ro⟩]
  | .ebbExpctl => [⟨31, 16, .rw⟩, ⟨4, 4, .rw⟩, ⟨1, 1, .wo⟩, ⟨0, 0, .wo⟩]
  | .ebbMircfg => if i = 0 then [⟨43, 0, .rw⟩] else if i = 1 then [⟨39, 0, .rw⟩] else if i = 2 then [⟨43, 0, .rw⟩] else [⟨57, 32, .rw⟩, ⟨24, 24, .rw⟩, ⟨23, 0, .rw⟩]
  | .ebbSnapcfg => if i = 0 then [⟨43, 0, .rw⟩] else if i = 1 then [⟨43, 0, .rw⟩] else if i = 2 then [⟨47, 16, .rw⟩, ⟨8, 8, .rw⟩, ⟨3, 0, .rw⟩] else []
  | .ebbStep => [⟨47, 0, .rw⟩]
  | .tideLscfg => [⟨31, 24, .rw⟩, ⟨23, 16, .rw⟩, ⟨15, 0, .rw⟩]
  | .tideLsevt => [⟨31, 8, .cnt⟩, ⟨2, 2, .w1c⟩, ⟨1, 1, .w1c⟩, ⟨0, 0, .w1c⟩]
  | .tideLscale => [⟨63, 32, .ro⟩, ⟨31, 24, .ro⟩, ⟨7, 0, .rw⟩]
  | .tideLsstat => [⟨63, 16, .ro⟩, ⟨15, 0, .rw⟩]
  | .tideCfg => [⟨3, 3, .rw⟩, ⟨2, 0, .rw⟩]
  | .tideWarm => [⟨31, 0, .rw⟩]
  | .tideLen => [⟨31, 0, .rw⟩]
  | .tideLr => [⟨63, 32, .rw⟩, ⟨31, 0, .rw⟩]
  | .tideBeta => [⟨63, 32, .rw⟩, ⟨31, 0, .rw⟩]
  | .tideBcp => [⟨63, 32, .rw⟩, ⟨31, 0, .rw⟩]
  | .tidePos => [⟨47, 0, .rw⟩]
  | .tideStepval => if i = 0 then [⟨63, 32, .ro⟩, ⟨31, 0, .ro⟩] else [⟨63, 32, .ro⟩, ⟨31, 0, .ro⟩]
  | .ebbRule => [⟨31, 0, .rw⟩]
  | .ebbHset => if i % 8 < 6 then [⟨31, 0, .rw⟩] else []
  | .ebbSeg => [⟨63, 0, .rw⟩]
  | .fltHead => [⟨9, 9, .ro⟩, ⟨8, 0, .ro⟩]
  | .fltSeq => [⟨31, 0, .ro⟩]
  | .fltLost => [⟨31, 0, .cnt⟩]
  | .fltCtl => [⟨0, 0, .wo⟩]
  | .fltMem => [⟨63, 0, .ro⟩]
  | .rstStat => [⟨15, 8, .cnt⟩, ⟨7, 7, .ro⟩, ⟨6, 6, .w1c⟩, ⟨5, 5, .w1c⟩, ⟨4, 4, .w1c⟩, ⟨3, 0, .ro⟩]
  | .tstCtl => [⟨0, 0, .rwl⟩]
  | .tstStat => [⟨30, 24, .ro⟩, ⟨16, 8, .ro⟩, ⟨7, 4, .ro⟩, ⟨1, 0, .ro⟩]
  | .rcvCtl => [⟨3, 3, .wo⟩, ⟨2, 2, .wo⟩, ⟨1, 1, .wo⟩]
  | .rcvStat => [⟨0, 0, .w1c⟩]
  | .mgtHbt => [⟨16, 16, .w1c⟩, ⟨15, 0, .rwl⟩]
  | .tstFailcore => [⟨63, 0, .ro⟩]
  | .clkSetpt => [⟨23, 23, .ro⟩, ⟨22, 22, .ro⟩, ⟨21, 21, .w1c⟩, ⟨20, 20, .w1c⟩, ⟨12, 8, .ro⟩, ⟨4, 0, .rwl⟩]
  | .clkStat => [⟨4, 4, .w1c⟩, ⟨3, 3, .w1c⟩, ⟨2, 2, .ro⟩, ⟨0, 0, .ro⟩]
  | .clkSetat => [⟨63, 0, .rwl⟩]
  | .clkTick => [⟨63, 0, .ro⟩]
  | .clkDroop => [⟨7, 0, .rwl⟩]
  | .clkStretch => [⟨31, 0, .cnt⟩]
  | .clkStrwin => [⟨15, 0, .rw⟩]
  | .clkTickcfg => [⟨31, 31, .rwl⟩, ⟨30, 30, .rwl⟩, ⟨3, 0, .rwl⟩]
  | .clkTickstat => [⟨31, 31, .ro⟩, ⟨30, 30, .ro⟩, ⟨29, 29, .w1c⟩, ⟨15, 0, .ro⟩]
  | .pwrCap => [⟨15, 0, .rwl⟩]
  | .pwrMeas => [⟨31, 16, .rw⟩, ⟨15, 0, .ro⟩]
  | .pwrTemp => [⟨23, 16, .rw⟩, ⟨15, 8, .rwl⟩, ⟨7, 0, .ro⟩]
  | .pwrStat => [⟨4, 4, .w1c⟩, ⟨3, 3, .w1c⟩, ⟨2, 2, .w1c⟩, ⟨1, 1, .w1c⟩, ⟨0, 0, .w1c⟩]
  | .hbmThr => [⟨15, 12, .rwl⟩, ⟨11, 8, .rwl⟩, ⟨7, 0, .rwl⟩]
  | .hbmTemp => [⟨17, 16, .ro⟩, ⟨15, 8, .rw⟩, ⟨7, 0, .ro⟩]
  | .hbmStat => [⟨2, 2, .w1c⟩, ⟨1, 1, .w1c⟩, ⟨0, 0, .w1c⟩]
  | .hbmChkcnt => [⟨31, 0, .cnt⟩]
  | .hbmThrtime => [⟨31, 0, .cnt⟩]
  | .hbmChkaddr => [⟨63, 63, .w1c⟩, ⟨43, 0, .ro⟩]
  | .sltStat => [⟨0, 0, .w1c⟩]
  | .sltChkcnt => [⟨31, 0, .cnt⟩]
  | .sltChkaddr => [⟨63, 63, .w1c⟩, ⟨43, 0, .ro⟩]
  | .memScrub => [⟨10, 10, .ro⟩, ⟨9, 9, .ro⟩, ⟨7, 0, .ro⟩]
  | .secState => [⟨31, 24, .ro⟩, ⟨23, 16, .ro⟩, ⟨13, 12, .ro⟩, ⟨8, 8, .ro⟩, ⟨3, 0, .ro⟩]
  | .secEvt => [⟨6, 6, .w1c⟩, ⟨5, 5, .w1c⟩, ⟨4, 4, .w1c⟩, ⟨3, 3, .w1c⟩, ⟨2, 2, .w1c⟩, ⟨1, 1, .w1c⟩, ⟨0, 0, .w1c⟩]
  | .secSession => [⟨31, 0, .ro⟩]
  | .mgtCred => [⟨48, 48, .ro⟩, ⟨47, 0, .ro⟩]
  | .mgtAuthf => [⟨31, 0, .cnt⟩]
  | .secSwdrop => [⟨31, 0, .cnt⟩]

/-- A FUSE_ROWMAP word as the fuses of a part give it: DEFECTS is 0 or 1, and SPARECOL a physical column 0 to 16, 16 where
DEFECTS is 0 (R24, Table 1.2). -/
def rowmapWord (f : W32) : W64 :=
  BitVec.ofNat 64 (if f.getLsbD 8 then 0x100 + f.toNat % 32 % 17 else 16)

/-- An SPD_COLREP word as the fuses of a part give it: each column lies in 0 to 575 (Table 4.14). -/
def colrepWord (f : W32) : W64 :=
  BitVec.ofNat 64 (f.toNat / 2 ^ 31 * 2 ^ 31 + f.toNat / 2 ^ 16 % 1024 % 576 * 2 ^ 16 + f.toNat / 2 ^ 15 % 2 * 2 ^ 15 +
    f.toNat % 1024 % 576)

/-- The reset value of word `i` of each register in instance `n` (the Reset columns; for a map that says
Fuse, the part's fuses, R529; for Undefined, the value that notes/assumptions name). -/
def Reg.reset (r : Reg) (n i : Nat) : W64 :=
  match r with
  | .mark => 0x10000#64
  | .coreStat => 0xFF000000#64
  | .coreWaitwd => 0x8F0D18#64
  | .trcCtl => 0xFF03#64
  | .cvtHeadroom => 0x55555555#64
  | .spdPortmap => 0x3C0#64
  | .dmaCtl => 0x60#64
  | .fuseRowmap => rowmapWord (Config.fuseRowmap i)
  | .spdColrep => colrepWord (Config.spdColrep n i)
  | .csrId => 0x1004231#64
  | .cxlRcfg => 0x3E8#64
  | .rteRing => 0x41041#64
  | .rteFence => 0x2#64
  | .rteXcfg => 0x186A000000002#64
  | .lnkCfg => 0x400402#64
  | .lnkVer => 0x101#64
  | .boreAxcfg => 0x100#64
  | .boreWdog => 0x1E8480#64
  | .gateWdog => 0x1E8480#64
  | .ebbMirstat => 0x1000000000000#64
  | .ebbMirwd => 0xF4240#64
  | .ebbHeadroom => 0x55555555#64
  | .ebbSnapcfg => if i = 2 then 0x1#64 else 0#64
  | .tideLscfg => 0x20F007D0#64
  | .tideLscale => 0x4780000010000010#64
  | .tideLen => 0x1#64
  | .tideLr => 0x3F80000000000000#64
  | .tideBcp => 0x3F8000003F800000#64
  | .tideStepval => if i = 0 then 0x3F80000037800000#64 else if i = 1 then 0x3F8000003F800000#64 else 0#64
  | .rstStat => 0x1#64
  | .mgtHbt => 0x64#64
  | .clkSetpt => 0x1010#64
  | .clkDroop => 0x28#64
  | .pwrCap => 0xE10#64
  | .pwrTemp => 0x5F00#64
  | .hbmThr => 0x3255#64
  | _ => 0#64

end Sys2Proof.Machine
end

