-- ==== Sys2Proof/Machine/State.lean ====
section
/-! DEFINITION. The state of one CN1, as plain data: control and status space, the memories with their
check state, the cores' execution state, and what each unit holds between its registers. -/

namespace Sys2Proof.Machine

/-- A descriptor captured at issue (R164): its slot, its eight 64-bit words and the 64 bits of the
parameter register its SRSEED names. -/
structure Desc where
  slot : Nat
  words : List W64
  seed : W64
  deriving DecidableEq, Repr

/-- An operand value captured at issue (Table 6.2); a descriptor position holds the run it names. -/
inductive OpVal where
  | none
  | v (w : W64)
  | d (ds : List Desc)
  deriving DecidableEq, Repr

/-- Where a data-engine macro-operation stands: issued, started, or done with a status (R139, R140). -/
inductive Phase where
  | queued | started | done
  deriving DecidableEq, Repr

/-- What an operation has read ahead: bytes, check state of their units, accumulator elements and their check state, each by
its own key. -/
structure Seen where
  bytes : List (Nat × Byte) := []
  bad : List (Nat × Bool) := []
  acc : List (Nat × W32) := []
  accBad : List (Nat × Bool) := []
  deriving DecidableEq, Repr

/-- A data-engine macro-operation in flight (R138): the record's fields with the replay index in its
tag (R184), its captured operands, its replay, its outcome so far with the address and descriptor slot its
fault record names (Table 18.6), and its number among the core's operations; whether it has begun to read, what it has
read so far (R170), and whether its issue woke its wing (R106). -/
structure Flight where
  opcode : Nat
  ecls : Nat
  tag : Nat
  mark : Option Nat
  slots : List OpVal
  issued : Nat
  replay : Nat
  phase : Phase
  status : Nat
  addr : Nat
  dslot : Nat
  fid : Nat
  begun : Bool := false
  seen : Seen := {}
  woke : Bool := false
  deriving DecidableEq, Repr

/-- A dispatch record (Table 14.5) that the ring engine has taken: its ring, sequence number, the ring's
HEAD after its slots, entry point, completion queue and wishes, and the patches still to be applied. -/
structure Dispatch where
  ring : Nat
  seq : Nat
  head : Nat
  entry : Nat
  cq : Nat
  cmpl : Bool
  intr : Bool
  patches : List (Nat × W64)
  deriving DecidableEq, Repr

/-- A replay that has started, or a record refused under R466, whose completion record is not yet written
(R145, R469): its number among the core's replays, its record and replay index, how far it has come, and
the status and tag of its own first failure. -/
structure Replay where
  ord : Nat
  disp : Dispatch
  idx : Nat
  ended : Bool
  stopped : Bool
  fail : Option (Nat × Nat)
  halted : Bool
  refused : Bool
  deriving DecidableEq, Repr

/-- A command ring's context as read at its enable (Table 14.3), its expected phase at HEAD (R464), and
the slots from HEAD of the record that is taken and whose replay has not started. -/
structure RingSt where
  base : Nat := 0
  log2 : Nat := 0
  phase : Bool := true
  taken : Nat := 0
  deriving DecidableEq, Repr

/-- A completion queue's context as read at its enable (Table 14.4), its phase at TAIL, and the vectors
due for completions that are written (R473), oldest first, and those whose write into host memory is not yet observed. -/
structure CqSt where
  base : Nat := 0
  log2 : Nat := 0
  host : Bool := false
  vec : Nat := 0
  phase : Bool := true
  intr : List Nat := []
  unseen : List Nat := []
  deriving DecidableEq, Repr

/-- An output stream of the Skipper operation in progress: the beats it has advanced (R241); the values
held for a block group along dimension 1, by element position, with their number of beats and the cc of
the last one's last line (R244, R249); its scale record, the scale byte it gives and what the operation
observed (R69, R70); the first cc free for an element line and for a scale line (R609); and the scale
bytes not yet written, by stream position. -/
structure OutStream where
  desc : Desc
  raw : Bool
  q : Nat
  held : List (Nat × W32)
  heldBeats : Nat
  lastT : Nat
  srec : Option ScaleRec
  scale : Nat
  amax : W32
  clipped : Bool
  freeE : Nat
  freeS : Nat
  scales : List (Nat × Nat)
  deriving DecidableEq, Repr

/-- One byte of a write: its address, the bits written and their value. -/
structure MWrite where
  addr : Nat
  mask : Byte
  val : Byte
  deriving DecidableEq, Repr

/-- The Skipper operation in progress (R210): opcode, length and argument, streams, mask, the kernel as
at its start (R234) with its first failing word, cycles per beat, the next beat, the beats in all and
per row, the elements kept or consumed (R251), the line writes placed in later cc (R248), by cc from
the start, and its status so far with the address it names. -/
structure SkipOp where
  op : Nat
  len : Nat
  arg : W32
  ins : List Desc
  inRaw : Nat
  outs : List OutStream
  mask : Option Desc
  kernel : List W32
  kernBad : Option Nat
  ck : Nat
  beat : Nat
  beats : Nat
  perRow : Nat
  count : Nat
  queue : List (Nat × List MWrite)
  status : Nat
  addr : Nat
  deriving DecidableEq, Repr

/-- The execution state of one core that its registers do not show. `trcWritten` is the tick of a write of TRC_STAT that
found the ring filled (R182); `resumed` that the core left HALT or STOP with a dispatch record present (R176, R177);
`beat` the core cycles since the last check cycle under hazard watch (R173);
`accFree` the first cc in which the ACC engine accepts an operation; `drainBanks` by bank the first cc free for a line of
the drain buffer, and `drainLines` the cc in which each line of it is written (R209). -/
structure CoreSt where
  running : Bool := false
  half : Nat := 0
  pc : Nat := 0
  base : Nat := 0
  prevData : Bool := false
  prevCls : Nat := 0
  prevCo : Bool := false
  prevCc : Nat := 0
  lastTag : Nat := 0
  lastIssue : Nat := 0
  waiting : Bool := false
  waitReported : Bool := false
  halted : Bool := false
  hzw : Bool := false
  flights : List Flight := []
  replays : List Replay := []
  cur : Nat := 0
  nextOrd : Nat := 0
  nextFid : Nat := 0
  nextXid : Nat := 0
  disp : Option Dispatch := none
  skp : Option SkipOp := none
  wingEndA : Option Nat := none
  wingEndB : Option Nat := none
  trcCount : Nat := 0
  trcWritten : Option Nat := none
  resumed : Bool := false
  beat : Nat := 0
  accFree : Nat := 0
  drainBanks : List (Nat × Nat) := []
  drainLines : List Nat := []
  gateLat : W64 := 0#64
  deriving DecidableEq, Repr

/-- The header of a kernel (R228, R231): its words, beat count and RAW bits. -/
structure KernHdr where
  words : Nat := 0
  beatCount : Nat := 1
  inRaw : Nat := 0
  outRaw : Nat := 0
  deriving DecidableEq, Repr

/-- A flit as the transmitter holds it (Table 10.3): VC, SEQ, type (0 data, 3 tag), HEAD, TAIL, the acknowledgement and credit
fields of its header from bit 19 on, body. -/
structure TFlit where
  vc : Nat
  seq : Nat
  ft : Nat
  head : Bool
  tail : Bool
  ack : Nat
  body : List Byte
  deriving DecidableEq, Repr

/-- A port between its registers. Receiver: the counter of the codeword received last and its flits not yet taken (R326); next
SEQ of each VC, the VCs that have accepted flits and the one acknowledged last (R332), whether it discards until a replay
(R330), the packet open on each VC, the flits of open frames (R368), frames received per VC, tag failures in a row (R369),
packets assembled with their VC. Transmitter: flits of the codeword being formed, the next codeword's counter and the symbols
of the last one by lane (R326); next SEQ and credits per VC (R334), flits that wait and flits unacknowledged (R329), the
packets they belong to with their VC and last SEQ, packets that wait for new keys (R369), the flits of open frames, frame
counter per VC, the flit slot of R336 and the own-domain VC served last. Keys and salts of both directions (R367). -/
structure PortSt where
  rxCw : Nat := 0
  rxFlits : List (List Byte) := []
  rxNext : List Nat := List.replicate 8 0
  rxSeen : List Nat := []
  ackTurn : Nat := 7
  rxStall : Bool := false
  rxBody : List (Nat × List Byte) := []
  rxFrame : List TFlit := []
  rxCtr : List Nat := List.replicate 8 0
  tagFails : Nat := 0
  arrived : List (Nat × Packet) := []
  txGroup : List (List Byte) := []
  txCw : Nat := 0
  lanes : List (List Nat) := []
  txNext : List Nat := List.replicate 8 0
  credits : List Nat := List.replicate 8 288
  wait : List TFlit := []
  unacked : List TFlit := []
  packets : List (Nat × Nat × Packet) := []
  later : List (Nat × Packet) := []
  txFrame : List TFlit := []
  frameCtr : List Nat := List.replicate 8 0
  slot : Nat := 0
  served : Nat := 5
  txKey : List Byte := []
  txSalt : Nat := 0
  rxKey : List Byte := []
  rxSalt : Nat := 0
  deriving DecidableEq, Repr

/-- An entry of the transfer table (R350): the first packet, bytes counted, the status its completion
will carry. -/
structure Xfer where
  first : Packet
  count : Nat
  status : Nat
  deriving DecidableEq, Repr

/-- A transfer of a core's fabric unit: operation, packets sent, whether it expects data, what it counts
(bytes of data, or completions), its count, the destinations of its data bytes, the generation it was
injected under, and the packets answered BUSY. -/
structure Source where
  core : Nat
  xid : Nat
  fid : Nat
  sent : List Packet
  data : Bool
  want : Nat
  got : Nat
  base : Nat
  dst : List (Option Nat)
  gen : Nat
  busy : List Packet
  deriving DecidableEq, Repr

/-- A collective open on a Bore (R378 to R392): its core, operation, fields, member number and members,
buffers, parameters, number and size; whether it has started; its buffer 0 as read, as stream bytes or as FP32
values, and the 64 B pieces withheld for a failing read; the pieces received, by phase or source member;
this member's reduced shard; pieces still due; its status so far; whether a failing read has ended its writes (R608); packets still to be sent, by direction;
and whether the watchdog has reported it. -/
structure Coll where
  core : Nat
  fid : Nat
  tag : Nat
  code : Nat
  op : Nat
  nstat : Bool
  land : Bool
  m : Nat
  p : Nat
  d0 : Desc
  d1 : Desc
  params : W64
  number : Nat
  size : Nat
  started : Bool := false
  flat : List Byte := []
  vals : List W32 := []
  gone : List Nat := []
  seen : List (Nat × Nat) := []
  out : List (Nat × W32) := []
  due : Nat := 0
  status : Nat := 0
  stop : Bool := false
  send : List (Nat × Packet) := []
  reported : Bool := false
  deriving DecidableEq, Repr

/-- A Bore: open collectives in issue order; the next number of each core (R381); by direction × 512 + core,
the generations of packets whose credit is spent and credits granted beyond the two reserved slots, and, as a receiver, common slots lent (R377);
forwarded packets that wait for a credit, by direction; and the noise accumulators SQL, SQR, NCOL, NELEM of
each core (R391), and a noise record whose units the host still holds, with its address (R392, R457). -/
structure BoreSt where
  colls : List Coll := []
  nums : List (Nat × Nat) := []
  spent : List (Nat × List Nat) := []
  extra : List (Nat × Nat) := []
  lent : List (Nat × Nat) := []
  held : List (Nat × Packet) := []
  sql : List (Nat × W32) := []
  sqr : List (Nat × W32) := []
  ncol : List (Nat × Nat) := []
  nelem : List (Nat × Nat) := []
  noise : Option (Nat × List Byte) := none
  deriving DecidableEq, Repr

/-- A gate message as recorded (R402): phase, origin member, step, word. -/
structure GateMsg where
  phase : Nat
  origin : Nat
  step : Nat
  word : W64
  deriving DecidableEq, Repr

/-- The gate collector: words accepted of cores and Ebb dies for the current step, the chip's latches
(R400), the input of the phase in progress, the messages recorded and held, whether the W phase is
complete, whether the watchdog has reported, and the generation filter of R558. -/
structure GateSt where
  words : List (Nat × W64) := []
  ebb : List (Nat × W64) := []
  hlink : Bool := false
  hthr : Bool := false
  input : W64 := 0
  msgs : List GateMsg := []
  complete : Bool := false
  reported : Bool := false
  filter : Bool := false
  deriving DecidableEq, Repr

/-- An Ebb die between its registers: its latch (R400), whether R289 refuses its configuration, whether it
holds staging writes (R287), the step whose word it received and whether that commits, whether that step's
strandline entry is still to be written, the entry itself (die 0) and whether it has SRM, whether the pass
has written its last, the step whose mirror stream is due, the stream awaiting acknowledgement (step, slot),
whether MIRTO is reported, the step whose snapshot is to be copied, the step whose copy waits for its swap,
the packed size of the copy in each half, its own counter's value for the step (EBB_STEP, R305), whether the entry waits
for a step record that the host holds modified (R457), the tag of the export in progress and its packets not yet handed to
the port. -/
structure EbbSt where
  latch : W64 := 0
  checked : Bool := false
  hold : Bool := false
  step : Nat := 0
  commit : Bool := false
  strand : Bool := false
  entry : Option (List Byte) := none
  srm : Bool := false
  passed : Bool := false
  mirDue : Option Nat := none
  mirror : Option (Nat × Nat) := none
  mirLate : Bool := false
  snap : Option Nat := none
  swap : Option Nat := none
  len0 : Nat := 0
  len1 : Nat := 0
  wstep : Nat := 0
  srecDue : Bool := false
  exportTag : Option Nat := none
  exportOut : List Packet := []
  deriving DecidableEq, Repr

/-- The CXL port's configuration space and BAR4 (Table 14.1): what the host configured, the AER status, correctable and not, the
memory data errors and link errors that the RAS capability logs (R455), by device address, and the MSI-X pending bits. -/
structure CxlSt where
  conf : CxlConf := {}
  aerCor : Bool := false
  aerUnc : Bool := false
  ras : List Nat := []
  pba : List Nat := []
  deriving DecidableEq, Repr

/-- What survives a loss of every supply: the fused security version and revoked key slots (R511, R512), the
firmware image in flash (R507) and the owner record: the hash of the owner's key, and the XOR of the HMAC stored with
it and the HMAC computed over it (R521). -/
structure NonVolatile where
  fuseSvn : Nat := 0
  revoked : Nat := 0
  flash : List Byte := []
  owner : Option (List Byte) := none
  ownerDiff : Nat := 0
  deriving DecidableEq, Repr

/-- What the control complex, the power sequence and the test port hold outside every register. -/
structure Chip extends NonVolatile where
  /-- standby domain out of reset, fuses read (R529) -/
  released : Bool := false
  /-- chip-on-board index as sampled (R598) -/
  bidx : Nat := 0
  /-- MAIN_PG is high -/
  mainPg : Bool := false
  /-- the main-domain sequence has started (R532) -/
  started : Bool := false
  /-- main domains that have power, in the order of R533 -/
  domains : Nat := 0
  /-- the core domain has power -/
  coreOn : Bool := false
  /-- core waves that have left reset (R497, R498) -/
  waves : Nat := 0
  /-- memory training of this power-up has ended (R534) -/
  trained : Bool := false
  /-- a thermal trip has removed main domains that only a cycle of main power restores (R501) -/
  cut : Bool := false
  /-- THERMTRIP# is driven low (R599) -/
  trip : Bool := false
  /-- the XTS key pair of each base die, 0 to 7, and Ebb die, 8 and 9: data key and tweak key (R445) -/
  memKeys : List (Nat × (List Byte × List Byte)) := []
  /-- changes of a stack's throttle level as the control complex logs them: tick, stack, level (R435) -/
  log : List (Nat × Nat × Nat) := []
  /-- the memories are closed (R523) -/
  closed : Bool := false
  /-- open SPDM sessions and handshakes not yet finished: on the DOE mailbox or not, and identifier -/
  sessions : List (Bool × Nat) := []
  handshakes : List (Bool × Nat) := []
  /-- the session that installed the IDE keys -/
  ideSess : Option Nat := none
  /-- the last eight signable SPDM responses: nonce and message (R518) -/
  signable : List (List Byte × List Byte) := []
  /-- open DTLS sessions of management (R520), and the hashes of the keys of the certificates that their clients present -/
  dtls : Nat := 0
  anchors : List (List Byte) := []
  /-- fingerprints of neighbour link identity keys, by index (R516) -/
  fingers : List (Nat × List Byte) := []
  /-- the entropy source fails its health test; a session start waits for keys (R513) -/
  rngBad : Bool := false
  keysWait : Bool := false
  /-- digests of the running components: HHASH, SHASH -/
  measured : List Byte × List Byte := ([], [])
  /-- the components in the memories of Headland and Shingle (R531) -/
  loaded : List Byte × List Byte := ([], [])
  /-- alias keys destroyed (R526); a tenant switch that ends in debug unlock -/
  aliasGone : Bool := false
  dbgNext : Bool := false
  /-- stranded latch (R566); severance and firmware reset that wait for READY (R525, R544) -/
  stranded : Bool := false
  severNext : Bool := false
  resetNext : Bool := false
  /-- the self-test in progress is a re-admission (R568) -/
  readmit : Bool := false
  /-- tick of Shingle's last liveness request (R564) -/
  live : Nat := 0
  /-- input power samples, newest first (R499) -/
  watts : List Nat := []
  /-- junction samples in a row at 105 °C or more in the emergency set point -/
  hot : Nat := 0
  /-- by stack, readings in a row below the leaving edge of its level (R432) -/
  cool : List (Nat × Nat) := []
  /-- exchanges in a row with an offset within one tick; corrections still to make; tick of the last
  correction; a tick to be left out (R494, R495) -/
  goodEx : Nat := 0
  /-- the child's tick t1 of an exchange whose reply has not come (R493) -/
  tickSent : Option Nat := none
  slew : Int := 0
  slewAt : Nat := 0
  tickHold : Bool := false
  /-- the test port: boundary register, and whether it drives the pins (1), or they are in high impedance (2) -/
  boundary : List Bool := []
  pins : Nat := 0
  deriving DecidableEq, Repr

/-- Why a step stops with a fault. No command of this model faults: every refused access, failed check
and illegal record of the CN1 is a status, a flag or a record in the next state. -/
inductive Fault where
  deriving DecidableEq, Repr

/-- Why a step has no meaning. -/
inductive Refusal where
  /-- Raised by Dispatch for a command that has no meaning yet; safe. -/
  | notModelled (mnemonic : String)
  deriving DecidableEq, Repr

/-- The state of one CN1. -/
structure State where
  /-- Control and status space: what differs from reset, under `regKey` (see Ops). -/
  regs : List (Nat × W64)
  /-- The bytes of HBM, both slow tiers and the scratchpads, by local address (Table 13.1). -/
  mem : List Host.Cell
  /-- The XOR of the check code stored with a unit (64 B) or scratchpad word (8 B) and the code computed over it, by local
  address (R123, R429, R438): 0 where the check passes. -/
  bad : List (Nat × Nat)
  /-- Accumulator elements: core × 32768 + tile × 4096 + row × 64 + column. -/
  acc : List (Nat × W32)
  /-- Accumulator elements that fail their check. -/
  accBad : List (Nat × Bool)
  /-- Instruction records that fail their check: core × 2048 + half × 1024 + record. -/
  imBad : List (Nat × Bool)
  /-- Kernel words: core × 4096 + kernel × 64 + word. -/
  kern : List (Nat × W32)
  /-- Kernel words that fail their check. -/
  kernBad : List (Nat × Bool)
  /-- Kernel headers: core × 64 + kernel. -/
  kernHdr : List (Nat × KernHdr)
  /-- Lane registers: (core × 64 + lane) × 32 + register. -/
  lanes : List (Nat × W32)
  /-- Lane flags: core × 64 + lane. -/
  laneF : List (Nat × Bool)
  /-- The cores' execution state. -/
  cores : List (Nat × CoreSt)
  /-- Records stored since FLT_HEAD.FULL was set (R570). -/
  fltSince : Nat
  /-- Slots of the log's last section that hold a record (R570). -/
  fltHeld : Nat
  /-- Command rings. -/
  rings : List (Nat × RingSt)
  /-- Completion queues. -/
  cqs : List (Nat × CqSt)
  /-- The snoop filter: units given to the host, 1 shared, 2 possibly modified (R457). -/
  snoop : List (Nat × Nat)
  /-- Units with a back-invalidation outstanding: 1 invalidate, 2 data (R457). -/
  biOut : List (Nat × Nat)
  /-- The CXL port. -/
  cxl : CxlSt
  /-- Link ports 0 to 19. -/
  ports : List (Nat × PortSt)
  /-- Packets for this chip that wait to be performed, in order of arrival. -/
  inbox : List Packet
  /-- The transfer table (R350). -/
  xfers : List Xfer
  /-- Transfers of the cores' fabric units. -/
  sources : List Source
  /-- The Bores, by axis. -/
  bores : List (Nat × BoreSt)
  /-- The gate collector. -/
  gate : GateSt
  /-- The Ebb dies. -/
  ebbs : List (Nat × EbbSt)
  /-- The control complex and the power sequence. -/
  chip : Chip
  /-- What the chip has sent, newest last; the model's own record. -/
  outbox : List Emission
  /-- The model's own counter of free values drawn (Config.freeWord). -/
  freeCtr : Nat
  /-- Accesses held until a scrub, a staging area's hold or a host copy lets them through (R287, R448, R457). -/
  held : List Instr
  /-- Records that wait to enter the fault log (R570). -/
  fltWait : Nat
  /-- Commands waiting, first in, first out. -/
  pending : List Instr
  deriving DecidableEq, Repr

/-- The state after power-on reset. -/
def State.reset : State :=
  { regs := [], mem := [], bad := [], acc := [], accBad := [], imBad := [], kern := [], kernBad := [],
    kernHdr := [], lanes := [], laneF := [], cores := [], fltSince := 0, fltHeld := 0,
    rings := [], cqs := [], snoop := [], biOut := [], cxl := {}, ports := [], inbox := [], xfers := [],
    sources := [], bores := [], gate := {}, ebbs := [], chip := {}, outbox := [], freeCtr := 0,
    held := [], fltWait := 0, pending := [] }

end Sys2Proof.Machine
end

