-- ==== Sys2Proof/Machine/Ops.lean ====
section
/-! DEFINITION. The named operations over registers, memory, marks, the fault log and the trace ring. -/

namespace Sys2Proof.Machine

/-- The answer of every command of this model: it runs. -/
abbrev Ans := Host.Outcome State Fault Refusal

/-! ### Registers -/

/-- The key of word `i` of register `r` in instance `n` (core, port, axis, die or stack). -/
def regKey (r : Reg) (n i : Nat) : Nat := Nat.pair r.ctorIdx (Nat.pair n i)

/-- The value of a register word; `regs` holds its difference from reset. -/
def State.rd (s : State) (r : Reg) (n i : Nat) : W64 := Sparse.get 0#64 s.regs (regKey r n i) ^^^ Reg.reset r n i

/-- Set a register word. -/
def State.wr (s : State) (r : Reg) (n i : Nat) (v : W64) : State :=
  { s with regs := Sparse.set 0#64 s.regs (regKey r n i) (v ^^^ Reg.reset r n i) }

/-- A field of a register word. -/
def State.fd (s : State) (r : Reg) (n i lo len : Nat) : Nat := fld (s.rd r n i) lo len

/-- Set a field of a register word. -/
def State.setF (s : State) (r : Reg) (n i lo len x : Nat) : State := s.wr r n i (setFld (s.rd r n i) lo len x)

/-- Is a bit of a register word set. -/
def State.flag (s : State) (r : Reg) (n i k : Nat) : Bool := bit (s.rd r n i) k

/-- Set one bit of a register word (a status bit: set by hardware, R585). -/
def State.raise (s : State) (r : Reg) (n i k : Nat) : State := s.setF r n i k 1 1

/-- Set the bits of a mask. -/
def State.raiseMask (s : State) (r : Reg) (n i : Nat) (m : W64) : State := s.wr r n i (s.rd r n i ||| m)

/-- Add to a counter field, which holds at its largest value (Table 19.3). -/
def State.count (s : State) (r : Reg) (n i lo len k : Nat) : State :=
  s.setF r n i lo len (satAdd len (s.fd r n i lo len) k)

/-! ### Cores -/

/-- The execution state of core `n`. -/
def State.core (s : State) (n : Nat) : CoreSt := Sparse.get {} s.cores n

/-- Replace the execution state of core `n`. -/
def State.setCore (s : State) (n : Nat) (c : CoreSt) : State := { s with cores := Sparse.set {} s.cores n c }

/-- Change the execution state of core `n`. -/
def State.modCore (s : State) (n : Nat) (f : CoreSt → CoreSt) : State := s.setCore n (f (s.core n))

/-- Append to what the chip has sent. -/
def State.emit (s : State) (e : Emission) : State := { s with outbox := s.outbox ++ [e] }

/-- Draw a free value: one the spec does not state. -/
def State.free (s : State) : W64 × State := (Config.freeWord s.freeCtr, { s with freeCtr := s.freeCtr + 1 })

/-- 8 × `k` bytes that no rule states. -/
def State.freeBytes (s : State) : Nat → List Byte × State
  | 0 => ([], s)
  | k + 1 =>
    let (w, s) := s.free
    let (t, s) := s.freeBytes k
    (leBytes 8 w.toNat ++ t, s)

/-! ### The fault log (R569 to R571) -/

/-- The 64 B of a fault record as a number (Table 18.5); `detail` counts from byte 24. -/
structure FaultRec where
  cls : Nat
  evt : Nat
  src : Nat
  tag : Nat := 0
  opcode : Nat := 0
  ecls : Nat := 0
  status : Nat := 0
  detail : Nat := 0
  deriving DecidableEq, Repr

/-- The record as stored: TICK, STEP and SEQ added. -/
def FaultRec.image (f : FaultRec) (tick step seq : Nat) : Nat :=
  tick % 2 ^ 64 + (f.cls % 256) * 2 ^ 64 + (f.evt % 256) * 2 ^ 72 + (f.src % 1024) * 2 ^ 80 +
    (f.tag % 2 ^ 32) * 2 ^ 96 + (f.opcode % 256) * 2 ^ 128 + (f.ecls % 16 + 16 * (f.status % 16)) * 2 ^ 136 +
    (step % 2 ^ 48) * 2 ^ 144 + (f.detail % 2 ^ 288) * 2 ^ 192 + (seq % 2 ^ 32) * 2 ^ 480

/-- Write consecutive 64-bit words of a register window from a number. -/
def State.wrWords (s : State) (r : Reg) (n i : Nat) : Nat → Nat → State
  | 0, _ => s
  | k + 1, v => (s.wr r n i (BitVec.ofNat 64 v)).wrWords r n (i + 1) k (v / 2 ^ 64)

/-- The fault log takes a record: it gets the next FLT_SEQ and the slot of R570. -/
def State.faultStore (s : State) (f : FaultRec) : State :=
  let seq := s.fd .fltSeq 0 0 0 32
  let full := s.flag .fltHead 0 0 9
  let next := s.fd .fltHead 0 0 0 9
  let slot := if full then 448 + s.fltSince % 64 else next
  let img := f.image (s.rd .clkTick 0 0).toNat (s.fd .gateStep 0 0 0 48) seq
  let s := s.wrWords .fltMem 0 (8 * slot) 8 img
  let s := s.setF .fltSeq 0 0 0 32 (seq + 1)
  if full then
    let s := if s.fltSince % 64 < s.fltHeld then s.count .fltLost 0 0 0 32 1 else s
    { s with fltSince := s.fltSince + 1, fltHeld := max s.fltHeld (s.fltSince % 64 + 1) }
  else
    let s := s.setF .fltHead 0 0 0 9 (next + 1)
    if next + 1 = 448 then { (s.raise .fltHead 0 0 9) with fltSince := 0 } else s

/-- Offer a fault record to the log (R570): while 64 wait it is lost, which FLT_SEQ and FLT_LOST count. The records that wait
enter at one per fabric cycle, which passes when a tick does (log entry 69). -/
def State.fault (s : State) (f : FaultRec) : State :=
  if 64 ≤ s.fltWait then (s.setF .fltSeq 0 0 0 32 (s.fd .fltSeq 0 0 0 32 + 1)).count .fltLost 0 0 0 32 1
  else { (s.faultStore f) with fltWait := s.fltWait + 1 }

/-- The record of an access of an agent that is refused (R26, R27, R423). -/
def State.refusedAt (s : State) (src addr : Nat) : State :=
  s.fault { cls := 1, evt := 1, src := src, status := 1, detail := addr % 2 ^ 48 + 0xFF * 2 ^ 48 }

/-! ### Trace ring and performance counters -/

/-- Kinds of trace event (Table 5.7). -/
inductive TrKind where
  | issue | start | complete | waitBegin | replay | switch | halt | waitTo
  deriving DecidableEq, Repr

/-- The KIND code (Table 5.7). -/
def TrKind.code (k : TrKind) : Nat := k.ctorIdx + 1

/-- Write a trace event (R180): the entry at WPTR; OVWR counts
once the ring has filled since TRC_STAT was last written, and an overwrite of the tick of that write too (R182; that a cc
is the tick it falls in is the model's choice, log entry 1). -/
def State.trace (s : State) (n : Nat) (k : TrKind) (opcode ecls status mark tag aux : Nat) : State :=
  if s.flag .trcCtl n 0 0 && s.flag .trcCtl n 0 (8 + k.code - 1) then
    let w := s.fd .trcStat n 0 0 12
    let lo := (s.rd .clkTick 0 0).toNat % 2 ^ 48 + k.code * 2 ^ 48 + (ecls % 16) * 2 ^ 56 + (status % 16) * 2 ^ 60
    let hi := opcode % 256 + (mark % 256) * 2 ^ 8 + (tag % 2 ^ 32) * 2 ^ 16 + (aux % 2 ^ 16) * 2 ^ 48
    let again := decide (4096 ≤ (s.core n).trcCount) || (s.core n).trcWritten == some (s.rd .clkTick 0 0).toNat
    let s := (s.wr .trcMem n (2 * w) (BitVec.ofNat 64 lo)).wr .trcMem n (2 * w + 1) (BitVec.ofNat 64 hi)
    let s := s.setF .trcStat n 0 0 12 (w + 1)
    let s := if again then s.count .trcStat n 0 32 32 1 else s
    s.modCore n fun c => { c with trcCount := c.trcCount + 1 }
  else s

/-- Count `k` events of code `ev` in one performance counter (R573). -/
def perfOne (ev k : Nat) (s : State) (n i : Nat) : State :=
  if s.fd .cntSel n i 0 8 = ev ∧ 0 < ev then
    let v := s.fd .cntVal n i 0 48 + k
    if s.flag .cntSel n i 8 then s.setF .cntVal n i 0 48 (min v (2 ^ 48 - 1))
    else
      let s := s.setF .cntVal n i 0 48 v
      if 2 ^ 48 ≤ v then s.raise .cntVal n i 63 else s
  else s

/-- Count `k` events of code `ev` in every counter of core `n` that selects it (Table 18.8). -/
def State.perf (s : State) (n ev k : Nat) : State := (List.range 8).foldl (fun s i => perfOne ev k s n i) s

/-! ### Tide marks (R157 to R163) -/

/-- The count of mark `m`. -/
def State.markCount (s : State) (n m : Nat) : Nat := s.fd .mark n m 0 16
/-- The threshold of mark `m`. -/
def State.markThr (s : State) (n m : Nat) : Nat := s.fd .mark n m 16 8

/-- Change a count by increments and consumption: above 0xFFFF it holds and sets MOVF, below 0 it holds
at 0 (R161). -/
def State.markChange (s : State) (n m : Nat) (d : Int) : State :=
  let v := (s.markCount n m : Int) + d
  let s' := s.setF .mark n m 0 16 (min v.toNat 0xFFFF)
  if 0xFFFF < v then s'.raise .coreStat n 0 5 else s'

/-- One signal to a mark (R158, R159). -/
def State.signal (s : State) (n m : Nat) : State := s.markChange n m 1

/-- The marks of a wait mask (R157). -/
def waitMarks (win mask : Nat) : List Nat := ((List.range 16).filter fun b => mask.testBit b).map (16 * win + ·)

/-- Is every mark satisfied (R160; a threshold of 0 always is, R163). -/
def State.satisfied (s : State) (n : Nat) (ms : List Nat) : Bool :=
  ms.all fun m => decide (s.markThr n m ≤ s.markCount n m)

/-- Several changes of marks in one cc: each mark changes by the sum of its own (R161). -/
def State.markSum (s : State) (n : Nat) (ds : List (Nat × Int)) : State :=
  (ds.map Prod.fst).dedup.foldl
    (fun s m => s.markChange n m ((ds.filter fun e => e.1 == m).map Prod.snd).sum) s

/-- What issue consumes of the marks of a wait mask: each mark's threshold (R160). -/
def State.dues (s : State) (n : Nat) (ms : List Nat) : List (Nat × Int) := ms.map fun m => (m, -(s.markThr n m : Int))

/-! ### State codes, halting -/

/-- Bring CORE_STAT.STATE and INFLT and DMA_STATn.INFLT and BUSY up to date with the core (Tables 5.5,
5.11, 4.16). STOP shows before HALT (log entry 66); at a program boundary a core whose dispatch record waits shows RUN,
but IDLE after RESUME or the end of STOP until the record's patches or replay begin (log entry 66). -/
def State.sync (s : State) (n : Nat) : State :=
  let c := s.core n
  let code := if s.flag .coreCtl n 0 0 then 4 else if c.halted then 3
    else if !c.running && (c.disp.isNone || c.resumed) then 0 else if c.waiting then 2 else 1
  let onE (e : Nat) := c.flights.filter fun f => f.ecls == e
  let s := (s.setF .coreStat n 0 0 3 code).setF .coreStat n 0 16 5 c.flights.length
  [6, 7].foldl (fun s e =>
    (s.setF .dmaStat n (e - 6) 16 5 (onE e).length).setF .dmaStat n (e - 6) 8 1
      (b2n ((onE e).any fun f => f.phase != .queued))) s

/-- Change the core's execution state and bring its status up to date. -/
def State.updCore (s : State) (n : Nat) (f : CoreSt → CoreSt) : State := (s.modCore n f).sync n

/-- Halt core `n` (R175): the first cause goes to CORE_HALT, the current replay and the one named are
halted, FRZ stops the trace. `rep` is the replay of the failing operation, `own` that the failure is
that replay's own. -/
def State.halt (s : State) (n tag opcode ecls status : Nat) (rep : Option Nat) (own : Bool) : State :=
  let c := s.core n
  let mark (r : Replay) : Replay :=
    let mine := rep == some r.ord
    let r := if mine && own && r.fail.isNone then { r with fail := some (status, tag) } else r
    if mine || (c.running && r.ord == c.cur) then { r with halted := true } else r
  let s := s.modCore n fun c => { c with replays := c.replays.map mark, waiting := false }
  if c.halted then s.sync n
  else
    let s := s.wr .coreHalt n 0
      (BitVec.ofNat 64 ((tag % 2 ^ 32) * 2 ^ 32 + (opcode % 256) * 2 ^ 24 + (ecls % 16) * 2 ^ 20 + (status % 16) * 2 ^ 16))
    let s := s.raise .coreStat n 0 4
    let s := s.trace n .halt opcode ecls status 0xFF tag 0
    let s := if s.flag .trcCtl n 0 1 then s.setF .trcCtl n 0 0 1 0 else s
    s.updCore n fun c => { c with halted := true }

/-! ### Memory (Table 13.1) -/

/-- The regions of the local map. -/
inductive Region where
  | hbm | strandline | slow (die : Nat) | scratch | control | unmapped
  deriving DecidableEq, Repr

/-- First address of the scratchpads. -/
def spadBase : Nat := 0x20000000000
/-- First address of control and status space. -/
def ctlBase : Nat := 0x30000000000

/-- The region of a local address (Table 13.1). -/
def regionOf (a : Nat) : Region :=
  if a < 0x7FFF000000 then .hbm
  else if a < 0x8000000000 then .strandline
  else if a < 0x10000000000 then .unmapped
  else if a < 0x14000000000 then .slow 0
  else if a < 0x18000000000 then .slow 1
  else if a < spadBase then .unmapped
  else if a < spadBase + 0x40000000 then .scratch
  else if a < ctlBase then .unmapped
  else if a < ctlBase + 0x100000000 then .control
  else .unmapped

/-- Bytes per scratchpad. -/
def spadSize : Nat := 0x400000
/-- The local address of a scratchpad offset of core `n`. -/
def spadAddr (n off : Nat) : Nat := spadBase + n * spadSize + off
/-- The core whose scratchpad holds an address. -/
def spadCore (a : Nat) : Nat := (a - spadBase) / spadSize
/-- The scratchpad offset of an address. -/
def spadOff (a : Nat) : Nat := (a - spadBase) % spadSize
/-- The bank of a scratchpad offset (Table 1.4). -/
def bankOf (off : Nat) : Nat := off / 2 ^ 17
/-- The HBM stack of an address (R425). -/
def stackOf (a : Nat) : Nat := a / 2 ^ 12 % 8

/-- Is the address in a scratchpad. -/
def inScratch (a : Nat) : Bool := regionOf a == .scratch

/-- The first address of the check unit of an address: an 8 B word of a scratchpad (R123), a 64 B unit
of HBM or the slow tier (R429, R438). -/
def granule (a : Nat) : Nat := if inScratch a then a / 8 * 8 else a / 64 * 64
/-- The size of that check unit. -/
def granuleSize (a : Nat) : Nat := if inScratch a then 8 else 64

/-- The byte at a local address; a byte nothing has written reads 0. -/
def State.byte (s : State) (a : Nat) : Byte := Sparse.get 0#8 s.mem a
/-- Set a byte. -/
def State.setByte (s : State) (a : Nat) (b : Byte) : State := { s with mem := Sparse.set 0#8 s.mem a b }

/-- Does the check unit at `g` fail its check. -/
def State.isBad (s : State) (g : Nat) : Bool := Sparse.get 0 s.bad g != 0
/-- Make the check unit at `g` pass its check, or fail it. -/
def State.setBad (s : State) (g : Nat) (b : Bool) : State := { s with bad := Sparse.set 0 s.bad g (b2n b) }

/-- The state of a bank (Table 4.5). -/
def State.bankState (s : State) (n b : Nat) : Nat := s.fd .spdBankst n 0 (2 * b) 2

/-- How an access to the check unit of an address ends: 0 OK, 5 CHK, 6 BANK (R123, R125, R429). -/
def State.cellStatus (s : State) (a : Nat) : Nat :=
  if inScratch a && s.bankState (spadCore a) (bankOf (spadOff a)) != 0 then 6
  else if s.isBad (granule a) then 5 else 0

/-- Group a list by a key that is equal on neighbours. -/
def groupRuns {α : Type} (key : α → Nat) : List α → List (Nat × List α)
  | [] => []
  | x :: t =>
    match groupRuns key t with
    | (k, l) :: r => if key x = k then (k, x :: l) :: r else (key x, [x]) :: (k, l) :: r
    | [] => [(key x, [x])]

/-- The check units among addresses that fail an access, each with its status (R608). -/
def State.failsAt (s : State) (as : List Nat) : List (Nat × Nat) :=
  (groupRuns granule as).filterMap fun g =>
    let st := s.cellStatus g.1
    if st = 0 then none else some (g.1, st)

/-- The state as an operation sees it that has read part of its inputs ahead (R170). -/
def State.seeing (s : State) (v : Seen) : State :=
  { s with mem := v.bytes.foldl (fun m e => Sparse.set 0#8 m e.1 e.2) s.mem,
           bad := v.bad.foldl (fun m e => Sparse.set 0 m e.1 (b2n e.2)) s.bad,
           acc := v.acc.foldl (fun m e => Sparse.set 0#32 m e.1 e.2) s.acc,
           accBad := v.accBad.foldl (fun m e => Sparse.set false m e.1 e.2) s.accBad }

/-- What an operation of core `n` has read once it reads words and elements too: those of banks that are on, each once. -/
def State.readAhead (s : State) (n : Nat) (e : Early) (v : Seen) : Seen :=
  let gs := (e.words.filter fun a => inScratch a && s.bankState (spadCore a) (bankOf (spadOff a)) == 0).map (· / 8 * 8)
  let gs := gs.filter fun g => !v.bad.any fun b => b.1 == g
  let ks := (e.elems.map fun k => n * 32768 + k % 32768).filter fun k => !v.accBad.any fun b => b.1 == k
  { bytes := v.bytes ++ gs.flatMap fun g => (List.range 8).map fun i => (g + i, s.byte (g + i)),
    bad := v.bad ++ gs.map fun g => (g, s.isBad g),
    acc := v.acc ++ ks.map fun k => (k, Sparse.get 0#32 s.acc k),
    accBad := v.accBad ++ ks.map fun k => (k, Sparse.get false s.accBad k) }

/-- The bytes from an address. -/
def State.bytes (s : State) (a n : Nat) : List Byte := (List.range n).map fun i => s.byte (a + i)

/-- A whole-byte write. -/
def MWrite.whole (a : Nat) (v : Byte) : MWrite := ⟨a, 0xFF#8, v⟩

/-- Bytes written from an address. -/
def wholeWrites (a : Nat) (bs : List Byte) : List MWrite := bs.zipIdx.map fun b => .whole (a + b.2) b.1

/-- Do the writes of one check unit cover it whole. -/
def coversAll (g : Nat) (ws : List MWrite) : Bool :=
  (List.range (granuleSize g)).all fun i =>
    (ws.foldl (fun m w => if w.addr = g + i then m ||| w.mask else m) 0#8) == 0xFF#8

/-- Apply one masked byte. -/
def State.putByte (s : State) (w : MWrite) : State :=
  s.setByte w.addr ((s.byte w.addr &&& ~~~w.mask) ||| (w.val &&& w.mask))

/-- Write one check unit: a whole write makes it valid; a partial one merges, and leaves a failing unit
as it is (R123, R427). The status of the unit's access comes with the state. -/
def State.writeUnit (s : State) (g : Nat) (ws : List MWrite) : State × Nat :=
  let st := s.cellStatus g
  if st = 6 then (s, 6)
  else if coversAll g ws then ((ws.foldl State.putByte s).setBad g false, 0)
  else if st = 5 then (s, 5)
  else (ws.foldl State.putByte s, 0)

/-- Perform the writes of one access; the failing units come with their status. -/
def State.writeAll (s : State) (ws : List MWrite) : State × List (Nat × Nat) :=
  (groupRuns (fun w => granule w.addr) ws).foldl
    (fun r g =>
      let (s', st) := r.1.writeUnit g.1 g.2
      (s', if st = 0 then r.2 else r.2 ++ [(g.1, st)])) (s, [])

/-- On whose behalf an access is made: the agent code of Table 10.6 with the macro-operation's fields. -/
structure Ctx where
  src : Nat
  tag : Nat := 0
  opcode : Nat := 0
  ecls : Nat := 0
  deriving DecidableEq, Repr

/-- The reports of one failing check unit: the flags, counts and captured address of its memory, and a
fault record of class 0x03 (R123, R430, R438); a bank that is not on sets SPD_STAT.BANK (R125); a word lost at port 1 has
set SPD_STAT.LOST already (R119). -/
def State.reportUnit (s : State) (c : Ctx) (f : Nat × Nat) : State :=
  let (g, st) := f
  let rec3 (evt src : Nat) : FaultRec :=
    { cls := 3, evt := evt, src := src, tag := c.tag, opcode := c.opcode, ecls := c.ecls, status := st, detail := g }
  match regionOf g with
  | .scratch =>
    if st = 6 then s.raise .spdStat (spadCore g) 0 2
    else if st = 7 then s
    else (s.raise .spdStat (spadCore g) 0 3).fault (rec3 2 c.src)
  | .slow e =>
    let s := (s.count .sltChkcnt e 0 0 32 1).raise .sltStat e 0 0
    let s := if s.flag .sltChkaddr e 0 63 then s else s.wr .sltChkaddr e 0 (BitVec.ofNat 64 (2 ^ 63 + g))
    s.fault (rec3 1 (0x104 + e))
  | .hbm | .strandline =>
    let k := stackOf g
    let s := (s.count .hbmChkcnt k 0 0 32 1).raise .hbmStat k 0 0
    let s := if s.flag .hbmChkaddr k 0 63 then s else s.wr .hbmChkaddr k 0 (BitVec.ofNat 64 (2 ^ 63 + g))
    s.fault (rec3 0 (0x108 + k))
  | _ => s

/-- The reports of every failing check unit of an access. -/
def State.reportUnits (s : State) (c : Ctx) (fs : List (Nat × Nat)) : State :=
  fs.foldl (fun s f => s.reportUnit c f) s

/-- The scratchpad port a master uses on a bank (R113, Table 4.11). -/
def State.portOf (s : State) (n master bank : Nat) : Nat :=
  if bank < 2 then s.fd .spdPortmap n 0 master 1 else 0

/-- Is a word discarded at port 1 (R118): the collision named it, its bank is dual-ported and the master
uses port 1. `lost` lists word numbers, offset / 8. -/
def State.wordLost (s : State) (n master : Nat) (lost : List Nat) (a : Nat) : Bool :=
  lost.contains (spadOff a / 8) && s.portOf n master (bankOf (spadOff a)) == 1

/-- Does the collision at port 1 discard a byte write of a master (R118). -/
def State.writeLost (s : State) (master : Nat) (lost : List Nat) (w : MWrite) : Bool :=
  inScratch w.addr && s.wordLost (spadCore w.addr) master lost w.addr

/-- A list without what `p` says, and that part of it: the writes performed and those discarded. -/
def splitWrites (p : MWrite → Bool) (ws : List MWrite) : List MWrite × List MWrite := (ws.filter fun w => !p w, ws.filter p)

/-- SPD_STAT.LOST of the scratchpads whose bytes were discarded (R119). -/
def State.noteLost (s : State) (ws : List MWrite) : State := ws.foldl (fun s w => s.raise .spdStat (spadCore w.addr) 0 0) s

/-- Waits of accesses to other cores' scratchpads, by core (master MESH, R117). -/
def State.meshWaited (s : State) (ws : List (Nat × Nat)) : State :=
  ws.foldl (fun s w => (s.count .spdConfl w.1 9 0 32 w.2).perf w.1 7 w.2) s

/-- Waits of a master: SPD_CONFLm and the performance counters count them (R117, Table 18.8). -/
def State.waited (s : State) (n master k : Nat) : State :=
  (s.count .spdConfl n master 0 32 k).perf n (if master < 6 then 6 else 7) k

/-- Is the memory of an address being scrubbed (R448), or its scrub waiting for keys (R513). -/
def State.scrubbing (s : State) (a : Nat) : Bool :=
  match regionOf a with
  | .hbm | .strandline => s.chip.keysWait || s.flag .memScrub 0 0 (stackOf a)
  | .slow e => s.chip.keysWait || s.flag .memScrub 0 0 (9 + e)
  | _ => false

/-- Change what the control complex and the power sequence hold. -/
def State.modChip (s : State) (f : Chip → Chip) : State := { s with chip := f s.chip }

/-- A report, answer or alert to management; Emission lists the codes. -/
def State.report (s : State) (code : Nat) (vals : List Nat) : State := s.emit (.mgmt code vals)

/-- Forget what registers hold: they read their reset values. -/
def State.dropRegs (s : State) (p : Reg → Bool) : State :=
  { s with regs := Sparse.drop (fun k => p (Reg.ofNat (Nat.unpair k).1)) s.regs }

/-- Every answer of a command. -/
def ok (s : State) : Ans := .next s

end Sys2Proof.Machine
end

