-- ==== Sys2Proof/Machine/Operands.lean ====
section
/-! DEFINITION. The macro-operation record (Table 6.1), the opcode map (Table 6.5), tensor descriptors
(Table 6.3): their checks (R192), the positions of elements and scale bytes (R54, R55, R189 to R191), and
reading and writing elements. -/

namespace Sys2Proof.Machine

/-! ### Records -/

/-- A macro-operation record (Table 6.1). -/
structure Rec where
  opcode : Nat
  ecls : Nat
  wwin : Nat
  wmask : Nat
  smark : Nat
  sv : Bool
  delay : Nat
  tag : Nat
  kinds : List Nat
  slots : List Nat
  resv : Bool
  deriving DecidableEq, Repr

/-- The fields of a record's 256 bits. -/
def Rec.ofNat (v : Nat) : Rec :=
  let f (lo len : Nat) : Nat := v / 2 ^ lo % 2 ^ len
  { opcode := f 0 8, ecls := f 8 4, wwin := f 12 2, wmask := f 16 16, smark := f 32 6, sv := f 38 1 == 1,
    delay := f 40 16, tag := f 72 24, kinds := (List.range 4).map fun k => f (56 + 2 * k) 2,
    slots := (List.range 4).map fun k => f (96 + 40 * k) 40, resv := f 14 2 != 0 || f 39 1 != 0 }

/-- The tag with the replay index in bits [7:0] (R184). -/
def Rec.fullTag (r : Rec) (idx : Nat) : Nat := r.tag * 256 + idx % 256

/-- Roles of operand positions (R186). -/
inductive Role where
  | d | v | u
  deriving DecidableEq, Repr

/-- The roles of an opcode's positions for an engine class it is listed for (Table 6.5). -/
def opRoles (op ecls : Nat) : Option (List Role) :=
  let ctl (l : List Role) : Option (List Role) := if ecls = 0 then some l else none
  let cls (lo hi : Nat) (l : List Role) : Option (List Role) := if lo ≤ ecls ∧ ecls ≤ hi then some l else none
  match op with
  | 0x00 | 0x01 => ctl [.u, .u, .u, .u]
  | 0x02 | 0x0E => ctl [.v, .u, .u, .u]
  | 0x03 | 0x05 | 0x06 | 0x08 | 0x09 | 0x0A | 0x0C | 0x0D | 0x10 | 0x11 | 0x12 | 0x13 => ctl [.v, .v, .u, .u]
  | 0x0F => ctl [.v, .v, .v, .v]
  | 0x20 => cls 1 2 [.d, .d, .v, .u]
  | 0x21 => cls 1 2 [.v, .v, .u, .u]
  | 0x30 | 0x31 => cls 3 3 [.d, .v, .u, .u]
  | 0x32 => cls 3 3 [.v, .u, .u, .u]
  | 0x40 => cls 4 4 [.d, .d, .v, .v]
  | 0x41 => cls 4 4 [.d, .d, .v, .u]
  | 0x42 | 0x43 => cls 4 4 [.d, .d, .d, .v]
  | 0x44 => cls 4 4 [.d, .v, .u, .u]
  | 0x50 | 0x51 | 0x52 => cls 5 5 [.d, .d, .u, .u]
  | 0x60 | 0x61 | 0x62 | 0x63 => cls 6 7 [.d, .d, .u, .u]
  | 0x70 | 0x71 => cls 8 8 [.d, .v, .v, .v]
  | 0x72 | 0x73 => cls 8 8 [.d, .d, .u, .u]
  | 0x74 => cls 8 8 [.u, .u, .v, .v]
  | 0x75 => cls 8 8 [.v, .u, .u, .u]
  | 0x76 => cls 8 8 [.v, .d, .d, .v]
  | _ => none

/-- Does a slot obey Table 6.2 and the role of its position (R186). -/
def slotOk (role : Role) (kind slot : Nat) : Bool :=
  match role, kind with
  | .u, 0 => slot == 0
  | .v, 1 => true
  | .v, 3 => decide (slot < 256)
  | .d, 2 => decide (slot < 256)
  | _, _ => false

/-- May the record be issued, its operand values apart (R137, R187). -/
def Rec.wellFormed (r : Rec) : Bool :=
  !r.resv && (r.sv || r.smark == 0) && (r.wmask != 0 || r.wwin == 0) &&
    match opRoles r.opcode r.ecls with
    | some roles => (List.zipWith (fun role ks => slotOk role ks.1 ks.2) roles (r.kinds.zip r.slots)).all id
    | none => false

/-- Operations an engine holds in flight at most (Table 5.1). -/
def engineLimit (ecls : Nat) : Nat := if ecls < 6 then 4 else 16

/-- The record `i` of a half of core n's instruction memory (R590). -/
def State.record (s : State) (n half i : Nat) : Rec :=
  let r : Reg := if half = 0 then .coreIm0 else .coreIm1
  Rec.ofNat ((List.range 4).foldr (fun k v => (s.rd r n (4 * i + k)).toNat + 2 ^ 64 * v) 0)

/-- Parameter register `p`. -/
def State.param (s : State) (n p : Nat) : W64 := s.rd .coreParam n p

/-- The words of a descriptor slot with the seed its SRSEED names, as they stand (R164). -/
def State.descAt (s : State) (n slot : Nat) : Desc :=
  let ws := (List.range 8).map fun k => s.rd .coreDesc n (8 * slot + k)
  { slot := slot, words := ws, seed := s.param n (fld (ws.getD 6 0#64) 24 8) }

/-- A run of descriptor slots; a run past slot 255 is cut there and its operation refused (R607). -/
def State.descRun (s : State) (n slot k : Nat) : List Desc :=
  ((List.range k).filter fun i => slot + i < 256).map fun i => s.descAt n (slot + i)

/-- The value of a V slot (Table 6.2). -/
def State.vSlot (s : State) (n kind slot : Nat) : W64 :=
  if kind = 3 then s.param n (slot % 256) else BitVec.ofNat 64 slot

/-- The operand values of a record at issue (R164); SKRUN and SKWALK capture the runs of R210. -/
def State.operands (s : State) (n : Nat) (r : Rec) : List OpVal :=
  let k := fld (s.vSlot n (r.kinds.getD 2 0) (r.slots.getD 2 0)) 0 64
  let run (pos : Nat) : Nat :=
    if r.opcode = 0x40 ∨ r.opcode = 0x41 then
      (if pos = 0 then k / 256 % 4 + 1 else if pos = 1 then max 1 (k / 1024 % 4) else 1)
    else 1
  (r.kinds.zip r.slots).zipIdx.map fun e =>
    match e.1.1 with
    | 0 => .none
    | 2 => .d (s.descRun n (e.1.2 % 256) (run e.2))
    | kd => .v (s.vSlot n kd e.1.2)

/-- The V value at a position, 0 where there is none. -/
def vAt (l : List OpVal) (i : Nat) : W64 :=
  match l.getD i .none with
  | .v w => w
  | _ => 0#64

/-- The descriptors at a position. -/
def dsAt (l : List OpVal) (i : Nat) : List Desc :=
  match l.getD i .none with
  | .d ds => ds
  | _ => []

/-- The first descriptor at a position. -/
def dAt (l : List OpVal) (i : Nat) : Desc := (dsAt l i).headD ⟨0, [], 0#64⟩

/-! ### Tensor descriptors -/

/-- A tensor descriptor (Table 6.3). -/
structure TDesc where
  slot : Nat
  base : Nat
  space : Nat
  lil : Nat
  ext : Nat × Nat × Nat × Nat
  str : Nat × Nat × Nat
  num : NumWord
  resv : Bool
  seed : W64
  deriving DecidableEq, Repr

/-- The fields of a captured descriptor. -/
def Desc.t (d : Desc) : TDesc :=
  let v := d.words.foldr (fun w a => w.toNat + 2 ^ 64 * a) 0
  let f (lo len : Nat) : Nat := v / 2 ^ lo % 2 ^ len
  { slot := d.slot, base := f 0 48, space := f 48 4, lil := f 52 2
    ext := (f 64 24, f 88 24, f 112 24, f 136 24), str := (f 160 32, f 192 32, f 224 32)
    num := NumWord.ofWord (BitVec.ofNat 64 (f 384 64))
    resv := f 54 10 != 0 || f 256 128 != 0 || f 448 64 != 0, seed := d.seed }

namespace TDesc

/-- The format, FP32 where the code is unknown (such a descriptor is refused before any use). -/
def fmt (d : TDesc) : Fmt := d.num.format.getD .fp32
/-- Element width. -/
def w (d : TDesc) : Nat := d.fmt.width
/-- Number of elements. -/
def total (d : TDesc) : Nat := d.ext.1 * d.ext.2.1 * d.ext.2.2.1 * d.ext.2.2.2
/-- Number of rows along dimension 0 (H of Table 6.12). -/
def rows (d : TDesc) : Nat := d.ext.2.1 * d.ext.2.2.1 * d.ext.2.2.2

/-- The indices of element `k` in walk order. -/
def index (d : TDesc) (k : Nat) : Nat × Nat × Nat × Nat :=
  (k % d.ext.1, k / d.ext.1 % d.ext.2.1, k / (d.ext.1 * d.ext.2.1) % d.ext.2.2.1,
    k / (d.ext.1 * d.ext.2.1 * d.ext.2.2.1))

/-- The bit position of an element in the stream. -/
def bitPos (d : TDesc) (i : Nat × Nat × Nat × Nat) : Nat :=
  8 * (i.2.1 * d.str.1 + i.2.2.1 * d.str.2.1 + i.2.2.2 * d.str.2.2) + d.w * i.1

/-- Bytes of a row's elements. -/
def rowBytes (d : TDesc) : Nat := cdiv (d.w * d.ext.1) 8

/-- The size of the element array: one more than the highest position that holds an element bit (R190). -/
def size (d : TDesc) : Nat :=
  (d.ext.2.1 - 1) * d.str.1 + (d.ext.2.2.1 - 1) * d.str.2.1 + (d.ext.2.2.2 - 1) * d.str.2.2 + d.rowBytes

/-- Number of blocks. -/
def blocks (d : TDesc) : Nat := d.total / 32

/-- The whole stream: element array and, for a narrow format, scale plane (R55, R190). -/
def streamSize (d : TDesc) : Nat := if d.fmt.narrow then up64 d.size + d.blocks else d.size

/-- The address in its space of a stream position (R189). -/
def offset (d : TDesc) (p : Nat) : Nat :=
  if d.lil = 0 then d.base + p
  else
    let q := d.lil + 1
    d.base + p % 64 + (p / 64 % q) * 0x20000 + (p / 64 / q) * 64

/-- The local address of a stream position, for a descriptor of core `n`. -/
def addr (d : TDesc) (n p : Nat) : Nat := if d.space = 0 then spadAddr n (d.offset p) else d.offset p

/-- Stride order is index order, so that blocks stand in walk order. -/
def nested (d : TDesc) : Bool :=
  let r := d.w * d.ext.1
  let r1 := 8 * ((d.ext.2.1 - 1) * d.str.1) + r
  let r2 := 8 * ((d.ext.2.2.1 - 1) * d.str.2.1) + r1
  (d.ext.2.1 ≤ 1 || decide (r ≤ 8 * d.str.1)) && (d.ext.2.2.1 ≤ 1 || decide (r1 ≤ 8 * d.str.2.1)) &&
    (d.ext.2.2.2 ≤ 1 || decide (r2 ≤ 8 * d.str.2.2))

/-- The first element of the block of element `k`, in walk order (R55). -/
def blockFirst (d : TDesc) (k : Nat) : Nat :=
  if d.num.bax then k - (k / d.ext.1 % d.ext.2.1 % 32) * d.ext.1 else k - k % d.ext.1 % 32

/-- Is element `k` the first of its block. -/
def isFirst (d : TDesc) (k : Nat) : Bool := d.blockFirst k == k

/-- The place of the block of element `k` in the scale plane: blocks stand in the order of their first
elements in the element array, equal positions in walk order (R55). -/
def blockRank (d : TDesc) (k : Nat) : Nat :=
  let f := d.blockFirst k
  if d.nested then
    if d.num.bax then
      let i := d.index f
      ((i.2.2.2 * d.ext.2.2.1 + i.2.2.1) * (d.ext.2.1 / 32) + i.2.1 / 32) * d.ext.1 + i.1
    else f / 32
  else
    let p := d.bitPos (d.index f)
    ((List.range d.total).filter fun j =>
      d.isFirst j && (decide (d.bitPos (d.index j) < p) || (d.bitPos (d.index j) == p && decide (j < f)))).length

/-- The stream position of the scale byte of element `k`. -/
def scalePos (d : TDesc) (k : Nat) : Nat := up64 d.size + d.blockRank k

/-- The stream positions of the bytes that hold element `k`. -/
def elemBytes (d : TDesc) (k : Nat) : List Nat :=
  let b := d.bitPos (d.index k)
  (List.range ((b + d.w - 1) / 8 - b / 8 + 1)).map fun i => b / 8 + i

/-- Does a row of a local range leave every region (R27); a stream wholly inside one region does not. -/
def outside (d : TDesc) : Bool :=
  let okRange (p len : Nat) : Bool :=
    let a := d.base + p
    let e := a + len - 1
    let cls (x : Nat) : Nat := match regionOf x with
      | .hbm => 1 | .strandline => 1 | .slow _ => 2 | .scratch => 3 | .control => 4 | .unmapped => 0
    cls a != 0 && cls a == cls e
  if okRange 0 d.streamSize then false
  else
    !((List.range d.rows).all fun r => okRange (d.bitPos (d.index (r * d.ext.1)) / 8) d.rowBytes) ||
      (d.fmt.narrow && !okRange (up64 d.size) d.blocks)

/-- Does a scratchpad stream leave the 32 banks (R121, R192). -/
def pastEnd (d : TDesc) : Bool :=
  let lines := cdiv d.streamSize 64
  if d.lil = 0 then decide (spadSize < d.base + d.streamSize)
  else
    (List.range (d.lil + 1)).any fun k =>
      k < lines && decide (spadSize ≤ d.offset (min (64 * (lines - 1 - k) + 63) (d.streamSize - 1)))

/-- What a descriptor is used for: the space or spaces permitted and whether it is a destination. -/
structure Use where
  spaces : List Nat
  dest : Bool
  deriving DecidableEq, Repr

/-- The first check of R192 that fails, as a status; 0 if none does. -/
def check (d : TDesc) (u : Use) : Nat :=
  if d.ext.1 = 0 ∨ d.ext.2.1 = 0 ∨ d.ext.2.2.1 = 0 ∨ d.ext.2.2.2 = 0 ∨ d.resv then 3
  else if (d.space = 0 ∧ 2 ^ 22 ≤ d.base) ∨ (d.space = 1 ∧ 2 ^ 44 ≤ d.base) ∨ (d.space = 3 ∧ 16 ≤ d.base) then 1
  else if !u.spaces.contains d.space then 1
  else if d.lil ≠ 0 ∧ (d.space ≠ 0 ∨ d.base % 64 ≠ 0) then 1
  else if d.lil ≠ 0 ∧ 31 < d.base / 0x20000 + d.lil then 1
  else if !d.num.ok u.dest true then 2
  else if d.fmt.narrow ∧ (d.ext.1 % 32 ≠ 0 ∨ (d.num.bax ∧ d.ext.2.1 % 32 ≠ 0)) then 2
  else if (d.space = 0 ∧ d.pastEnd) ∨ (d.space = 1 ∧ d.outside) then 1
  else 0

end TDesc

/-- The first failing check among descriptors, with the slot of the one that fails. -/
def firstCheck (l : List (TDesc × TDesc.Use)) : Nat × Nat :=
  l.foldl (fun r e => if r.1 ≠ 0 then r else (e.1.check e.2, e.1.slot)) (0, 0xFF)

/-! ### Elements -/

/-- The bytes at stream positions. -/
def State.streamBytes (s : State) (n : Nat) (d : TDesc) (ps : List Nat) : List Byte :=
  ps.map fun p => s.byte (d.addr n p)

/-- The code of element `k`. -/
def State.elem (s : State) (n : Nat) (d : TDesc) (k : Nat) : Nat :=
  leNat (s.streamBytes n d (d.elemBytes k)) / 2 ^ (d.bitPos (d.index k) % 8) % 2 ^ d.w

/-- The scale byte of element `k` (0 for FP32 and BF16). -/
def State.scaleOf (s : State) (n : Nat) (d : TDesc) (k : Nat) : Nat :=
  if d.fmt.narrow then (s.byte (d.addr n (d.scalePos k))).toNat else 0

/-- Local addresses of the bytes of element `k`. -/
def elemAddrs (n : Nat) (d : TDesc) (k : Nat) : List Nat := (d.elemBytes k).map (d.addr n)

/-- The value of element `k` with its scale. -/
def State.elemValue (s : State) (n : Nat) (d : TDesc) (k : Nat) : Fv := d.fmt.scaled (s.elem n d k) (s.scaleOf n d k)

/-- The byte writes that put a code of element `k` in place, only its own bits (R242). -/
def elemWrites (n : Nat) (d : TDesc) (k code : Nat) : List MWrite :=
  let b := d.bitPos (d.index k)
  let m := (2 ^ d.w - 1) * 2 ^ (b % 8)
  let v := (code % 2 ^ d.w) * 2 ^ (b % 8)
  (d.elemBytes k).zipIdx.map fun p =>
    ⟨d.addr n p.1, BitVec.ofNat 8 (m / 256 ^ p.2), BitVec.ofNat 8 (v / 256 ^ p.2)⟩

/-- The write of the scale byte of element `k`'s block. -/
def scaleWrite (n : Nat) (d : TDesc) (k scale : Nat) : MWrite :=
  .whole (d.addr n (d.scalePos k)) (BitVec.ofNat 8 scale)

/-- The scratchpad lines a descriptor of core `n` touches, for hazard watch (R172). -/
def TDesc.lines (d : TDesc) (n : Nat) : List Nat :=
  let ps := (List.range d.rows).flatMap fun r =>
    let p := d.bitPos (d.index (r * d.ext.1)) / 8
    (List.range (cdiv (p % 64 + d.rowBytes) 64)).map fun i => p / 64 * 64 + 64 * i
  let sc := if d.fmt.narrow then (List.range (cdiv d.blocks 64)).map fun i => up64 d.size + 64 * i else []
  let as := (ps ++ sc).flatMap fun p => [d.addr n p / 64, d.addr n (p + 63) / 64]
  (as.filter fun l => inScratch (64 * l) && spadCore (64 * l) == n).dedup

end Sys2Proof.Machine
end

