-- ==== Sys2Proof/Machine/Flags.lean ====
section
/-! DEFINITION. What the units of a core report: conversion, accumulation and lane events. -/

namespace Sys2Proof.Machine

/-- Set bits of a core's gate latch (R397, Table 11.6). -/
def State.latch (s : State) (n m : Nat) : State :=
  if m = 0 then s else s.modCore n fun c => { c with gateLat := c.gateLat ||| BitVec.ofNat 64 m }

/-- Conversion events in CVT_STAT, CVT_CLIPCNT and the gate latch (Tables 2.8, 2.9, R75). -/
def State.cvtEvents (s : State) (n : Nat) (e : CvtEv) : State :=
  let m := b2n e.ovf + 2 * b2n e.inv + 4 * b2n e.clip + 8 * b2n e.usat
  let s := (s.raiseMask .cvtStat n 0 (BitVec.ofNat 64 m)).latch n (2 * b2n e.ovf + 512 * b2n e.inv)
  if e.count = 0 then s else s.count .cvtClipcnt n 0 0 32 e.count

/-- Accumulation events in the tile's nibble of MAT_NSTAT, the gate latch and the INV count (R95 to R97). -/
def State.matEvents (s : State) (n tile : Nat) (e : Ev) (inv : Nat) : State :=
  let m := b2n e.inv + 2 * b2n e.ovf + 4 * b2n e.inf + 8 * b2n e.nan
  let s := (s.raiseMask .matNstat n 0 (BitVec.ofNat 64 (m * 2 ^ (4 * tile)))).latch n
    (b2n (e.ovf || e.inf) + 256 * b2n (e.inv || e.nan))
  if inv = 0 then s else s.count .matInvcnt n 0 0 32 inv

/-- Lane events in SKP_STAT and the gate latch (R257). -/
def State.laneEvents (s : State) (n : Nat) (e : Ev) : State :=
  (s.raiseMask .skpStat n 0 (BitVec.ofNat 64 (b2n e.nan + 2 * b2n e.inv + 4 * b2n e.ovf + 8 * b2n e.dz))).latch n
    (4 * b2n (e.ovf || e.dz) + 1024 * b2n (e.nan || e.inv))

/-- Reduction events in SKP_STAT and the gate latch (R256, R257). -/
def State.redEvents (s : State) (n : Nat) (e : Ev) : State :=
  (s.raiseMask .skpStat n 0 (BitVec.ofNat 64 (16 * b2n e.nan + 32 * b2n e.inv + 64 * b2n e.ovf))).latch n
    (4 * b2n e.ovf + 1024 * b2n (e.nan || e.inv))

end Sys2Proof.Machine
end

