-- ==== Sys2Proof/Machine/Issue.lean ====
section
/-! DEFINITION. Issue and completion (R137 to R187): when the control unit issues a record, what issue
does, hazard watch, how a data-engine operation starts, and how it completes. -/

namespace Sys2Proof.Machine

/-- What the control unit finds at the next record of a core in a core cycle. -/
inductive Found where
  | nothing (s : State)
  | ready (r : Rec) (vals : List OpVal) (co : Bool)
  deriving DecidableEq, Repr

/-- The marks a record waits on. -/
def Rec.waits (r : Rec) : List Nat := waitMarks r.wwin r.wmask

/-- The replay index (R144). -/
def State.rplIdx (s : State) (n : Nat) : Nat := s.fd .coreStat n 0 24 8

/-- The next record of core `n`. -/
def State.nextRec (s : State) (n : Nat) : Rec := s.record n (s.core n).half (s.core n).pc

/-- May the core issue at all (R175, R177). -/
def State.issuing (s : State) (n : Nat) : Bool :=
  let c := s.core n
  c.running && !c.halted && !s.flag .coreCtl n 0 0

/-- A record that is refused halts the core with its own tag, opcode and class (R137, R175, R187). -/
def State.refuseRec (s : State) (n : Nat) (r : Rec) (status : Nat) : State :=
  s.halt n (r.fullTag (s.rplIdx n)) r.opcode r.ecls status (some (s.core n).cur) true

/-- Look at the next record (R152): delay (R153) with co-issue (R154), check code (R151), structure, room, wait mask. -/
def State.look (s : State) (n cc : Nat) : Found :=
  let c := s.core n
  if !s.issuing n then .nothing s
  else
    let r := s.nextRec n
    let co := r.delay == 0 && c.prevData && r.ecls != 0 && c.prevCls != r.ecls && r.wmask == 0 &&
      !c.prevCo && cc == c.prevCc
    if !co && cc < c.base + max r.delay 1 then .nothing s
    else if Sparse.get false s.imBad (n * 2048 + c.half * 1024 + c.pc) then
      let s := s.raise .coreImstat n 0 3
      let s := s.fault { cls := 3, evt := 4, src := n, tag := r.fullTag (s.rplIdx n), opcode := r.opcode,
                         ecls := r.ecls, status := 5, detail := c.pc }
      .nothing (s.refuseRec n r 5)
    else if !r.wellFormed then .nothing (s.refuseRec n r 12)
    else if r.ecls ≠ 0 ∧ (16 ≤ c.flights.length ∨
        engineLimit r.ecls ≤ (c.flights.filter fun f => f.ecls == r.ecls).length) then .nothing s
    else if !s.satisfied n r.waits then
      if c.waiting then .nothing s
      else
        .nothing ((s.trace n .waitBegin r.opcode r.ecls 0 r.wwin (r.fullTag (s.rplIdx n)) r.wmask).updCore n
          fun c => { c with waiting := true, waitReported := false })
    else .ready r (s.operands n r) co

/-- Issue: marks are consumed, together with what else changes them in the issue cc (`ds`, R161), the record
is traced and counted, and it becomes the record before the next (R152, R155, R160). -/
def State.commit (s : State) (n cc : Nat) (r : Rec) (co : Bool) (ds : List (Nat × Int)) : State :=
  let c := s.core n
  let tag := r.fullTag (s.rplIdx n)
  let s := s.markSum n (s.dues n r.waits ++ ds)
  let s := s.trace n .issue r.opcode r.ecls 0 (if r.sv then r.smark else 0xFF) tag (min (cc - c.lastIssue) 0xFFFF)
  let s := s.perf n 4 1
  s.updCore n fun c =>
    { c with pc := c.pc + 1, base := cc, prevData := r.ecls != 0, prevCls := r.ecls, prevCo := co,
             prevCc := cc, lastTag := tag, lastIssue := cc, waiting := false, waitReported := false }

/-- A replay that has passed record 1,023 halts: CORE_HALT holds status ILL alone, the fault record the
tag of record 1,023 (R150). No record of the replay itself was refused (R469). -/
def State.pastHalf (s : State) (n : Nat) : State :=
  let c := s.core n
  if c.running ∧ 1024 ≤ c.pc then
    (s.fault { cls := 1, evt := 12, src := n, tag := c.lastTag, status := 12, detail := 0xFF * 2 ^ 48 }).halt
      n 0 0 0 12 (some c.cur) false
  else s

/-- What a control record's effect comes to: a refusal, changes of marks with a change of the state, a
branch, or the replay's end. -/
inductive CtlOut where
  | refuse (status : Nat)
  | go (ds : List (Nat × Int)) (f : State → State)
  | branch (target : Nat)
  | stop

/-- The current replay has issued its END (R142). -/
def endReplay (c : CoreSt) : CoreSt :=
  { c with running := false,
           replays := c.replays.map fun q => if q.ord == c.cur then { q with ended := true } else q }

/-- A control record of opcode `op` in its issue cc (R165): its operand fields are checked against the
masks of Table 6.6 (R195), then it issues with its signal (R158) and takes effect. -/
def ctlRow (s : State) (n cc op : Nat) (masks : List Nat) (eff : State → List W64 → CtlOut) : State :=
  if !s.issuing n || (s.nextRec n).opcode != op || (s.nextRec n).ecls != 0 then s
  else match s.look n cc with
    | .nothing s' => s'
    | .ready r vals co =>
      let vs := (List.range 4).map (vAt vals)
      if !((vs.zip masks).all fun e => decide (e.1 &&& ~~~(BitVec.ofNat 64 e.2) = 0#64)) then s.refuseRec n r 12
      else
        let sig : List (Nat × Int) := if r.sv then [(r.smark, 1)] else []
        match eff s vs with
        | .refuse st => s.refuseRec n r st
        | .go ds f => (f (s.commit n cc r co (ds ++ sig))).pastHalf n
        | .branch t => ((s.commit n cc r co sig).updCore n fun c => { c with pc := t, base := cc + 2 }).pastHalf n
        | .stop => ((s.commit n cc r co sig).updCore n endReplay).pastHalf n

/-- The record of a macro-operation that completed with a status other than OK (class 0x01, Table 18.6). -/
def statusRecord (n tag opcode ecls status addr dslot : Nat) : FaultRec :=
  { cls := 1, evt := status, src := n, tag := tag, opcode := opcode, ecls := ecls, status := status,
    detail := addr % 2 ^ 48 + (dslot % 256) * 2 ^ 48 }

/-! ### Hazard watch (R172) -/

/-- The scratchpad lines and tiles an operation reads and writes. -/
structure Ranges where
  rdLines : List Nat := []
  wrLines : List Nat := []
  rdTiles : List Nat := []
  wrTiles : List Nat := []
  deriving DecidableEq, Repr

/-- Does one side write what the other touches. -/
def Ranges.clash (a b : Ranges) : Bool :=
  let meets (x y : List Nat) : Bool := x.any y.contains
  meets a.wrLines (b.rdLines ++ b.wrLines) || meets b.wrLines a.rdLines ||
    meets a.wrTiles (b.rdTiles ++ b.wrTiles) || meets b.wrTiles a.rdTiles

/-- Lines of an input or output descriptor, none for an accumulator stream. -/
def descLines (n : Nat) (d : Desc) : List Nat := if d.t.space = 3 then [] else d.t.lines n
/-- The tile of an accumulator stream. -/
def descTiles (d : Desc) : List Nat := if d.t.space = 3 then [d.t.base % 8] else []
/-- Lines of the scale record a destination names (R245). -/
def srecLines (n : Nat) (d : Desc) : List Nat :=
  if d.t.fmt.narrow ∧ d.t.num.ssrc then [spadAddr n d.t.num.sraddr / 64, spadAddr n d.t.num.sraddr / 64 + 1] else []

/-- The ranges of a macro-operation (R172). MNS reads its TIN; that it leaves values there on which software must not rely
(R203) counts as no write (the model's choice, log entry 14). -/
def Flight.ranges (n : Nat) (f : Flight) : Ranges :=
  let ds (i : Nat) : List Desc := dsAt f.slots i
  let ln (i : Nat) : List Nat := (ds i).flatMap (descLines n)
  let tl (i : Nat) : List Nat := (ds i).flatMap descTiles
  let wing := if f.ecls = 2 then 4 else 0
  let k := (vAt f.slots 2).toNat
  match f.opcode with
  | 0x20 => { rdLines := ln 0 ++ ln 1, wrTiles := [wing + k % 4], rdTiles := if k / 4 % 2 = 1 then [wing + k % 4] else [] }
  | 0x21 => { rdTiles := [wing + (vAt f.slots 0).toNat % 4], wrTiles := (List.range 4).filterMap fun t =>
      if t = (vAt f.slots 0).toNat % 4 then none else some (wing + t) }
  | 0x30 => { rdLines := ln 0, wrTiles := [(vAt f.slots 1).toNat % 8] }
  | 0x31 => { wrLines := ln 0, rdTiles := [(vAt f.slots 1).toNat % 8] }
  | 0x32 => { wrTiles := [(vAt f.slots 0).toNat % 8] }
  | 0x40 | 0x41 =>
    let outs := if k / 1024 % 4 = 0 then [] else ds 1
    { rdLines := ln 0 ++ outs.flatMap (srecLines n), rdTiles := tl 0,
      wrLines := outs.flatMap fun d => descLines n d ++ srecLines n d }
  | 0x42 | 0x43 => { rdLines := ln 0 ++ ln 2, rdTiles := tl 0 ++ tl 2, wrLines := ln 1 }
  | 0x44 => { rdLines := ln 0 }
  | 0x50 | 0x51 | 0x52 => { rdLines := ln 0, rdTiles := tl 0, wrLines := ln 1 }
  | 0x60 | 0x61 | 0x62 | 0x63 => { rdLines := ln 0, wrLines := ln 1 }
  | 0x70 | 0x73 => { rdLines := ln 0 }
  | 0x71 | 0x72 => { wrLines := ln 0 }
  | 0x76 => { rdLines := ln 1, wrLines := ln 2 }
  | _ => {}

/-- The earliest-issued macro-operation on another engine that an operation clashes with. -/
def State.hazard (s : State) (n ecls : Nat) (earlier : List Flight) (r : Ranges) : Option Flight :=
  if (s.core n).hzw then earlier.find? fun f => f.ecls != ecls && r.clash (f.ranges n) else none

/-- The report of a hazard: one record with both tags, and CORE_STAT.HAZ (R172). -/
def State.reportHazard (s : State) (n tag opcode ecls other : Nat) : State :=
  (s.fault { cls := 8, evt := 1, src := n, tag := tag, opcode := opcode, ecls := ecls, status := 9,
             detail := other % 2 ^ 32 }).raise .coreStat n 0 7

/-! ### Starting and ending a data-engine operation -/

/-- The result of an operation: the state it leaves and its status, with the address and descriptor slot
its fault record names. -/
structure OpRes where
  st : State
  status : Nat := 0
  addr : Nat := 0
  dslot : Nat := 0xFF
  deriving DecidableEq, Repr

/-- The operation is refused at its start. -/
def refuse (s : State) (status : Nat) (dslot : Nat := 0xFF) (addr : Nat := 0) : OpRes := ⟨s, status, addr, dslot⟩

/-- The next operation of an engine that has not started (R139). -/
def State.queuedOn (s : State) (n ecls : Nat) : Option Flight :=
  (s.core n).flights.find? fun f => f.ecls == ecls && f.phase == .queued

/-- Change the first operation of an engine in a phase. -/
def State.updFlight (s : State) (n ecls : Nat) (ph : Phase) (g : Flight → Flight) : State :=
  s.updCore n fun c => { c with flights := replFirst (fun f => f.ecls == ecls && f.phase == ph) g c.flights }

/-- The next operation of an engine begins, if it has the opcode: hazard watch first (R172), then its START event and `go`. -/
def beginOp (s : State) (n ecls op : Nat) (go : State → Flight → State) : State :=
  match s.queuedOn n ecls with
  | none => s
  | some f =>
    if f.opcode ≠ op then s
    else
      let earlier := (s.core n).flights.takeWhile fun g => g != f
      match if f.begun then none else s.hazard n ecls earlier (f.ranges n) with
      | some g =>
        (s.reportHazard n f.tag f.opcode f.ecls g.tag).updFlight n ecls .queued fun f =>
          { f with phase := .done, status := 9 }
      | none => go (if f.begun then s else s.trace n .start f.opcode f.ecls 0 0xFF f.tag 0) f

/-- Start the next operation of an engine if it has the opcode: `body` either finishes it or leaves it started (`none`). A
write of its own that was refused meanwhile gives it its status (R147). -/
def startOp (s : State) (n ecls op : Nat) (body : State → Flight → State × Option OpRes) : State :=
  beginOp s n ecls op fun s f =>
    match body s f with
    | (_, some r) => r.st.updFlight n ecls .queued fun f =>
        if r.status = 0 ∧ f.status ≠ 0 then { f with phase := .done }
        else { f with phase := .done, status := r.status, addr := r.addr, dslot := r.dslot }
    | (s', none) => s'.updFlight n ecls .queued fun f => { f with phase := .started, begun := true, seen := {} }

/-- The next operation of an engine reads part of its inputs ahead (R170, R171): words and elements that it takes as they
stand now, whatever is written to them before the event that finishes it. -/
def peekOp (s : State) (n ecls op : Nat) (e : Early) : State :=
  beginOp s n ecls op fun s f =>
    let v := s.readAhead n e f.seen
    s.updFlight n ecls .queued fun f => { f with begun := true, seen := v }

/-- A scratchpad-only or DMA operation: an event of reads ahead, or the one in which its body finishes it. -/
def runOp (s : State) (n ecls op : Nat) (early : Early) (body : State → Flight → OpRes) : State :=
  if early = {} then startOp s n ecls op fun s f => (s, some (body s f)) else peekOp s n ecls op early

/-- The flag an operation's status sets when it completes: SPD_STAT.ALIGN (Table 4.13) and the DMA_STAT
bits (Table 4.16). -/
def State.statusFlags (s : State) (n : Nat) (f : Flight) : State :=
  if f.ecls = 6 ∨ f.ecls = 7 then
    let r (k : Nat) := s.raise .dmaStat n (f.ecls - 6) k
    match f.status with
    | 1 => r 0
    | 2 => r 4
    | 3 => if f.opcode = 0x62 then r 1 else s
    | 5 => r 3
    | 8 => r 2
    | _ => s
  else if f.status = 4 then s.raise .spdStat n 0 1
  else s

/-- While the self-test runs, an operation that completes with a status other than OK fails the core and the phase (R540). -/
def State.testNote (s : State) (n : Nat) : State :=
  let p := s.fd .tstStat 0 0 4 4
  if s.fd .tstStat 0 0 0 2 = 1 ∧ 1 ≤ p ∧ p ≤ 6 then
    (s.raise .tstFailcore 0 (n / 64) (n % 64)).raise .tstStat 0 0 (23 + p)
  else s

/-- The operation is done: its mark counts, and a status other than OK writes its record and halts the
core (R158, R175). A hazard has written its one record already (R172). -/
def State.retire (s : State) (n : Nat) (f : Flight) : State :=
  let s := s.updCore n fun c => { c with flights := c.flights.erase f }
  let s := match f.mark with
    | some m => s.signal n m
    | none => s
  let s := s.trace n .complete f.opcode f.ecls f.status (f.mark.getD 0xFF) f.tag 0
  if f.status = 0 then s
  else
    let s := if f.status = 9 then s
      else (s.fault (statusRecord n f.tag f.opcode f.ecls f.status f.addr f.dslot)).statusFlags n f
    let s := s.testNote n
    s.halt n f.tag f.opcode f.ecls f.status (some f.replay) true

/-- Does the issue of a product in cc `cc` wake its wing (R106): the array has computed nothing for more than 2,400 cc, or not
since reset, and no earlier product is still to compute. -/
def CoreSt.wakes (c : CoreSt) (ecls cc : Nat) : Bool :=
  !(c.flights.any fun f => f.ecls == ecls && f.phase == .queued) &&
    match if ecls = 1 then c.wingEndA else c.wingEndB with
    | none => true
    | some l => decide (2400 < cc - l - 1)

/-- MAT_WAKECNT and the wake event of a wing (R106, R136, Table 18.8). -/
def State.wingWakes (s : State) (n ecls : Nat) : State :=
  (s.count .matWakecnt n 0 (if ecls = 1 then 0 else 16) 16 1).perf n 0x0B 1

/-- RECORD_ISSUE (R152, R164, R184): the next record, if it is a data-engine record whose conditions hold,
enters its engine's queue; a record that may not issue halts the core. -/
def execRecordIssue (n cc : Nat) (s : State) : Ans :=
  if !s.issuing n then ok s
  else
    let r := s.nextRec n
    let c := s.core n
    let bad := Sparse.get false s.imBad (n * 2048 + c.half * 1024 + c.pc)
    if r.ecls = 0 ∧ r.wellFormed ∧ !bad then ok s
    else match s.look n cc with
      | .nothing s' => ok s'
      | .ready r vals co =>
        if r.ecls = 0 then ok s
        else
          let f : Flight :=
            { opcode := r.opcode, ecls := r.ecls, tag := r.fullTag (s.rplIdx n),
              mark := if r.sv then some r.smark else none, slots := vals, issued := cc, replay := c.cur,
              phase := .queued, status := 0, addr := 0, dslot := 0xFF, fid := c.nextFid,
              woke := (r.ecls == 1 || r.ecls == 2) && c.wakes r.ecls cc }
          let s := s.commit n cc r co []
          let s := if f.woke then s.wingWakes n r.ecls else s
          ok ((s.updCore n fun c => { c with flights := c.flights ++ [f], nextFid := c.nextFid + 1 }).pastHalf n)

/-- MACRO_OP_COMPLETE (R139, R140, R158, R175): the oldest operation of an engine, once done, completes. -/
def execMacroOpComplete (n eng cc : Nat) (s : State) : Ans :=
  match (s.core n).flights.find? fun f => f.ecls == eng with
  | some f => if f.phase = .done ∧ f.issued ≤ cc then ok (s.retire n f) else ok s
  | none => ok s

/-- CHECK_CYCLE (R173): the core's units hold their state. -/
def execCheckCycle (_ : Nat) (s : State) : Ans := ok s

/-- WAIT_TIMEOUT (R178): a record held only by its wait mask beyond the limit is reported once. -/
def execWaitTimeout (n held : Nat) (s : State) : Ans :=
  let c := s.core n
  let lim := s.fd .coreWaitwd n 0 0 32
  if s.issuing n ∧ c.waiting ∧ !c.waitReported ∧ lim ≠ 0 ∧ lim * 1024 < held then
    let r := s.nextRec n
    let tag := r.fullTag (s.rplIdx n)
    let s := s.raise .coreStat n 0 6
    let s := s.fault { cls := 8, evt := 0, src := n, tag := tag, opcode := r.opcode, ecls := r.ecls,
                       detail := r.wwin * 2 ^ 32 + r.wmask * 2 ^ 40 }
    let s := s.trace n .waitTo r.opcode r.ecls 0 r.wwin tag r.wmask
    ok (s.updCore n fun c => { c with waitReported := true })
  else ok s

end Sys2Proof.Machine
end

