-- ==== Sys2Proof/Machine/Matrix.lean ====
section
/-! DEFINITION. Matrix products and the Newton–Schulz inverse root (R79 to R106, R193, R199 to R205). -/

namespace Sys2Proof.Machine

/-! ### Accumulator tiles -/

/-- The key of an accumulator element. -/
def accKey (n t i j : Nat) : Nat := n * 32768 + t * 4096 + i * 64 + j

/-- An accumulator element. -/
def State.accGet (s : State) (n t i j : Nat) : W32 := Sparse.get 0#32 s.acc (accKey n t i j)

/-- Write an accumulator element; it is valid afterwards. -/
def State.accSet (s : State) (n t i j : Nat) (v : W32) : State :=
  { s with acc := Sparse.set 0#32 s.acc (accKey n t i j) v,
           accBad := Sparse.set false s.accBad (accKey n t i j) false }

/-- Does an accumulator element fail its check (R110). -/
def State.accFails (s : State) (n t i j : Nat) : Bool := Sparse.get false s.accBad (accKey n t i j)

/-- The positions of an r × c matrix, row by row. -/
def grid (r c : Nat) : List (Nat × Nat) := (List.range r).flatMap fun i => (List.range c).map fun j => (i, j)

/-- The first failing element among positions of a tile, row by row. -/
def State.accFirstBad (s : State) (n t : Nat) (ps : List (Nat × Nat)) : Option (Nat × Nat) :=
  ps.find? fun p => s.accFails n t p.1 p.2

/-- A failing accumulator element: its record of class 0x03 (R110, Table 18.6). -/
def State.reportAcc (s : State) (n t : Nat) (p : Nat × Nat) (f : Flight) : State :=
  s.fault { cls := 3, evt := 3, src := n, tag := f.tag, opcode := f.opcode, ecls := f.ecls, status := 5,
            detail := t + p.1 * 256 + p.2 * 65536 }

/-- The context of a macro-operation's accesses. -/
def Flight.ctx (n : Nat) (f : Flight) : Ctx := { src := n, tag := f.tag, opcode := f.opcode, ecls := f.ecls }

/-! ### Operands -/

/-- The requirements of wing order (R193): ADDR for the SPACE, SHAPE otherwise; 0 if they hold. -/
def wingCheck (d : TDesc) : Nat :=
  if d.space ≠ 0 then 1
  else if d.ext.1 = 0 ∨ 64 < d.ext.1 ∨ d.ext.2.2.1 ≠ 1 ∨ d.ext.2.2.2 ≠ 1 ∨ 8 * d.str.1 ≠ d.ext.1 * d.w ∨
      (d.fmt.narrow ∧ !d.num.bax) then 3
  else 0

/-- The values of a wing operand along K for its index `i` in dimension 0. -/
def State.wingVector (s : State) (n : Nat) (d : TDesc) (i : Nat) : List Fv :=
  (List.range d.ext.2.1).map fun k => s.elemValue n d (k * d.ext.1 + i)

/-- Every byte address a wing operand occupies, scale bytes included. -/
def operandAddrs (n : Nat) (d : TDesc) : List Nat := (List.range d.streamSize).map (d.addr n)

/-! ### Outcomes of accumulations -/

/-- One element's accumulation with its log. -/
structure ElemOut where
  row : Nat
  col : Nat
  val : W32
  log : List DotEv
  deriving DecidableEq, Repr

/-- The record of R99 and R100 for a kind of event, if its control bit is set and the event occurred:
the lowest-numbered element with the event, and that element's first. -/
def State.numericRecord (s : State) (n tile : Nat) (f : Flight) (inv : Bool) (es : List ElemOut) : State :=
  if !s.flag .matNctl n 0 (if inv then 0 else 1) then s
  else
    let hits := es.filterMap fun e => (dotFirst inv e.log).map fun d => (e.row * 64 + e.col, d)
    match hits.foldl (fun (b : Option (Nat × DotEv)) h => match b with
        | some x => if h.1 < x.1 then some h else some x
        | none => some h) none with
    | none => s
    | some (p, d) =>
      let stage := match d.stage with | .group => 0 | .tree => 1 | .acc => 2
      s.fault { cls := 2, evt := if inv then 0 else 1, src := n, tag := f.tag, opcode := f.opcode, ecls := f.ecls,
                detail := tile + (p / 64) * 2 ^ 8 + (p % 64) * 2 ^ 16 + stage * 2 ^ 24 + (d.idx % 2 ^ 16) * 2 ^ 32 }

/-- The flags, counts and records of an operation's accumulations (R95 to R100). Of its two records that of INV enters the
fault log first (the model's choice, log entry 20). -/
def State.accumulated (s : State) (n tile : Nat) (f : Flight) (es : List ElemOut) : State :=
  let ev := es.foldl (fun e x => e.join (dotEvents x.log)) {}
  let inv := es.foldl (fun k x => k + dotInvCount x.log) 0
  ((s.matEvents n tile ev inv).numericRecord n tile f true es).numericRecord n tile f false es

/-! ### Wing timing (R104 to R106) -/

/-- A product of `busy` compute cc on a wing: it starts 6 cc after issue or when the array frees, or 32 cc after issue when its
issue woke the wing (R104 to R106). -/
def State.wingRuns (s : State) (n : Nat) (f : Flight) (busy waits : Nat) : State :=
  let c := s.core n
  let start := match if f.ecls = 1 then c.wingEndA else c.wingEndB with
    | none => f.issued + (if f.woke then 32 else 6)
    | some l => max (f.issued + (if f.woke then 32 else 6)) (l + 1)
  let s := (s.perf n (if f.ecls = 1 then 2 else 3) busy).waited n (f.ecls - 1) waits
  let fin := start + busy + waits - 1
  s.modCore n fun c => if f.ecls = 1 then { c with wingEndA := some fin } else { c with wingEndB := some fin }

/-! ### MMA -/

/-- Does a scale run of a wing operand, the bytes of one group of K, begin off a 64 B boundary (R103; that a run is one group's
bytes is the model's reading, log entry 15). -/
def TDesc.runsAskew (d : TDesc) : Bool := d.fmt.narrow && d.ext.1 % 64 != 0 && decide (32 < d.ext.2.1)

/-- The checks of MMA at its start, as a status and descriptor slot (R200, R607). -/
def mmaCheck (f : Flight) : Nat × Nat :=
  let a := (dAt f.slots 0).t
  let b := (dAt f.slots 1).t
  let one (d : TDesc) : Nat :=
    let c := d.check ⟨[0], false⟩
    if c ≠ 0 then c else wingCheck d
  if 8 ≤ (vAt f.slots 2).toNat then (12, 0xFF)
  else if one a ≠ 0 then (one a, a.slot)
  else if one b ≠ 0 then (one b, b.slot)
  else if a.ext.2.1 ≠ b.ext.2.1 then (3, 0xFF)
  else if !pairingOk a.fmt b.fmt then (2, 0xFF)
  else if a.ext.2.1 % 32 ≠ 0 then (3, 0xFF)
  else if a.base % 64 ≠ 0 ∨ a.runsAskew then (4, a.slot)
  else if b.base % 64 ≠ 0 ∨ b.runsAskew then (4, b.slot)
  else (0, 0xFF)

/-- The elements of a product: rows of A by columns of B, on the tile's previous content in ACCUMULATE
mode (R90, R199). -/
def State.mmaElems (s : State) (n tile : Nat) (accum : Bool) (a b : TDesc) : List ElemOut :=
  let bs := (List.range b.ext.1).map (s.wingVector n b)
  (List.range a.ext.1).flatMap fun i =>
    let row := s.wingVector n a i
    bs.zipIdx.map fun c =>
      let (v, l) := dotElement (if accum then some (s.accGet n tile i c.2) else none) row c.1
      ⟨i, c.2, v, l⟩

/-- The effect of an MMA on its tile and reports, once its operands are admitted; it takes what it has read ahead (R109). A
product that a failing read ends records no event of MAT_NSTAT or MAT_INVCNT (the model's choice, log entry 19). -/
def mmaBody (n waits : Nat) (s : State) (f : Flight) : OpRes :=
  let (st, slot) := mmaCheck f
  if st ≠ 0 then refuse s st slot
  else
    let a := (dAt f.slots 0).t
    let b := (dAt f.slots 1).t
    let ctl := (vAt f.slots 2).toNat
    let tile := (if f.ecls = 2 then 4 else 0) + ctl % 4
    let accum := ctl / 4 % 2 == 1
    let v := s.seeing f.seen
    let s := s.wingRuns n f (a.ext.2.1 / 32 * ccPerGroup a.fmt b.fmt) waits
    match v.failsAt (operandAddrs n a ++ operandAddrs n b) with
    | g :: _ => refuse (s.reportUnit (f.ctx n) g) g.2 0xFF g.1
    | [] =>
      match if accum then v.accFirstBad n tile (grid a.ext.1 b.ext.1) else none with
      | some p => refuse (s.reportAcc n tile p f) 5
      | none =>
        let es := v.mmaElems n tile accum a b
        ⟨(es.foldl (fun s e => s.accSet n tile e.row e.col e.val) s).accumulated n tile f es, 0, 0, 0xFF⟩

/-- MMA (R199): wing `eng` of core `n` performs its next product, or reads part of its inputs. -/
def execMma (n eng waits : Nat) (s : State) (early : Early := {}) : Ans :=
  if eng = 1 ∨ eng = 2 then ok (runOp s n eng 0x20 early (mmaBody n waits)) else ok s

/-! ### MNS -/

/-- A square matrix by rows. -/
abbrev Mat := List (List W32)

/-- An element of a matrix. -/
def Mat.at (m : Mat) (i j : Nat) : W32 := (m.getD i []).getD j 0#32
/-- Apply a function of position and value. -/
def Mat.mapIdx (m : Mat) (g : Nat → Nat → W32 → W32) : Mat :=
  m.zipIdx.map fun r => r.1.zipIdx.map fun e => g r.2 e.2 e.1
/-- Columns as rows. -/
def Mat.transpose (sz : Nat) (m : Mat) : Mat := (List.range sz).map fun j => m.map fun r => r.getD j 0#32
/-- 1 on the diagonal. -/
def delta (i j : Nat) : W32 := if i = j then 0x3F800000#32 else 0#32

/-- One product in the sense of R79 with K = S, on BF16 values held as FP32. -/
def bfProduct (sz : Nat) (prev : Option Mat) (x w : Mat) : List ElemOut :=
  let cols := (Mat.transpose sz w).map fun c => c.map fvOf32
  x.zipIdx.flatMap fun r =>
    let row := r.1.map fvOf32
    cols.zipIdx.map fun c =>
      let (v, l) := dotElement (prev.map fun p => Mat.at p r.2 c.2) row c.1
      ⟨r.2, c.2, v, l⟩

/-- The matrix of a product's elements. -/
def matOf (sz : Nat) (es : List ElemOut) : Mat := groupsOf sz sz (es.map fun e => e.val)

/-- prod of R201: three products, high by high, high by low, low by high. -/
def mnsProd (sz : Nat) (x w : Mat) : Mat × List ElemOut :=
  let hi (m : Mat) : Mat := m.map fun r => r.map fun v => (rbf32 v).1
  let lo (m : Mat) : Mat := m.map fun r => r.map fun v => (rbf32 (fsub32 v (rbf32 v).1).1).1
  let e1 := bfProduct sz none (hi x) (hi w)
  let e2 := bfProduct sz (some (matOf sz e1)) (hi x) (lo w)
  let e3 := bfProduct sz (some (matOf sz e2)) (lo x) (hi w)
  (matOf sz e3, e1 ++ e2 ++ e3)

/-- The pairwise tree of add32 over adjacent pairs, log₂ S levels (R201). -/
def pairTree : Nat → List W32 → W32
  | 0, l => l.headD 0#32
  | k + 1, l => pairTree k (treeLevel l).1

/-- The iterations of run (R201): Y and Z with the products' elements. -/
def mnsIter (sz : Nat) : Nat → Mat → Mat → Mat × Mat × List ElemOut
  | 0, y, z => (y, z, [])
  | k + 1, y, z =>
    let (p, e1) := mnsProd sz z y
    let t := p.mapIdx fun i j v =>
      (fsub32 (if i = j then 0x3FC00000#32 else 0#32) (fmul32 0x3F000000#32 v).1).1
    let (y', e2) := mnsProd sz y t
    let (z', e3) := mnsProd sz t z
    let (yf, zf, es) := mnsIter sz k y' z'
    (yf, zf, e1 ++ e2 ++ e3 ++ es)

/-- The answer of a run. -/
structure RunOut where
  z : Mat
  y : Mat
  rho : W32
  r : W32
  ok : Bool
  log : List ElemOut
  deriving DecidableEq, Repr

/-- Is a value a positive normal number. -/
def posNormal (v : W32) : Bool := !bit v 31 && fld v 23 8 != 0 && fld v 23 8 != 255
/-- Is a value finite. -/
def finite32 (v : W32) : Bool := fld v 23 8 != 255

/-- run of R201. -/
def mnsRun (sz iter : Nat) (m : Mat) : RunOut :=
  let zero : Mat := List.replicate sz (List.replicate sz 0#32)
  let levels := if sz = 32 then 5 else 6
  if !(m.all fun r => r.all finite32) then ⟨zero, zero, inf32 false, 0#32, false, []⟩
  else
    let nu := (fsqrt32 (pairTree levels (m.map fun r => pairTree levels (r.map fun v => (fmul32 v v).1)))).1
    if !posNormal nu then ⟨zero, zero, inf32 false, 0#32, false, []⟩
    else
      let y0 := m.map fun r => r.map fun v => (fdiv32 v nu).1
      let (y, z, es) := mnsIter sz iter y0 (zero.mapIdx fun i j _ => delta i j)
      let (rr, e) := mnsProd sz z y
      let terms := (rr.mapIdx fun i j v => (fsub32 v (delta i j)).1 &&& 0x7FFFFFFF#32).flatten
      let rho := terms.foldl (fun a v => (fmax32 a v).1) 0#32
      let r := (fsqrt32 nu).1
      ⟨z.map fun row => row.map fun v => (fdiv32 v r).1, y, rho, r, finite32 rho, es ++ e⟩

/-- mns of R201: the result, rho, r1, whether every run was ok, and the products' elements. -/
def mnsCompute (sz iter : Nat) (root : Bool) (eps : W32) (a : Mat) : RunOut :=
  let m := a.mapIdx fun i j v => if i = j then (fadd32 v (eps &&& 0x7FFFFFFF#32)).1 else v
  let o := mnsRun sz iter m
  if root && o.ok then
    let o2 := mnsRun sz iter (o.y.map fun row => row.map fun v => (fmul32 v o.r).1)
    ⟨o2.z, o2.y, (fmax32 o.rho o2.rho).1, o.r, o2.ok, o.log ++ o2.log⟩
  else o

/-- Write every element of a tile with a value the spec does not state (R203). -/
def State.scrambleTile (s : State) (n t : Nat) : State :=
  let s' := (grid 64 64).foldl (fun s p =>
    s.accSet n t p.1 p.2 ((Config.freeWord (s.freeCtr + p.1 * 64 + p.2)).setWidth 32)) s
  { s' with freeCtr := s.freeCtr + 4096 }

/-- The effect of an MNS, once admitted (R201 to R205). All its events go to one of TOUT, W0 and W1: which, and that TIN is
none of them, is the model's choice (log entry 18). -/
def mnsBody (n waits : Nat) (s : State) (f : Flight) : OpRes :=
  let c := vAt f.slots 0
  let e := vAt f.slots 1
  let iter := fld c 8 6
  let tin := fld c 0 2
  let tout := fld c 2 2
  if fld c 14 50 ≠ 0 ∨ bit c 7 then refuse s 12
  else if iter = 0 ∨ tin = tout then refuse s 3
  else
    let sz := if bit c 4 then 64 else 32
    let root := bit c 5
    let wing := if f.ecls = 2 then 4 else 0
    let tRun := 290 + 96 * (sz / 32) + iter * (288 * (sz / 32) + 212)
    let v := s.seeing f.seen
    let s := s.wingRuns n f ((b2n root + 1) * tRun) waits
    match v.accFirstBad n (wing + tin) (grid sz sz) with
    | some p => refuse (s.reportAcc n (wing + tin) p f) 5
    | none =>
      let a : Mat := (List.range sz).map fun i => (List.range sz).map fun j => v.accGet n (wing + tin) i j
      let o := mnsCompute sz iter root (BitVec.ofNat 32 (fld e 0 32)) a
      let high := isNan32 o.rho || (fcmp32 4 o.rho (BitVec.ofNat 32 (fld e 32 32)) == some true) || !o.ok
      let work := ([0, 1, 2, 3].filter fun t => t != tin && t != tout).map (wing + ·)
      let w0 := work.headD 0
      let w1 := work.getD 1 0
      let pick := (Config.freeWord s.freeCtr).toNat % 3
      let s := { s with freeCtr := s.freeCtr + 1 }
      let s := s.accumulated n ([wing + tout, w0, w1].getD pick 0) f o.log
      let s := ((s.scrambleTile n w0).scrambleTile n w1).scrambleTile n (wing + tin)
      let s := ((s.accSet n w0 0 0 o.rho).accSet n w0 0 1 (if high then 0x3F800000#32 else 0#32)).accSet n w0 0 2 o.r
      let s := if high && bit c 6 then s
        else (grid sz sz).foldl (fun s p =>
          s.accSet n (wing + tout) p.1 p.2 (if o.ok then o.z.at p.1 p.2 else 0#32)) s
      let s := if high then s.raise .matNsstat n 0 (f.ecls - 1) else s
      ⟨s, 0, 0, 0xFF⟩

/-- MNS (R201): wing `eng` of core `n` performs its next inverse root, or reads part of its input. -/
def execMns (n eng waits : Nat) (s : State) (early : Early := {}) : Ans :=
  if eng = 1 ∨ eng = 2 then ok (runOp s n eng 0x21 early (mnsBody n waits)) else ok s

end Sys2Proof.Machine
end

