-- ==== Sys2Proof/Machine/Accum.lean ====
section
/-! DEFINITION. Accumulator load, drain and clear (R107 to R111, R206 to R209). -/

namespace Sys2Proof.Machine

/-- The requirements of R206 and R207, in their order: FMT, SHAPE, ADDR (with the other checks of R192),
ALIGN; 0 if they hold. -/
def accShape (d : TDesc) (dest : Bool) : Nat :=
  if d.num.fmt ≠ 0 ∧ d.num.fmt ≠ 1 then 2
  else if d.ext ≠ (64, 64, 1, 1) then 3
  else if d.check ⟨[0], dest⟩ ≠ 0 then d.check ⟨[0], dest⟩
  else if d.base % 64 ≠ 0 ∨ d.str.1 % 64 ≠ 0 then 4
  else 0

/-- Lines per row: 4 for FP32, 2 for BF16. -/
def rowLines (d : TDesc) : Nat := if d.fmt = .fp32 then 4 else 2

/-- The cc of each line access, one per bank per cc in the order given, none before its line is ready (R112, R209), with the
first cc free of each bank afterwards. Each item is a bank and the first cc in which it may be accessed. -/
def bankSchedule (free : List (Nat × Nat)) (items : List (Nat × Nat)) : List (Nat × Nat) × List Nat :=
  items.foldl (fun (r : List (Nat × Nat) × List Nat) e =>
    let cc := max e.2 (Sparse.get 0 r.1 e.1)
    (Sparse.set 0 r.1 e.1 (cc + 1), r.2 ++ [cc])) (free, [])

/-- The cc in which an ACC operation starts (R139). -/
def CoreSt.accStart (c : CoreSt) (f : Flight) : Nat := max (f.issued + 6) c.accFree

/-- Lines of the drain buffer (R209). -/
def drainRoom : Nat := 512

/-- The cc in which a drain of `k` lines starts: the buffer, whose lines are written in the cc of `lines`, has room for all of
them (R209). -/
def drainStart (lines : List Nat) (k start : Nat) : Nat :=
  let sorted := lines.insertionSort (· ≤ ·)
  if sorted.length + k ≤ drainRoom then start
  else max start (sorted.getD (sorted.length + k - drainRoom - 1) 0 + 1)

/-- The lines of the 64 rows as addresses, row by row. -/
def rowLineAddrs (n : Nat) (d : TDesc) : List Nat :=
  (List.range 64).flatMap fun r => (List.range (rowLines d)).map fun k => d.addr n (r * d.str.1 + 64 * k)

/-- The cc in which each row of a load is written: the cc after its last line is read, one row per cc. -/
def loadWrites (ready : List Nat) : List Nat :=
  (ready.foldl (fun (r : Option Nat × List Nat) c =>
    let w := match r.1 with
      | some p => max (c + 1) (p + 1)
      | none => c + 1
    (some w, r.2 ++ [w])) (none, [])).2

/-- ALD's effect once admitted: rows into the tile; from the cc of a failing read on nothing is written
(R206, R608). -/
def aldBody (n waits : Nat) (s : State) (f : Flight) : OpRes :=
  let d := (dAt f.slots 0).t
  let ctl := (vAt f.slots 1).toNat
  if 8 ≤ ctl then refuse s 12
  else if accShape d false ≠ 0 then refuse s (accShape d false) d.slot
  else
    let v := s.seeing f.seen
    let s := s.waited n 2 waits
    let l := rowLines d
    let as := rowLineAddrs n d
    let cc := (bankSchedule [] (as.map fun a => (bankOf (spadOff a), 0))).2
    let s := s.modCore n fun c => { c with accFree := c.accStart f + cc.foldl max 0 + 1 + waits }
    let ready := (groupsOf l 64 cc).map fun g => g.foldl max 0
    let fails := (as.zip cc).filterMap fun e =>
      ((v.failsAt ((List.range 8).map fun i => e.1 + 8 * i)).head?).map fun g => (e.2, g)
    let first := fails.foldl (fun (b : Option (Nat × Nat × Nat)) h => match b with
      | some x => if h.1 < x.1 then some h else some x
      | none => some h) none
    let stop := first.map Prod.fst
    let rows := (List.range 64).zip (loadWrites ready) |>.filter fun r => match stop with
      | some c => decide (r.2 < c)
      | none => true
    let s := rows.foldl (fun s r => (List.range 64).foldl (fun s j =>
      let x := BitVec.ofNat 32 (v.elem n d (r.1 * 64 + j) * (if l = 4 then 1 else 2 ^ 16))
      s.accSet n (ctl % 8) r.1 j (if l = 4 then x else canon32 x)) s) s
    match first with
    | some (_, g) => refuse (s.reportUnit (f.ctx n) g) g.2 0xFF g.1
    | none => ⟨s, 0, 0, 0xFF⟩

/-- ALD (R206). -/
def execAld (n waits : Nat) (s : State) (early : Early := {}) : Ans := ok (runOp s n 3 0x30 early (aldBody n waits))

/-- The value a drain reads for destination row `r`, column `j` (R207). -/
def State.drainVal (s : State) (n tile : Nat) (col : Bool) (r j : Nat) : W32 :=
  if col then s.accGet n tile j r else s.accGet n tile r j

/-- Write whole lines in their order, but for the words lost at port 1 (R118); the failing units with their status, lost words
last. -/
def writeLines (lost : List Nat) (ls : List (Nat × List Byte)) (s : State) : State × List (Nat × Nat) :=
  let (ws, gone) := splitWrites (s.writeLost 2 lost) (ls.flatMap fun e => wholeWrites e.1 e.2)
  let (s, fs) := s.writeAll ws
  (s.noteLost gone, fs ++ gone.map fun w => (granule w.addr, 7))

/-- ADR's effect once admitted: row or column r is read in cc start + r and its lines are written after it from the drain
buffer, behind the lines that wait there; from the cc of a failing read on nothing is written (R207, R209, R608). Of several
failures the read gives the status, then a bank that is not on, then a lost word (log entry 66). -/
def adrBody (n waits : Nat) (lost : List Nat) (s : State) (f : Flight) : OpRes :=
  let d := (dAt f.slots 0).t
  let ctl := (vAt f.slots 1).toNat
  if 16 ≤ ctl then refuse s 12
  else if accShape d true ≠ 0 then refuse s (accShape d true) d.slot
  else
    let v := s.seeing f.seen
    let s := s.waited n 2 waits
    let tile := ctl % 8
    let col := ctl / 8 == 1
    let l := rowLines d
    let as := rowLineAddrs n d
    let c := s.core n
    let start := drainStart c.drainLines as.length (c.accStart f)
    let bad := (grid 64 64).find? fun p => if col then v.accFails n tile p.2 p.1 else v.accFails n tile p.1 p.2
    let stop := bad.map fun p => start + p.1
    let rows := (List.range 64).filter fun r => match stop with
      | some x => decide (start + r < x)
      | none => true
    let outs := rows.map fun r => (List.range 64).map fun j =>
      cvtElem d.fmt (d.num.rmAt d.seed (r * 64 + j)) d.num.sat 0 (v.drainVal n tile col r j)
    let ev := outs.flatten.foldl (fun e o => e.join o.2) {}
    let (free, cc) := bankSchedule c.drainBanks (as.zipIdx.map fun a => (bankOf (spadOff a.1), start + a.2 / l + 1))
    let bytes := outs.flatMap fun row => row.flatMap fun o => leBytes (d.w / 8) o.1
    let lines := (as.zip cc).zipIdx.filter fun e => match stop with
      | some x => decide (e.1.2 < x)
      | none => true
    let s := s.modCore n fun c =>
      { c with accFree := start + 64, drainBanks := if bad.isSome then c.drainBanks else free,
               drainLines := (c.drainLines.filter fun x => decide (start ≤ x)) ++ lines.map fun e => e.1.2 }
    let (s, fs) := writeLines lost (lines.map fun e => (e.1.1, (bytes.drop (64 * e.2)).take 64)) s
    let s := s.cvtEvents n ev
    match bad, fs with
    | some p, _ => refuse (s.reportAcc n tile (if col then (p.2, p.1) else p) f) 5
    | none, g :: _ => refuse (s.reportUnit (f.ctx n) g) g.2 0xFF g.1
    | none, [] => ⟨s, 0, 0, 0xFF⟩

/-- ADR (R207). -/
def execAdr (n waits : Nat) (s : State) (early : Early := {}) (lost : List Nat := []) : Ans :=
  ok (runOp s n 3 0x31 early (adrBody n waits lost))

/-- AZERO's effect: +0 in every row, valid (R208). -/
def azeroBody (n waits : Nat) (s : State) (f : Flight) : OpRes :=
  let ctl := (vAt f.slots 0).toNat
  if 8 ≤ ctl then refuse s 12
  else
    let s := (s.waited n 2 waits).modCore n fun c => { c with accFree := c.accStart f + 64 }
    ⟨(grid 64 64).foldl (fun s p => s.accSet n ctl p.1 p.2 0#32) s, 0, 0, 0xFF⟩

/-- AZERO (R208). -/
def execAzero (n waits : Nat) (s : State) : Ans := ok (runOp s n 3 0x32 {} (azeroBody n waits))

end Sys2Proof.Machine
end

