-- ==== Sys2Proof/Machine/Lanes.lean ====
section
/-! DEFINITION. Lane instructions (Tables 7.1 to 7.5): the lane registers and flag, the effect of each
instruction as a function of register values, and each instruction's meaning on one lane. -/

namespace Sys2Proof.Machine

/-- The key of a lane register (Table 7.1). -/
def laneKey (n l r : Nat) : Nat := (n * 64 + l) * 32 + r

/-- A lane register. -/
def State.lane (s : State) (n l r : Nat) : W32 := Sparse.get 0#32 s.lanes (laneKey n l r)
/-- Set a lane register. -/
def State.setLane (s : State) (n l r : Nat) (v : W32) : State :=
  { s with lanes := Sparse.set 0#32 s.lanes (laneKey n l r) v }
/-- The lane flag F. -/
def State.laneFlag (s : State) (n l : Nat) : Bool := Sparse.get false s.laneF (n * 64 + l)
/-- Set the lane flag. -/
def State.setLaneFlag (s : State) (n l : Nat) (b : Bool) : State :=
  { s with laneF := Sparse.set false s.laneF (n * 64 + l) b }

/-- Does the predicate hold (Table 7.2). -/
def predHolds (pred : Nat) (f first last : Bool) : Bool :=
  match pred with
  | 0 => true
  | 1 => f
  | 2 => first
  | _ => last

/-- Operations on one, two and three source registers, by lane opcode (Table 7.3); the answer carries the
events of R238. -/
def laneAlu (op : Nat) (a b c : W32) (f : Bool) : W32 × Ev :=
  match op with
  | 0x01 => (a, {})
  | 0x03 => (if f then a else b, {})
  | 0x08 => fadd32 a b
  | 0x09 => fsub32 a b
  | 0x0A => fmul32 a b
  | 0x0B => fma32 a b c
  | 0x0C => fmin32 a b
  | 0x0D => fmax32 a b
  | 0x0E => (a &&& 0x7FFFFFFF#32, {})
  | 0x0F => (a ^^^ 0x80000000#32, {})
  | 0x11 => cvtif32 a
  | 0x12 => cvtfi32 a
  | 0x13 => rbf32 a
  | 0x18 => frcp32 a
  | 0x19 => fdiv32 a b
  | 0x1A => fsqrt32 a
  | 0x1B => frsqrt32 a
  | 0x1C => fexp232 a
  | 0x1D => fexp32 a
  | 0x1E => flog232 a
  | 0x1F => fln32 a
  | 0x20 => ftanh32 a
  | 0x21 => fsigm32 a
  | 0x22 => ferf32 a
  | 0x28 => (a + b, {})
  | 0x29 => (a - b, {})
  | 0x2A => (a * b, {})
  | 0x2B => (a &&& b, {})
  | 0x2C => (a ||| b, {})
  | 0x2D => (a ^^^ b, {})
  | 0x2E => (a <<< fld b 0 5, {})
  | 0x2F => (a >>> fld b 0 5, {})
  | 0x30 => (a.sshiftRight (fld b 0 5), {})
  | 0x31 => (if a.slt b then a else b, {})
  | 0x32 => (if b.slt a then a else b, {})
  | 0x38 => (rng32 a b c, {})
  | _ => (0#32, {})

/-- Cycles of each lane opcode (Table 7.3); 0 for a reserved code. -/
def laneCycles (op : Nat) : Nat :=
  match op with
  | 0x00 | 0x01 | 0x03 | 0x08 | 0x09 | 0x0A | 0x0B | 0x0C | 0x0D | 0x0E | 0x0F | 0x10 | 0x11 | 0x12 | 0x13 => 1
  | 0x02 => 2
  | 0x18 => 4
  | 0x19 | 0x1A | 0x1B => 6
  | 0x1C => 5
  | 0x1D | 0x1E => 6
  | 0x1F => 7
  | 0x20 | 0x21 => 8
  | 0x22 => 10
  | 0x28 | 0x29 | 0x2A | 0x2B | 0x2C | 0x2D | 0x2E | 0x2F | 0x30 | 0x31 | 0x32 | 0x33 => 1
  | 0x38 => 2
  | _ => 0

/-- Which of the fields D, A, B, C, MOD an opcode uses (R227, Table 7.3). -/
structure LaneUse where
  d : Bool := false
  a : Bool := false
  b : Bool := false
  c : Bool := false
  md : Bool := false
  deriving DecidableEq, Repr

/-- The fields used by each opcode. -/
def laneUse (op : Nat) : LaneUse :=
  match op with
  | 0x00 => {}
  | 0x02 => { d := true }
  | 0x0B | 0x38 => { d := true, a := true, b := true, c := true }
  | 0x10 | 0x33 => { a := true, b := true, md := true }
  | 0x01 | 0x0E | 0x0F | 0x11 | 0x12 | 0x13 | 0x18 | 0x1A | 0x1B | 0x1C | 0x1D | 0x1E | 0x1F | 0x20 | 0x21 | 0x22 =>
    { d := true, a := true }
  | _ => { d := true, a := true, b := true }

/-- The condition of FCMP and ICMP (R239); a reserved code is no condition. -/
def laneCond (op md : Nat) (a b : W32) : Option Bool := if op = 0x10 then fcmp32 md a b else icmp32 md a b

/-! ### One instruction on one lane -/

/-- Execute an instruction that writes register `d` on a lane, if its predicate holds. An inactive lane
records no event (R223, R228). -/
def laneWrite (x : LaneSite) (d : Nat) (val : State → W32 × Ev) (s : State) : Ans :=
  if predHolds x.pred (s.laneFlag x.core x.lane) x.first x.last then
    let (v, e) := val s
    let s := s.setLane x.core x.lane d v
    ok (if x.active then s.laneEvents x.core e else s)
  else ok s

/-- One source register. -/
def lane1 (op : Nat) (x : LaneSite) (d a : Nat) (s : State) : Ans :=
  laneWrite x d (fun s => laneAlu op (s.lane x.core x.lane a) 0#32 0#32 false) s

/-- Two source registers and the flag. -/
def lane2 (op : Nat) (x : LaneSite) (d a b : Nat) (s : State) : Ans :=
  laneWrite x d (fun s => laneAlu op (s.lane x.core x.lane a) (s.lane x.core x.lane b) 0#32
    (s.laneFlag x.core x.lane)) s

/-- Three source registers. -/
def lane3 (op : Nat) (x : LaneSite) (d a b c : Nat) (s : State) : Ans :=
  laneWrite x d (fun s => laneAlu op (s.lane x.core x.lane a) (s.lane x.core x.lane b) (s.lane x.core x.lane c) false) s

/-- A comparison sets the flag; SKKLD admits no reserved condition (R232), and one changes nothing. -/
def laneCmp (op : Nat) (x : LaneSite) (md a b : Nat) (s : State) : Ans :=
  if predHolds x.pred (s.laneFlag x.core x.lane) x.first x.last then
    match laneCond op md (s.lane x.core x.lane a) (s.lane x.core x.lane b) with
    | some t => ok (s.setLaneFlag x.core x.lane t)
    | none => ok s
  else ok s

/-- NOP. -/
def execLaneNop (_ : LaneSite) (s : State) : Ans := ok s
/-- LDI: the next instruction word. -/
def execLaneLdi (x : LaneSite) (d : Nat) (imm : W32) (s : State) : Ans := laneWrite x d (fun _ => (imm, {})) s
/-- FCMP (R239). -/
def execLaneFcmp (x : LaneSite) (md a b : Nat) (s : State) : Ans := laneCmp 0x10 x md a b s
/-- ICMP (R239). -/
def execLaneIcmp (x : LaneSite) (md a b : Nat) (s : State) : Ans := laneCmp 0x33 x md a b s
/-- FMA, rounded once (R236). -/
def execLaneFma (x : LaneSite) (d a b c : Nat) (s : State) : Ans := lane3 0x0B x d a b c s
/-- RNG (R230). -/
def execLaneRng (x : LaneSite) (d a b c : Nat) (s : State) : Ans := lane3 0x38 x d a b c s
/-- MOV (Table 7.3). -/
def execLaneMov (x : LaneSite) (d a : Nat) (s : State) : Ans := lane1 0x01 x d a s
/-- FABS (Table 7.3). -/
def execLaneFabs (x : LaneSite) (d a : Nat) (s : State) : Ans := lane1 0x0E x d a s
/-- FNEG (Table 7.3). -/
def execLaneFneg (x : LaneSite) (d a : Nat) (s : State) : Ans := lane1 0x0F x d a s
/-- CVTIF (Table 7.3). -/
def execLaneCvtif (x : LaneSite) (d a : Nat) (s : State) : Ans := lane1 0x11 x d a s
/-- CVTFI (Table 7.3). -/
def execLaneCvtfi (x : LaneSite) (d a : Nat) (s : State) : Ans := lane1 0x12 x d a s
/-- RBF (Table 7.3). -/
def execLaneRbf (x : LaneSite) (d a : Nat) (s : State) : Ans := lane1 0x13 x d a s
/-- RCP (Table 7.3). -/
def execLaneRcp (x : LaneSite) (d a : Nat) (s : State) : Ans := lane1 0x18 x d a s
/-- SQRT (Table 7.3). -/
def execLaneSqrt (x : LaneSite) (d a : Nat) (s : State) : Ans := lane1 0x1A x d a s
/-- RSQRT (Table 7.3). -/
def execLaneRsqrt (x : LaneSite) (d a : Nat) (s : State) : Ans := lane1 0x1B x d a s
/-- EXP2 (Table 7.3). -/
def execLaneExp2 (x : LaneSite) (d a : Nat) (s : State) : Ans := lane1 0x1C x d a s
/-- EXP (Table 7.3). -/
def execLaneExp (x : LaneSite) (d a : Nat) (s : State) : Ans := lane1 0x1D x d a s
/-- LOG2 (Table 7.3). -/
def execLaneLog2 (x : LaneSite) (d a : Nat) (s : State) : Ans := lane1 0x1E x d a s
/-- LN (Table 7.3). -/
def execLaneLn (x : LaneSite) (d a : Nat) (s : State) : Ans := lane1 0x1F x d a s
/-- TANH (Table 7.3). -/
def execLaneTanh (x : LaneSite) (d a : Nat) (s : State) : Ans := lane1 0x20 x d a s
/-- SIGM (Table 7.3). -/
def execLaneSigm (x : LaneSite) (d a : Nat) (s : State) : Ans := lane1 0x21 x d a s
/-- ERF (Table 7.3). -/
def execLaneErf (x : LaneSite) (d a : Nat) (s : State) : Ans := lane1 0x22 x d a s
/-- FSEL (Table 7.3). -/
def execLaneFsel (x : LaneSite) (d a b : Nat) (s : State) : Ans := lane2 0x03 x d a b s
/-- FADD (Table 7.3). -/
def execLaneFadd (x : LaneSite) (d a b : Nat) (s : State) : Ans := lane2 0x08 x d a b s
/-- FSUB (Table 7.3). -/
def execLaneFsub (x : LaneSite) (d a b : Nat) (s : State) : Ans := lane2 0x09 x d a b s
/-- FMUL (Table 7.3). -/
def execLaneFmul (x : LaneSite) (d a b : Nat) (s : State) : Ans := lane2 0x0A x d a b s
/-- FMIN (Table 7.3). -/
def execLaneFmin (x : LaneSite) (d a b : Nat) (s : State) : Ans := lane2 0x0C x d a b s
/-- FMAX (Table 7.3). -/
def execLaneFmax (x : LaneSite) (d a b : Nat) (s : State) : Ans := lane2 0x0D x d a b s
/-- DIV (Table 7.3). -/
def execLaneDiv (x : LaneSite) (d a b : Nat) (s : State) : Ans := lane2 0x19 x d a b s
/-- IADD (Table 7.3). -/
def execLaneIadd (x : LaneSite) (d a b : Nat) (s : State) : Ans := lane2 0x28 x d a b s
/-- ISUB (Table 7.3). -/
def execLaneIsub (x : LaneSite) (d a b : Nat) (s : State) : Ans := lane2 0x29 x d a b s
/-- IMUL (Table 7.3). -/
def execLaneImul (x : LaneSite) (d a b : Nat) (s : State) : Ans := lane2 0x2A x d a b s
/-- AND (Table 7.3). -/
def execLaneAnd (x : LaneSite) (d a b : Nat) (s : State) : Ans := lane2 0x2B x d a b s
/-- OR (Table 7.3). -/
def execLaneOr (x : LaneSite) (d a b : Nat) (s : State) : Ans := lane2 0x2C x d a b s
/-- XOR (Table 7.3). -/
def execLaneXor (x : LaneSite) (d a b : Nat) (s : State) : Ans := lane2 0x2D x d a b s
/-- SHL (Table 7.3). -/
def execLaneShl (x : LaneSite) (d a b : Nat) (s : State) : Ans := lane2 0x2E x d a b s
/-- SHR (Table 7.3). -/
def execLaneShr (x : LaneSite) (d a b : Nat) (s : State) : Ans := lane2 0x2F x d a b s
/-- SAR (Table 7.3). -/
def execLaneSar (x : LaneSite) (d a b : Nat) (s : State) : Ans := lane2 0x30 x d a b s
/-- IMIN (Table 7.3). -/
def execLaneImin (x : LaneSite) (d a b : Nat) (s : State) : Ans := lane2 0x31 x d a b s
/-- IMAX (Table 7.3). -/
def execLaneImax (x : LaneSite) (d a b : Nat) (s : State) : Ans := lane2 0x32 x d a b s

end Sys2Proof.Machine
end

