-- ==== Sys2Proof/Machine/Skipper.lean ====
section
/-! DEFINITION. Skipper operations (R210 to R212, R222 to R252, R609): their checks at the start, one
beat of 64 elements through the lanes, the output writes with their cc, and kernel loading. -/

namespace Sys2Proof.Machine

/-! ### Kernels -/

/-- A lane instruction word (Table 7.2). -/
structure LaneWord where
  op : Nat
  d : Nat
  a : Nat
  b : Nat
  c : Nat
  pred : Nat
  md : Nat
  deriving DecidableEq, Repr

/-- The fields of a lane instruction word. -/
def LaneWord.ofWord (w : W32) : LaneWord :=
  ⟨fld w 26 6, fld w 21 5, fld w 16 5, fld w 11 5, fld w 6 5, fld w 4 2, fld w 0 4⟩

/-- Is a condition code valid for the opcode (Table 7.5). -/
def condOk (op md : Nat) : Bool :=
  if op = 0x10 then decide (md < 7) else if op = 0x33 then decide (md < 9 ∧ md ≠ 6) else md == 0

/-- Does a word obey R227 and R229. -/
def LaneWord.ok (w : LaneWord) : Bool :=
  let u := laneUse w.op
  let src (used : Bool) (r : Nat) : Bool := if used then r != 28 && r != 29 else r == 0
  let dst : Bool := if u.d then decide (w.d < 24 ∨ w.d = 28 ∨ w.d = 29) else w.d == 0
  laneCycles w.op != 0 && dst && src u.a w.a && src u.b w.b && src u.c w.c && condOk w.op w.md

/-- Does a kernel's instruction list obey R227 and R229; the word after an LDI is no instruction. -/
def kernelOk : List W32 → Bool
  | [] => true
  | [w] => (LaneWord.ofWord w).ok && (LaneWord.ofWord w).op != 2
  | w :: v :: t => (LaneWord.ofWord w).ok && (if (LaneWord.ofWord w).op = 2 then kernelOk t else kernelOk (v :: t))
termination_by structural l => l

/-- The beat count I of a kernel (R228). -/
def kernelCycles : List W32 → Nat
  | [] => 0
  | [w] => laneCycles (LaneWord.ofWord w).op
  | w :: v :: t =>
    laneCycles (LaneWord.ofWord w).op +
      (if (LaneWord.ofWord w).op = 2 then kernelCycles t else kernelCycles (v :: t))
termination_by structural l => l

/-- A lane while a kernel runs on it: its registers, F, which outputs it wrote and its events. -/
structure LaneRun where
  regs : List W32
  f : Bool
  w0 : Bool
  w1 : Bool
  ev : Ev
  deriving DecidableEq, Repr

/-- Write a lane register. -/
def LaneRun.put (r : LaneRun) (d : Nat) (v : W32) (e : Ev) : LaneRun :=
  { r with regs := r.regs.set d v, w0 := r.w0 || d == 28, w1 := r.w1 || d == 29, ev := r.ev.join e }

/-- A register of a running lane. -/
def LaneRun.reg (r : LaneRun) (i : Nat) : W32 := r.regs.getD i 0#32

/-- One instruction other than LDI (R228). -/
def LaneRun.step (first last : Bool) (w : LaneWord) (r : LaneRun) : LaneRun :=
  if !predHolds w.pred r.f first last then r
  else if w.op = 0x10 ∨ w.op = 0x33 then
    match laneCond w.op w.md (r.reg w.a) (r.reg w.b) with
    | some t => { r with f := t }
    | none => r
  else if (laneUse w.op).d then
    let o := laneAlu w.op (r.reg w.a) (r.reg w.b) (r.reg w.c) r.f
    r.put w.d o.1 o.2
  else r

/-- A kernel on one lane; an LDI takes the word after it. -/
def runKernel (first last : Bool) : List W32 → LaneRun → LaneRun
  | [], r => r
  | [w], r => r.step first last (LaneWord.ofWord w)
  | w :: v :: t, r =>
    let lw := LaneWord.ofWord w
    if lw.op = 2 then
      runKernel first last t (if predHolds lw.pred r.f first last then r.put lw.d v {} else r)
    else runKernel first last (v :: t) (r.step first last lw)
termination_by structural l => l

/-! ### Streams -/

/-- The checks of a stream: R192, then R211 for an accumulator stream. -/
def streamCheck (d : TDesc) (dest : Bool) : Nat :=
  let c := d.check ⟨if dest then [0] else [0, 3], dest⟩
  if c ≠ 0 then c else if d.space = 3 ∧ (d.ext.1 ≠ 64 ∨ 64 < d.rows) then 3 else 0

/-- The first check of a list that fails, with its descriptor slot. -/
def firstFail (l : List (Nat × Nat)) : Nat × Nat := (l.find? fun e => e.1 != 0).getD (0, 0xFF)

/-- λ of a stream: 1 for an accumulator stream. -/
def streamLambda (d : TDesc) : Nat := if d.space = 3 then 1 else cdiv d.w 8

/-- Tile element `k` of an accumulator stream, as row and column of the tile (Table 6.4). -/
def accAt (d : TDesc) (k : Nat) : Nat × Nat := if d.base / 8 % 2 = 1 then (k % 64, k / 64) else (k / 64, k % 64)

/-- Element `k` of an input stream as its lane receives it (R58, R240). -/
def State.laneIn (s : State) (n : Nat) (d : TDesc) (raw : Bool) (k : Nat) : W32 × CvtEv :=
  if d.space = 3 then (s.accGet n (d.base % 8) (accAt d k).1 (accAt d k).2, {})
  else
    let c := s.elem n d k
    if raw then
      (if d.fmt = .int8 true ∨ d.fmt = .int4 true then BitVec.ofInt 32 (toSigned d.w c) else BitVec.ofNat 32 c, {})
    else expandElem d.fmt c (s.scaleOf n d k)

/-- A failing read of a beat: its cc, the tile position of an accumulator element or the check unit. -/
structure ReadFail where
  cc : Nat
  acc : Option (Nat × Nat × Nat)
  unit : Nat
  status : Nat
  deriving DecidableEq, Repr

/-- The lines of elements of a scratchpad stream in the order in which they are read, one per cc (R248). -/
def beatLines (n : Nat) (d : TDesc) (ks : List Nat) : List Nat :=
  if d.space = 3 then [] else ((ks.flatMap (elemAddrs n d)).map (· / 64)).eraseDups

/-- The failing reads among elements `ks` of a stream whose beat begins in cc `t`: one line per cc, the
scale line with the first (R246, R248). Of an accumulator stream the port reads whole rows or columns (R107, R211). -/
def State.readFails (s : State) (n : Nat) (d : TDesc) (raw : Bool) (t : Nat) (ks : List Nat) : List ReadFail :=
  if d.space = 3 then
    (((ks.map (· / 64)).eraseDups).flatMap fun r => (List.range 64).map (64 * r + ·)).filterMap fun k =>
      let p := accAt d k
      if s.accFails n (d.base % 8) p.1 p.2 then some ⟨t, some (d.base % 8, p), 0, 5⟩ else none
  else
    let lines := beatLines n d ks
    let el := (s.failsAt (ks.flatMap (elemAddrs n d))).map fun g => (⟨t + lines.idxOf (g.1 / 64), none, g.1, g.2⟩ : ReadFail)
    if d.fmt.narrow && !raw then
      el ++ (s.failsAt (ks.map fun k => d.addr n (d.scalePos k))).map fun g => ⟨t, none, g.1, g.2⟩
    else el

/-- The earliest failing read. -/
def earliest (l : List ReadFail) : Option ReadFail :=
  l.foldl (fun b x => match b with
    | some y => if x.cc < y.cc then some x else some y
    | none => some x) none

/-! ### Output writes (R241 to R245, R248, R249, R609) -/

/-- Place a line write in its cc, behind the writes already there. -/
def place (cc : Nat) (ws : List MWrite) : List (Nat × List MWrite) → List (Nat × List MWrite)
  | [] => [(cc, ws)]
  | e :: t => if e.1 ≤ cc then e :: place cc ws t else (cc, ws) :: e :: t

/-- The writes of one access as lines, in the order in which the lines are first touched; within a line
the writes of one check unit stand together. -/
def byLines (ws : List MWrite) : List (List MWrite) :=
  ((ws.map fun w => w.addr / 64).eraseDups).map fun l =>
    let ln := ws.filter fun w => w.addr / 64 == l
    ((ln.map fun w => granule w.addr).eraseDups).flatMap fun g => ln.filter fun w => granule w.addr == g

/-- Place lines in consecutive cc from `cc`. -/
def placeLines (cc : Nat) (q : List (Nat × List MWrite)) (ls : List (List MWrite)) : List (Nat × List MWrite) :=
  ls.zipIdx.foldl (fun q e => place (cc + e.2) e.1 q) q

/-- An output stream with the queue and the conversion events of what it has done. -/
structure OutRes where
  o : OutStream
  queue : List (Nat × List MWrite)
  ev : CvtEv
  deriving DecidableEq, Repr

/-- Write out the scale bytes of the lines that `done` admits (those of a line number), in cc `ts` or the first later cc free;
later element lines come no earlier (R609). -/
def flushScales (n : Nat) (ts : Nat) (done : Nat → Bool) (r : OutRes) : OutRes :=
  let d := r.o.desc.t
  let lineOf (p : Nat) : Nat := (p - up64 d.size) / 64
  let (out, keep) := r.o.scales.partition fun e => done (lineOf e.1)
  if out.isEmpty then r
  else
    let ls := byLines (out.map fun e => .mk (d.addr n e.1) 0xFF#8 (BitVec.ofNat 8 e.2))
    let cc := max ts r.o.freeS
    let last := cc + ls.length
    ⟨{ r.o with scales := keep, freeS := last, freeE := max r.o.freeE (last - 1) }, placeLines cc r.queue ls, r.ev⟩

/-- Convert values at element positions block by block: the codes with their positions, the scale bytes
with theirs, what the stream observed and the events (R65 to R70, R243). -/
def convertOut (o : OutStream) (vals : List (Nat × W32)) : List (Nat × Nat) × List (Nat × Nat) × OutStream × CvtEv :=
  let d := o.desc.t
  let code (v : W32) : Nat := v.toNat % 2 ^ d.w
  if d.fmt.narrow then
    ((vals.map fun v => d.blockFirst v.1).eraseDups).foldl (fun (r : _ × _ × OutStream × CvtEv) b =>
      let vs := vals.filter fun v => d.blockFirst v.1 == b
      if o.raw then
        (r.1 ++ vs.map fun v => (v.1, code v.2), r.2.1 ++ [(d.scalePos b, 0x7F)], r.2.2.1, r.2.2.2)
      else
        let ws := vs.map Prod.snd
        let sc := if d.num.ssrc then o.scale else blockScale d.fmt ws
        let c := cvtBlock d.fmt d.num.sat sc (vs.map fun v => (d.num.rmAt d.seed v.1, v.2))
        let a := (fmax32 r.2.2.1.amax (amaxOf ws)).1
        (r.1 ++ (vs.map Prod.fst).zip c.codes, r.2.1 ++ [(d.scalePos b, c.scale)],
          { r.2.2.1 with amax := a, clipped := r.2.2.1.clipped || c.ev.clip }, r.2.2.2.join c.ev))
      ([], [], o, {})
  else
    let cs := vals.map fun v =>
      if o.raw then (v.1, code v.2, ({} : CvtEv))
      else
        let c := cvtElem d.fmt (d.num.rmAt d.seed v.1) d.num.sat 0 v.2
        (v.1, c.1, c.2)
    (cs.map fun c => (c.1, c.2.1), [], o, cs.foldl (fun e c => e.join c.2.2) {})

/-- Codes in the order of the values they come from, which is walk order (R191). -/
def inWalkOrder (vals : List (Nat × W32)) (cs : List (Nat × Nat)) : List (Nat × Nat) :=
  vals.filterMap fun v => cs.find? fun c => c.1 == v.1

/-- Write values out: element lines in consecutive cc that end at `te` but begin no earlier than `t0`, or the first later ones
free; scale lines once complete, or at once from cc `ts` and behind the element lines for a block group. -/
def flushVals (n : Nat) (t0 te : Nat) (ts : Option Nat) (r : OutRes) (vals : List (Nat × W32)) : OutRes :=
  if vals.isEmpty then r
  else
    let d := r.o.desc.t
    let (cs, scs, o, ev) := convertOut r.o vals
    let ls := byLines ((inWalkOrder vals cs).flatMap fun c => elemWrites n d c.1 c.2)
    let cc := max (max (te + 1 - ls.length) t0) o.freeE
    let o := { o with freeE := cc + ls.length,
                      scales := scs.foldl (fun l e => (l.filter fun x => x.1 != e.1) ++ [e]) o.scales }
    let r := (⟨o, placeLines cc r.queue ls, r.ev.join ev⟩ : OutRes)
    match ts with
    | some t => flushScales n (max t o.freeE) (fun _ => true) r
    | none =>
      let full (l : Nat) : Bool :=
        (o.scales.filter fun e => (e.1 - up64 d.size) / 64 == l).length == min 64 (d.blocks - 64 * l)
      flushScales n (o.freeE - 1) full r

/-- Does an output form its blocks over the beats of 32 rows (R244). -/
def OutStream.holds (o : OutStream) : Bool := o.desc.t.fmt.narrow && o.desc.t.num.bax

/-- The output beats of a block group: 32 per beat of a row, so that each lane's blocks are those of R55 (R244, R67; for rows
of more than one beat the model's reading, log entry 67). -/
def OutStream.groupBeats (o : OutStream) : Nat := 32 * cdiv o.desc.t.ext.1 64

/-- Write out a held group: its element lines end at t + 32, its scale line follows in t + 33 (R249). -/
def flushGroup (n : Nat) (r : OutRes) : OutRes :=
  let vals := r.o.held
  let t := r.o.lastT
  flushVals n (t + 1) (t + 32) (some (t + 33)) { r with o := { r.o with held := [], heldBeats := 0 } } vals

/-- One output beat of a stream whose last line R248 places in cc `te`. -/
def outBeat (n te : Nat) (r : OutRes) (vals : List (Nat × W32)) : OutRes :=
  let o := { r.o with q := r.o.q + 1 }
  if o.holds then
    let o := { o with held := o.held ++ vals, heldBeats := o.heldBeats + 1, lastT := te }
    if o.heldBeats = o.groupBeats then flushGroup n { r with o := o } else { r with o := o }
  else flushVals n 0 te none { r with o := o } vals

/-- The end of a stream: its trailing group and scale bytes (R244, R248). -/
def outEnd (n : Nat) (r : OutRes) : OutRes :=
  let r := if r.o.heldBeats = 0 then r else flushGroup n r
  flushScales n (r.o.freeE - 1) (fun _ => true) r

/-- A partial write into a word that fails its check (R123): the word. -/
def State.mergeFail (s : State) (ws : List MWrite) : Option (Nat × Nat) :=
  ((groupRuns (fun w => granule w.addr) ws).find? fun g =>
    !coversAll g.1 g.2 && s.cellStatus g.1 == 5).map fun g => (g.1, 5)

/-- What performing queued writes comes to: the state, the writes left, the first failing access and
whether the operation may write no more (R608). -/
structure Drained where
  st : State
  rest : List (Nat × List MWrite)
  fail : Option (Nat × Nat)
  stop : Bool
  deriving DecidableEq, Repr

/-- Perform the queued writes of every cc below `lim`. A merge read that fails stops the operation, before any write of its
cc (R608); a bank that is not on refuses its own writes (R123, R125), and words lost at port 1 are discarded (R118). Of one
line's failures the check or the bank comes before the loss (log entry 66). -/
def drainQueue (c : Ctx) (master : Nat) (lost : List Nat) (lim : Nat) : List (Nat × List MWrite) → State → Drained
  | [], s => ⟨s, [], none, false⟩
  | e :: t, s =>
    if lim ≤ e.1 then ⟨s, e :: t, none, false⟩
    else
      let kept (ws : List MWrite) : List MWrite := (splitWrites (s.writeLost master lost) ws).1
      match ((e :: t).filter fun x => x.1 == e.1).findSome? fun x => s.mergeFail (kept x.2) with
      | some g => ⟨s.reportUnit c g, [], some g, true⟩
      | none =>
        let (s1, fs) := s.writeAll (kept e.2)
        let gone := (splitWrites (s.writeLost master lost) e.2).2
        let r := drainQueue c master lost lim t ((s1.reportUnits c fs).noteLost gone)
        { r with fail := (fs.head?.or (gone.head?.map fun w => (granule w.addr, 7))).or r.fail }

/-- What a stream that reads one line per cc from cc `t` keeps of lines that queued writes of its own operation change after it
has read them (R248): scale lines count as read in cc `t`. -/
def State.keptLines (s : State) (n t : Nat) (lines : List Nat) (queue : List (Nat × List MWrite)) (seen : Seen) : Seen :=
  (queue.foldl (fun (r : State × Seen) e =>
    if t + lines.length ≤ e.1 + 1 then r
    else
      let read := e.2.filter fun w => decide (t + (if lines.contains (w.addr / 64) then lines.idxOf (w.addr / 64) else 0) ≤ e.1)
      ((r.1.writeAll e.2).1, r.1.readAhead n { words := read.map fun w => w.addr } r.2)) (s, seen)).2

/-- What a stream sees of memory at the cc in which it reads each line of a beat that begins in cc `t` (R248). -/
def State.beatView (s : State) (n t : Nat) (lines : List Nat) (queue : List (Nat × List MWrite)) (seen : Seen) : State :=
  ((queue.takeWhile fun e => decide (e.1 + 1 < t + lines.length)).foldl (fun s e => (s.writeAll e.2).1) s).seeing
    (s.keptLines n t lines queue seen)

/-! ### Starting (R210, R211, R244, R250, R252, R607) -/

/-- SKRUN and SKWALK? SKCMP and SKEXP have a mask. -/
def hasMask (op : Nat) : Bool := op == 0x42 || op == 0x43

/-- The input streams of a Skipper operation. -/
def skipIns (f : Flight) : List Desc :=
  if hasMask f.opcode then [dAt f.slots 0] else (dsAt f.slots 0).take (fld (vAt f.slots 2) 8 2 + 1)
/-- The output streams. -/
def skipOuts (f : Flight) : List Desc :=
  if hasMask f.opcode then [dAt f.slots 1] else (dsAt f.slots 1).take (fld (vAt f.slots 2) 10 2)
/-- The length operand, in its last slot (unused by SKWALK). -/
def skipLen (f : Flight) : W64 := vAt f.slots 3

/-- The beats of the operation and of one row (Table 6.12). -/
def skipBeats (op len : Nat) (d : TDesc) : Nat × Nat :=
  if op = 0x41 then (d.rows * cdiv d.ext.1 64, cdiv d.ext.1 64) else (cdiv len 64, cdiv len 64)

/-- The first check that fails at the start of a Skipper operation, as a status and descriptor slot. -/
def skipCheck (f : Flight) : Nat × Nat :=
  let ctl := (vAt f.slots 2).toNat
  let ins := (skipIns f).map Desc.t
  let outs := (skipOuts f).map Desc.t
  let mask := (dAt f.slots 2).t
  let lop := skipLen f
  let len := fld lop 0 24
  let ill := !hasMask f.opcode && (ctl % 2 ^ 64 / 2 ^ 12 != 0 || ctl / 64 % 4 != 0 || ctl / 1024 % 4 == 3 ||
    ins.length != ctl / 256 % 4 + 1 || outs.length != ctl / 1024 % 4)
  let each := firstFail (ins.map (fun d => (streamCheck d false, d.slot)) ++
    outs.map (fun d => (streamCheck d true, d.slot)) ++
    (if hasMask f.opcode then [(mask.check ⟨[0], false⟩, mask.slot)] else []))
  let all := ins ++ outs ++ (if hasMask f.opcode then [mask] else [])
  let i0 := ins.headD mask
  let flat := firstFail (all.map fun d =>
    (if d.ext.2.1 = 1 ∧ d.ext.2.2.1 = 1 ∧ d.ext.2.2.2 = 1 ∧ len ≤ d.ext.1 then 0 else 3, d.slot))
  let held := firstFail (outs.map fun d =>
    (if d.fmt.narrow ∧ d.num.bax ∧ (skipBeats f.opcode len i0).1 % 32 ≠ 0 then 3 else 0, d.slot))
  if ill then (12, 0xFF)
  else if each.1 ≠ 0 then each
  else if f.opcode = 0x41 then
    if all.any fun d => d.ext != i0.ext then (3, 0xFF) else held
  else if hasMask f.opcode ∧ (some i0.num.fmt ≠ (outs.map fun d => d.num.fmt).head? ∨ 1 < i0.num.fmt ∨
      mask.num.fmt ≠ 0x10 ∨ mask.num.sgn) then (2, 0xFF)
  else if len = 0 ∨ fld lop 24 8 ≠ 0 ∨ (hasMask f.opcode ∧ fld lop 32 32 ≠ 0) then (3, 0xFF)
  else if flat.1 ≠ 0 then flat
  else held

/-- An output stream as it starts. -/
def OutStream.start (d : Desc) (raw : Bool) : OutStream :=
  { desc := d, raw := raw, q := 0, held := [], heldBeats := 0, lastT := 0, srec := none, scale := 0,
    amax := 0#32, clipped := false, freeE := 0, freeS := 0, scales := [] }

/-- Does the stream quantise with a scale record (R70, R243). -/
def OutStream.usesRec (o : OutStream) : Bool := o.desc.t.fmt.narrow && o.desc.t.num.ssrc && !o.raw

/-- The start of a use of each scale record: the streams with their records and the write-back of line 0
in cc 2, or the status and address that refuse the operation (R70, R72, R245). -/
def startRecs (s : State) (n : Nat) : List OutStream → (List OutStream × List (Nat × List MWrite)) ⊕ (Nat × Nat)
  | [] => .inl ([], [])
  | o :: t =>
    match startRecs s n t with
    | .inr e => if o.usesRec then recOf o (.inr e) else .inr e
    | .inl r => if o.usesRec then recOf o (.inl r) else .inl (o :: r.1, r.2)
where
  /-- The use of one stream's record, before those of the later streams. -/
  recOf (o : OutStream) (later : (List OutStream × List (Nat × List MWrite)) ⊕ (Nat × Nat)) :
      (List OutStream × List (Nat × List MWrite)) ⊕ (Nat × Nat) :=
    let d := o.desc.t
    let a := spadAddr n d.num.sraddr
    match s.failsAt ((List.range 128).map (a + ·)) with
    | g :: _ => .inr (g.2, g.1)
    | [] =>
      match (ScaleRec.ofBytes (s.bytes a 128)).startUse (s.fd .coreStep n 0 0 48) with
      | none => .inr (8, a)
      | some r =>
        match later with
        | .inr e => .inr e
        | .inl l =>
          let h := s.fd .cvtHeadroom n 0 (2 * r.cls) 2
          .inl ({ o with srec := some r, scale := estScale d.fmt r.est h d.num.fixscl } :: l.1,
            place 2 (wholeWrites a (r.toBytes.take 64)) l.2)

/-- Clear W0 to W15 and F of every lane (R224, R225). -/
def State.clearLanes (s : State) (n : Nat) : State :=
  (List.range 64).foldl (fun s l =>
    ((List.range 16).foldl (fun s r => s.setLane n l r 0#32) s).setLaneFlag n l false) s

/-- The start of SKRUN, SKWALK, SKCMP or SKEXP: the operation is refused, or its beats follow. A scale record is taken as it
was read (R73). -/
def skipStart (n : Nat) (s : State) (f : Flight) : State × Option OpRes :=
  let (st, slot) := skipCheck f
  if st ≠ 0 then (s, some (refuse s st slot))
  else
    let op := f.opcode
    let lop := skipLen f
    let k := fld (vAt f.slots 2) 0 6
    let valid := !hasMask op && s.flag .skpKval n 0 k
    let hdr : KernHdr := if valid then Sparse.get {} s.kernHdr (n * 64 + k) else {}
    let words := (List.range hdr.words).map fun w => Sparse.get 0#32 s.kern (n * 4096 + k * 64 + w)
    let bad := (List.range hdr.words).find? fun w => Sparse.get false s.kernBad (n * 4096 + k * 64 + w)
    let ins := skipIns f
    let outs := (skipOuts f).zipIdx.map fun d => OutStream.start d.1 (hdr.outRaw.testBit d.2)
    let len := if op = 0x41 then 0 else fld lop 0 24
    let mask := if hasMask op then some (dAt f.slots 2) else none
    let all := ins.map Desc.t ++ outs.map (fun o => o.desc.t) ++ (mask.map Desc.t).toList
    let ck := all.foldl (fun m d => max m (streamLambda d)) (if valid then hdr.beatCount else 1)
    let (beats, per) := skipBeats op len ((ins.headD (dAt f.slots 0)).t)
    let s := if op = 0x41 then s else s.setF .skpLen n 0 0 24 len
    let s := if op = 0x40 then s.setF .skpLen n 0 32 32 (fld lop 32 32) else s
    let s := s.clearLanes n
    match startRecs (s.seeing f.seen) n outs with
    | .inr e => (s, some (refuse (if e.1 = 8 then s else s.reportUnit (f.ctx n) (e.2, e.1)) e.1 0xFF e.2))
    | .inl (outs, q) =>
      let o : SkipOp :=
        { op := op, len := len, arg := BitVec.ofNat 32 (s.fd .skpLen n 0 32 32), ins := ins, inRaw := hdr.inRaw,
          outs := outs, mask := mask, kernel := words, kernBad := bad, ck := ck, beat := 0, beats := beats,
          perRow := per, count := 0, queue := q, status := 0, addr := 0 }
      (s.modCore n fun c => { c with skp := some o }, none)

/-- A Skipper operation starts when the engine has passed the beats of the one before (R139, R226); it may have read its scale
records by then, while the writes of the one before were still to come (R73). -/
def runSkip (op n : Nat) (early : Early) (s : State) : State :=
  if early ≠ {} then peekOp s n 4 op early
  else if (s.core n).skp.isSome then s
  else startOp s n 4 op (skipStart n)

/-- SKRUN (R210). -/
def execSkrun (n : Nat) (s : State) (early : Early := {}) : Ans := ok (runSkip 0x40 n early s)
/-- SKWALK (R210). -/
def execSkwalk (n : Nat) (s : State) (early : Early := {}) : Ans := ok (runSkip 0x41 n early s)
/-- SKCMP (R212). -/
def execSkcmp (n : Nat) (s : State) : Ans := ok (runSkip 0x42 n {} s)
/-- SKEXP (R212). -/
def execSkexp (n : Nat) (s : State) : Ans := ok (runSkip 0x43 n {} s)

/-! ### One beat (R222, R223, R241, R247, R248) -/

/-- Where a beat stands: the cc in which it begins, its first position, how many lanes are active, and
whether it is the first and last of its operation or row. -/
structure BeatAt where
  cc : Nat
  pos : Nat
  active : Nat
  first : Bool
  last : Bool
  deriving DecidableEq, Repr

/-- The place of the operation's next beat. -/
def SkipOp.at (o : SkipOp) : BeatAt :=
  let b := o.beat
  if o.op = 0x41 then
    let e0 := ((o.ins.headD ⟨0, [], 0#64⟩).t).ext.1
    let h := b / o.perRow
    let j := b % o.perRow
    ⟨b * o.ck + h, h * e0 + 64 * j, min 64 (e0 - 64 * j), j == 0, j + 1 == o.perRow⟩
  else ⟨b * o.ck, 64 * b, min 64 (o.len - 64 * b), b == 0, b + 1 == o.beats⟩

/-- The position of lane `l` in output beat `q`, where it is written (R241, R242). -/
def SkipOp.outPos (o : SkipOp) (d : TDesc) (q l : Nat) : Option Nat :=
  if o.op = 0x41 then
    let br := cdiv d.ext.1 64
    let i0 := 64 * (q % br) + l
    if i0 < d.ext.1 ∧ q / br < d.rows then some (q / br * d.ext.1 + i0) else none
  else if 64 * q + l < o.len then some (64 * q + l) else none

/-- The elements of a stream that a beat reads. -/
def BeatAt.elems (b : BeatAt) : List Nat := (List.range b.active).map (b.pos + ·)

/-- What the mask stream sees (R248). -/
def State.maskView (s : State) (n : Nat) (o : SkipOp) (b : BeatAt) (seen : Seen) : State :=
  match o.mask with
  | none => s
  | some d => s.beatView n b.cc (beatLines n d.t b.elems) o.queue seen

/-- The mask of a beat: which active lanes have a non-zero mask element. -/
def State.maskSel (s : State) (n : Nat) (o : SkipOp) (b : BeatAt) (seen : Seen) : List Bool :=
  match o.mask with
  | none => []
  | some d => (List.range b.active).map fun l => (s.maskView n o b seen).elem n d.t (b.pos + l) != 0

/-- Which input elements a beat of SKEXP consumes, lane by lane (R212). -/
def consumed : Nat → List Bool → List (Option Nat)
  | _, [] => []
  | k, b :: t => if b then some k :: consumed (k + 1) t else none :: consumed k t

/-- The elements that a beat reads of its input streams. -/
def State.usedElems (s : State) (n : Nat) (o : SkipOp) (b : BeatAt) (seen : Seen) : List Nat :=
  if o.op = 0x43 then (consumed o.count (s.maskSel n o b seen)).filterMap id else b.elems

/-- What each input stream sees (R248). -/
def State.inViews (s : State) (n : Nat) (o : SkipOp) (b : BeatAt) (seen : Seen) : List State :=
  o.ins.map fun d => s.beatView n b.cc (beatLines n d.t (s.usedElems n o b seen)) o.queue seen

/-- The lanes of a beat before the kernel runs: working and persistent registers as they stand, IN, IDX
and ARG of the beat (Table 7.1, R223), with the conversion events of the inputs. -/
def State.beatLanes (s : State) (n : Nat) (o : SkipOp) (b : BeatAt) (views : List State) : List (LaneRun × CvtEv) :=
  (List.range 64).map fun l =>
    let ins := (o.ins.zip views).zipIdx.map fun d =>
      if l < b.active then d.1.2.laneIn n d.1.1.t (o.inRaw.testBit d.2) (b.pos + l) else (0#32, {})
    let regs := (List.range 24).map (s.lane n l) ++
      (List.range 4).map (fun i => (ins.getD i (0#32, {})).1) ++ [0#32, 0#32] ++
      [BitVec.ofNat 32 (b.pos + l), o.arg]
    (⟨regs, s.laneFlag n l, false, false, {}⟩, ins.foldl (fun e i => e.join i.2) {})

/-- Store the lanes after a beat. -/
def State.storeLanes (s : State) (n : Nat) (ls : List LaneRun) : State :=
  ls.zipIdx.foldl (fun s l =>
    (l.1.regs.zipIdx.foldl (fun s r => s.setLane n l.2 r.2 r.1) s).setLaneFlag n l.2 l.1.f) s

/-- The kernel beat of SKRUN and SKWALK: lanes, lane events and output beats. -/
def kernelBeat (s : State) (n : Nat) (o : SkipOp) (b : BeatAt) (views : List State) : State × SkipOp × CvtEv :=
  let te := b.cc + o.ck + (if o.op = 0x41 then 12 else 11)
  let lanes := s.beatLanes n o b views
  let ran := lanes.map fun l => runKernel b.first b.last o.kernel l.1
  let evIn := lanes.foldl (fun e l => e.join l.2) {}
  let act := ran.take b.active
  let s := (s.storeLanes n ran).laneEvents n (act.foldl (fun e l => e.join l.ev) {})
  let r := o.outs.zipIdx.foldl (fun (r : List OutStream × List (Nat × List MWrite) × CvtEv) st =>
    let wrote (l : LaneRun) : Bool := if st.2 = 0 then l.w0 else l.w1
    if act.any wrote then
      let d := st.1.desc.t
      let vals := act.zipIdx.filterMap fun l =>
        (o.outPos d st.1.q l.2).map fun p => (p, if wrote l.1 then l.1.reg (28 + st.2) else 0#32)
      let x := outBeat n te ⟨st.1, r.2.1, r.2.2⟩ vals
      (r.1 ++ [x.o], x.queue, x.ev)
    else (r.1 ++ [st.1], r.2.1, r.2.2)) ([], o.queue, evIn)
  (s, { o with outs := r.1, queue := r.2.1 }, r.2.2)

/-- The beat of SKCMP and SKEXP (R212, R251). Their stream has no kernel header and is taken as non-RAW: its NaNs become
canonical and a BF16 NaN that is converted sets CVT_STAT.INV as any conversion does (the model's choice, log entry 16). -/
def maskBeat (n : Nat) (o : SkipOp) (b : BeatAt) (sel : List Bool) (views : List State) : SkipOp × CvtEv :=
  let te := b.cc + o.ck + 11
  let i := (o.ins.headD ⟨0, [], 0#64⟩).t
  let src := consumed o.count sel
  let kept := (sel.filter id).length
  let take (k : Nat) : W32 × CvtEv := (views.head?.map fun v => v.laneIn n i false k).getD (0#32, {})
  let vals : List (Nat × W32 × CvtEv) :=
    if o.op = 0x42 then
      src.zipIdx.filterMap fun e => e.1.map fun k => (k, take (b.pos + e.2))
    else src.zipIdx.map fun e => (b.pos + e.2, match e.1 with
      | some k => take k
      | none => (0#32, {}))
  let evIn := vals.foldl (fun e v => e.join v.2.2) {}
  match o.outs with
  | st :: t =>
    let x := flushVals n 0 te none ⟨st, o.queue, evIn⟩ (vals.map fun v => (v.1, v.2.1))
    ({ o with outs := x.o :: t, queue := x.queue, count := o.count + kept }, x.ev)
  | [] => ({ o with count := o.count + kept }, evIn)

/-- The failing reads of a beat, the mask first. -/
def State.beatFails (s : State) (n : Nat) (o : SkipOp) (b : BeatAt) (seen : Seen) : List ReadFail :=
  let mk := match o.mask with
    | none => []
    | some d => (s.maskView n o b seen).readFails n d.t true b.cc b.elems
  mk ++ ((o.ins.zip (s.inViews n o b seen)).zipIdx.flatMap fun d =>
      d.1.2.readFails n d.1.1.t (o.inRaw.testBit d.2) b.cc (s.usedElems n o b seen)) ++
    (if o.beat = 0 then (o.kernBad.map fun w => (⟨4 + w, none, 0, 5⟩ : ReadFail)).toList else [])

/-- Report a failing read (R110, R123, R235). -/
def State.reportRead (s : State) (n : Nat) (f : Flight) (o : SkipOp) (r : ReadFail) : State :=
  match r.acc with
  | some (t, p) => s.reportAcc n t p f
  | none =>
    if r.unit ≠ 0 then s.reportUnit (f.ctx n) (r.unit, r.status)
    else s.fault { cls := 3, evt := 5, src := n, tag := f.tag, opcode := f.opcode, ecls := f.ecls, status := 5,
                   detail := o.kernBad.getD 0 }

/-- The operation leaves the engine with a status. -/
def State.skipDone (s : State) (n status addr : Nat) : State :=
  (s.modCore n fun c => { c with skp := none }).updFlight n 4 .started fun f =>
    { f with phase := .done, status := status, addr := addr }

/-- The end of each scale record's use: line 1 in the cc of the operation's last write (R70, R245). -/
def recEnd (n : Nat) (o : SkipOp) : List (Nat × List MWrite) :=
  let last := o.outs.foldl (fun m st => max m (max st.freeE st.freeS - 1)) 0
  let cc := o.queue.foldl (fun m e => max m e.1) last
  o.outs.foldl (fun q st => match st.srec with
    | some r =>
      place cc (wholeWrites (spadAddr n (st.desc.t.num.sraddr + 64))
        ((r.endUse st.amax st.clipped).toBytes.drop 64)) q
    | none => q) o.queue

/-- The end of the operation after its last beat: trailing groups, scale records, the writes left, and
for SKCMP and SKEXP the count (R251). -/
def skipEnd (n : Nat) (c : Ctx) (lost : List Nat) (s : State) (o : SkipOp) : State :=
  let r := o.outs.foldl (fun (r : List OutStream × List (Nat × List MWrite) × CvtEv) st =>
    let x := outEnd n ⟨st, r.2.1, r.2.2⟩
    (r.1 ++ [x.o], x.queue, x.ev)) ([], o.queue, {})
  let s := s.cvtEvents n r.2.2
  let o := { o with outs := r.1, queue := r.2.1 }
  let q := recEnd n o
  let lim := q.foldl (fun m e => max m (e.1 + 1)) 0
  let w := drainQueue c 4 lost lim q s
  let first := if o.status ≠ 0 then (o.addr, o.status) else w.fail.getD (0, 0)
  let s := if hasMask o.op && !w.stop then
      (List.range 64).foldl (fun s l => s.setLane n l 23 (BitVec.ofNat 32 o.count))
        (w.st.setF .skpCmpcnt n 0 0 24 o.count)
    else w.st
  s.skipDone n first.2 first.1

/-- The operation's writes in cc below `lim` are performed; its first failure stays with it. -/
def SkipOp.drain (o : SkipOp) (c : Ctx) (lost : List Nat) (lim : Nat) (s : State) : SkipOp × Drained :=
  let w := drainQueue c 4 lost lim o.queue s
  (if o.status ≠ 0 then { o with queue := w.rest }
   else { o with queue := w.rest, status := (w.fail.getD (0, 0)).2, addr := (w.fail.getD (0, 0)).1 }, w)

/-- One beat of the operation in progress: writes due before it, its reads, line by line, the lanes, the placing of its
output lines. A failing read or merge ends the operation (R608). -/
def beatBody (n : Nat) (lost : List Nat) (s : State) (f : Flight) (o : SkipOp) : State :=
  let b := o.at
  let c := f.ctx n
  let (o, w) := o.drain c lost b.cc s
  if w.stop then w.st.skipDone n o.status o.addr
  else match earliest (w.st.beatFails n o b f.seen) with
    | some r =>
      let (o, w) := o.drain c lost r.cc w.st
      if w.stop then w.st.skipDone n o.status o.addr
      else (w.st.reportRead n f o r).skipDone n (if o.status ≠ 0 then o.status else r.status)
        (if o.status ≠ 0 then o.addr else r.unit)
    | none =>
      let views := w.st.inViews n o b f.seen
      let sel := w.st.maskSel n o b f.seen
      let s := (w.st.perf n 8 1).updFlight n 4 .started fun f => { f with seen := {} }
      let (s, o, ev) := if hasMask o.op then
          let m := maskBeat n o b sel views
          (s, m.1, m.2)
        else kernelBeat s n o b views
      let s := s.cvtEvents n ev
      let o := { o with beat := o.beat + 1 }
      if o.beat = o.beats then skipEnd n c lost s o else s.modCore n fun k => { k with skp := some o }

/-- SKIPPER_BEAT (R247, R248): the next beat of core n's Skipper, its read and write requests having waited, or an event in
which it reads part of that beat's inputs. -/
def execSkipperBeat (n rwaits wwaits : Nat) (s : State) (early : Early := {}) (lost : List Nat := []) : Ans :=
  match (s.core n).skp, (s.core n).flights.find? fun f => f.ecls == 4 && f.phase == .started with
  | some o, some f =>
    if early = {} then ok (beatBody n lost ((s.waited n 3 rwaits).waited n 4 wwaits) f o)
    else ok (s.updFlight n 4 .started fun f => { f with seen := s.readAhead n early f.seen })
  | _, _ => ok s

/-! ### Kernel loading (R231, R232) -/

/-- The checks of SKKLD at its start. -/
def kldCheck (f : Flight) : Nat × Nat :=
  let d := (dAt f.slots 0).t
  let c := d.check ⟨[0], false⟩
  if 64 ≤ (vAt f.slots 1).toNat then (12, 0xFF)
  else if c ≠ 0 then (c, d.slot)
  else if d.num.fmt ≠ 0 then (2, d.slot)
  else if d.base % 64 ≠ 0 then (4, d.slot)
  else if d.ext.2.1 ≠ 1 ∨ d.ext.2.2.1 ≠ 1 ∨ d.ext.2.2.2 ≠ 1 then (3, d.slot)
  else (0, 0xFF)

/-- Does an image obey R227, R229 and R231. -/
def imageOk (ws : List W32) : Bool :=
  match ws with
  | w0 :: w1 :: body =>
    fld w0 14 18 == 0 && w1 == 0#32 && decide (1 ≤ fld w0 0 8 ∧ fld w0 0 8 ≤ 64) &&
      body.length == fld w0 0 8 && kernelOk body
  | _ => false

/-- SKKLD's effect: the kernel and its header, and its bit of SKP_KVAL. -/
def kldBody (n waits : Nat) (s : State) (f : Flight) : OpRes :=
  let (st, slot) := kldCheck f
  let d := (dAt f.slots 0).t
  if st ≠ 0 then refuse s st slot
  else
    let v := s.seeing f.seen
    let s := s.waited n 3 waits
    match v.failsAt ((List.range d.ext.1).flatMap (elemAddrs n d)) with
    | g :: _ => refuse (s.reportUnit (f.ctx n) g) g.2 0xFF g.1
    | [] =>
      let ws : List W32 := (List.range d.ext.1).map fun k => BitVec.ofNat 32 (v.elem n d k)
      if !imageOk ws then refuse s 12 d.slot
      else
        let k := (vAt f.slots 1).toNat
        let w0 := ws.headD 0#32
        let body := ws.drop 2
        let s := body.zipIdx.foldl (fun s w =>
          { s with kern := Sparse.set 0#32 s.kern (n * 4096 + k * 64 + w.2) w.1,
                   kernBad := Sparse.set false s.kernBad (n * 4096 + k * 64 + w.2) false }) s
        let h : KernHdr := ⟨body.length, kernelCycles body, fld w0 8 4, fld w0 12 2⟩
        let s := { s with kernHdr := Sparse.set {} s.kernHdr (n * 64 + k) h }
        ⟨s.raise .skpKval n 0 k, 0, 0, 0xFF⟩

/-- SKKLD (R231). -/
def execSkkld (n waits : Nat) (s : State) (early : Early := {}) : Ans :=
  if early = {} ∧ (s.core n).skp.isSome then ok s else ok (runOp s n 4 0x44 early (kldBody n waits))

end Sys2Proof.Machine
end

