-- ==== Sys2Proof/Machine/Reduce.lean ====
section
/-! DEFINITION. The reduction unit (R213, R253 to R256). -/

namespace Sys2Proof.Machine

/-- Neighbours of a list combined pair by pair; a last one without partner stands. -/
def pairUp {α : Type} (g : α → α → α) : List α → List α
  | a :: b :: t => g a b :: pairUp g t
  | l => l

/-- The six levels of one beat (R253). -/
def beatTree {α : Type} (g : α → α → α) (l : List α) : Option α :=
  (pairUp g (pairUp g (pairUp g (pairUp g (pairUp g (pairUp g l)))))).head?

/-- A row reduced beat by beat (R253, R254). -/
def rowReduce {α : Type} (g : α → α → α) (l : List α) : Option α :=
  (groupsOf 64 (cdiv l.length 64) l).foldl (fun acc beat => match acc, beatTree g beat with
    | some a, some b => some (g a b)
    | none, b => b
    | a, none => a) none

/-- The order of R254: a NaN above every number, +0 above −0. -/
def maxKey (v : W32) : Int :=
  if isNan32 v then 2 ^ 40 else if bit v 31 then -((v &&& 0x7FFFFFFF#32).toNat : Int) - 1 else v.toNat

/-- The result of a row: the FP32 elements written and its events. -/
def redRow (op : Nat) (vs : List W32) : List W32 × Ev :=
  if op = 0x50 then
    let r := (rowReduce (fun (a b : W32 × Ev) =>
      let o := fadd32 a.1 b.1
      (o.1, (a.2.join b.2).join o.2)) (vs.map fun v => (v, {}))).getD (0#32, {})
    ([r.1], r.2)
  else
    let r := (rowReduce (fun (a b : W32 × Nat) => if maxKey a.1 < maxKey b.1 then b else a) vs.zipIdx).getD (0#32, 0)
    let v := if isNan32 r.1 then nan32 else r.1
    (if op = 0x52 then [v, BitVec.ofNat 32 r.2] else [v], { nan := vs.any isNan32 })

/-- The checks at the start (R192, R211, R213). -/
def redCheck (f : Flight) : Nat × Nat :=
  let i := (dAt f.slots 0).t
  let o := (dAt f.slots 1).t
  if streamCheck i false ≠ 0 then (streamCheck i false, i.slot)
  else if streamCheck o true ≠ 0 then (streamCheck o true, o.slot)
  else if o.num.fmt ≠ 0 then (2, o.slot)
  else if o.ext.1 ≠ (if f.opcode = 0x52 then 2 else 1) ∨ o.rows ≠ i.rows then (3, o.slot)
  else (0, 0xFF)

/-- A reduction under way: the state, the result lines still to be written, the elements of the row that have been read, its
first failure as address and status, and whether it goes on. -/
structure RedRun where
  st : State
  queue : List (Nat × List MWrite)
  row : List (W32 × CvtEv)
  fail : Option (Nat × Nat)
  stop : Bool
  deriving DecidableEq, Repr

/-- Beat `j` of row `h` of a reduction: its lines are read one per cc (R255), each as it stands then; the last beat of a row
places the row's result in its cc. From the cc of a failing read or merge on nothing is written (R608). -/
def redBeat (n : Nat) (lost : List Nat) (f : Flight) (r : RedRun) (h j : Nat) : RedRun :=
  let i := (dAt f.slots 0).t
  let o := (dAt f.slots 1).t
  let per := cdiv i.ext.1 64
  let t := streamLambda i * (h * per + j)
  let ks := (List.range (min 64 (i.ext.1 - 64 * j))).map fun l => h * i.ext.1 + 64 * j + l
  if r.stop then r
  else
    let w := drainQueue (f.ctx n) 5 lost t r.queue r.st
    if w.stop then ⟨w.st, [], [], r.fail.or w.fail, true⟩
    else
      let v := w.st.beatView n t (beatLines n i ks) w.rest f.seen
      match earliest (v.readFails n i false t ks) with
      | some e =>
        let w' := drainQueue (f.ctx n) 5 lost e.cc w.rest w.st
        let s := if w'.stop then w'.st else match e.acc with
          | some (t, p) => w'.st.reportAcc n t p f
          | none => w'.st.reportUnit (f.ctx n) (e.unit, e.status)
        ⟨s, [], [], ((r.fail.or w.fail).or w'.fail).or (some (e.unit, e.status)), true⟩
      | none =>
        let row := r.row ++ ks.map fun k => v.laneIn n i false k
        if j + 1 < per then ⟨w.st, w.rest, row, r.fail.or w.fail, false⟩
        else
          let (out, ev) := redRow f.opcode (row.map Prod.fst)
          let s := (w.st.cvtEvents n (row.foldl (fun e v => e.join v.2) {})).redEvents n ev
          ⟨s, place (8 + streamLambda i * ((h + 1) * per))
            (out.zipIdx.flatMap fun v => elemWrites n o (h * o.ext.1 + v.2) v.1.toNat) w.rest, [], r.fail.or w.fail, false⟩

/-- A reduction: row by row, each result written in its cc (R255). -/
def redBody (n waits : Nat) (lost : List Nat) (s : State) (f : Flight) : OpRes :=
  let (st, slot) := redCheck f
  let i := (dAt f.slots 0).t
  if st ≠ 0 then refuse s st slot
  else
    let per := cdiv i.ext.1 64
    let r := (List.range i.rows).foldl (fun r h => (List.range per).foldl (fun r j => redBeat n lost f r h j) r)
      (⟨s.waited n 5 waits, [], [], none, false⟩ : RedRun)
    let w := drainQueue (f.ctx n) 5 lost (9 + streamLambda i * (i.rows * per)) r.queue r.st
    match r.fail.or w.fail with
    | some g => refuse w.st g.2 0xFF g.1
    | none => ⟨w.st, 0, 0, 0xFF⟩

/-- RSUM (R253). -/
def execRsum (n waits : Nat) (s : State) (early : Early := {}) (lost : List Nat := []) : Ans :=
  ok (runOp s n 5 0x50 early (redBody n waits lost))
/-- RMAX (R254). -/
def execRmax (n waits : Nat) (s : State) (early : Early := {}) (lost : List Nat := []) : Ans :=
  ok (runOp s n 5 0x51 early (redBody n waits lost))
/-- RAMAX (R254). -/
def execRamax (n waits : Nat) (s : State) (early : Early := {}) (lost : List Nat := []) : Ans :=
  ok (runOp s n 5 0x52 early (redBody n waits lost))

end Sys2Proof.Machine
end

