-- ==== Sys2Proof/Machine/Access.lean ====
section
/-! DEFINITION. Control and status space (Table 19.1): which register an offset reaches, who may reach it
(Table 19.2), the refusals of R579, and writes field by field (Table 19.3, R588, R589). -/

namespace Sys2Proof.Machine

/-- The word of a register or window that an offset falls on. -/
structure Hit where
  r : Reg
  n : Nat
  i : Nat
  byte : Nat
  deriving DecidableEq, Repr

/-- Base, instances and stride of each block (Table 19.1). -/
def Blk.place : Blk → Nat × Nat × Nat
  | .core => (0, 256, 0x20000)
  | .fuse => (0x2000000, 1, 0x40)
  | .csr => (0x2010000, 1, 0x18)
  | .cxl => (0x2100000, 1, 0x80000)
  | .rte => (0x2200000, 1, 0x10000)
  | .lnk => (0x2300000, 20, 0x100)
  | .bore => (0x2400000, 4, 0x100)
  | .gate => (0x2500000, 1, 0x24)
  | .ebb => (0x2600000, 2, 0x20000)
  | .flt => (0x2700000, 1, 0x10000)
  | .cc => (0x2800000, 1, 0x40)
  | .clk => (0x2900000, 1, 0x3C)
  | .hbm => (0x2A00000, 8, 0x40)
  | .slt => (0x2A00200, 2, 0x20)
  | .scrub => (0x2A00240, 1, 4)
  | .sec => (0x2B00000, 1, 0x20)
  | .trace => (0x4000000, 256, 0x10000)

/-- The offset of a register word. -/
def Reg.offset (r : Reg) (n i : Nat) : Nat :=
  r.info.blk.place.1 + n * r.info.blk.place.2.2 + r.info.off + i * r.info.step

/-- Does an offset fall on the register, and on which instance, word and byte. -/
def Reg.hit (r : Reg) (off : Nat) : Option Hit :=
  let (base, cnt, stride) := r.info.blk.place
  let n := (off - base) / stride
  let x := (off - base) % stride
  if base ≤ off ∧ n < cnt ∧ r.info.off ≤ x ∧ x < r.info.off + r.info.count * r.info.step ∧
      (x - r.info.off) % r.info.step < r.info.width / 8 then
    some ⟨r, n, (x - r.info.off) / r.info.step, (x - r.info.off) % r.info.step⟩
  else none

/-- The register word an offset falls on; none where it is unassigned (R577). -/
def locate (off : Nat) : Option Hit := Reg.all.findSome? fun r => r.hit off

/-- What an agent may do with a register (Table 19.2): read, write. A DMA engine does not write CORE_STEP (R169: no
macro-operation does; that it is refused as a closed register is the model's reading, log entry 28). -/
def mayReach (a : Agent) (r : Reg) : Bool × Bool :=
  let rw := (true, true)
  let ro := (true, false)
  let no := (false, false)
  match a with
  | .headland => rw
  | .mesh _ => (false, r == .coreIm0 || r == .coreIm1)
  | .dma _ _ =>
    (match r.info.blk with
      | .core => if r == .spdBankpwr || r == .spdBankst then no else if r == .coreStep then ro else rw
      | .fuse | .rte | .lnk | .bore | .gate | .ebb | .flt | .trace => ro
      | _ => no)
  | .host =>
    (match r.info.blk with
      | .core | .csr | .rte | .bore | .gate | .ebb | .flt | .cc => rw
      | .fuse | .lnk => ro
      | .cxl => if r == .cxlDb then no else rw
      | .clk => if r == .clkTick then ro else no
      | .sec => if r == .secState || r == .mgtCred then ro else no
      | _ => no)
  | .shingle =>
    (match r.info.blk with
      | .core | .csr | .cxl | .rte | .lnk | .bore | .gate | .ebb | .flt | .cc => rw
      | .fuse | .sec | .trace => ro
      | _ => no)

/-- The causes of Table 19.8. -/
inductive Cause where
  | lock | closed | size | unassigned | ide
  deriving DecidableEq, Repr

/-- The CAUSE code. -/
def Cause.code : Cause → Nat
  | .lock => 1 | .closed => 2 | .size => 3 | .unassigned => 4 | .ide => 5

/-- SEC_STATE.STATE (Table 16.8). -/
def State.sec (s : State) : Nat := s.fd .secState 0 0 0 4

/-- Is the chip stranded (R478, R566). -/
def State.isStranded (s : State) : Bool := s.sec == 7

/-- Is the CXL link up (Table 14.8: RATE is not 0b00). -/
def State.cxlUp (s : State) : Bool := s.fd .cxlLinkstat 0 0 4 2 != 0

/-- Does an access of the agent arrive: the host's come over the CXL link (R535). -/
def State.arrives (s : State) (a : Agent) : Bool := a != .host || s.cxlUp

/-- Is IDE required and not active (R452, R579). -/
def State.ideMissing (s : State) : Bool := s.flag .cxlIdepol 0 0 0 && s.fd .cxlLinkstat 0 0 8 2 != 3

/-- Does its lock group lock the RWL fields of a register (Table 19.4). -/
def State.locked (s : State) (r : Reg) : Bool := s.flag .csrLock 0 0 (if r = .spdBankpwr then 1 else 0)

/-- A refused access of the host or Shingle (R579). -/
def State.refuseAccess (s : State) (a : Agent) (off : Nat) (c : Cause) : State :=
  let note (code : Nat) : State :=
    let s := s.count .csrRefcnt 0 0 0 32 1
    if s.flag .csrRefaddr 0 0 63 then s
    else s.wr .csrRefaddr 0 0 (BitVec.ofNat 64 (2 ^ 63 + code * 2 ^ 56 + c.code * 2 ^ 52 + off % 2 ^ 32))
  match a with
  | .host => note 0
  | .shingle => note 1
  | _ => s

/-- The part of a word that an access of `size` bytes at byte `b` covers, as its lowest bit and width. -/
def Field.inside (f : Field) (b size : Nat) : Bool := decide (8 * b ≤ f.lo ∧ f.hi < 8 * (b + size))

/-- A value with a field of another value put in place. -/
def Field.put (f : Field) (old v : W64) : W64 := setFld old f.lo (f.hi - f.lo + 1) (fld v f.lo (f.hi - f.lo + 1))

/-- A register word after an agent's write of `v`, given at its place in the word (R581, R585, R586): a
field partly outside the access is unchanged; a locked field that would change is unchanged, and its
write a refusal (R589). -/
def writeFields (lockedFor : Bool) (fs : List Field) (b size : Nat) (v old : W64) : W64 × Bool :=
  fs.foldl (fun r f =>
    if !f.inside b size then r
    else
      let len := f.hi - f.lo + 1
      match f.acc with
      | .ro | .wo => r
      | .rw | .cnt => (f.put r.1 v, r.2)
      | .w1c => (setFld r.1 f.lo len (fld (r.1 &&& ~~~v) f.lo len), r.2)
      | .rwl =>
        if lockedFor then (r.1, r.2 || fld old f.lo len != fld v f.lo len) else (f.put r.1 v, r.2))
    (old, false)

/-- Is an agent held to the locks. -/
def agentBound (a : Agent) : Bool := a != .headland

/-- Why an access is refused, locks apart (R579): IDE first for the host, then the block or field. -/
def State.reachCause (s : State) (a : Agent) (write : Bool) (r : Reg) : Option Cause :=
  let opened := !write && [Reg.csrId, .cxlLinkstat, .cxlStat, .clkTick, .secState, .mgtCred].contains r
  if a = .host ∧ s.ideMissing ∧ !opened then some .ide
  else
    let m := mayReach a r
    if (if write then m.2 else m.1) then none else some .closed

/-- The word an agent's write of the plain kind leaves, with its refusal if a locked field would have
changed. -/
def State.wordAfter (s : State) (a : Agent) (h : Hit) (size : Nat) (v : W64) : W64 × Bool :=
  writeFields (agentBound a && s.locked h.r) (h.r.fields h.i) h.byte size v (s.rd h.r h.n h.i)

/-- An agent's write of `v` (given at its place in the word) of the plain kind: field by field. -/
def State.plainWrite (s : State) (a : Agent) (h : Hit) (size : Nat) (v : W64) : State × Option Cause :=
  let (w, lk) := s.wordAfter a h size v
  (s.wr h.r h.n h.i w, if lk then some .lock else none)

/-- Perform an action that a write of register `r` starts, if the agent may write it; a refusal is
recorded. -/
def State.gated (s : State) (a : Agent) (r : Reg) (n i : Nat) (act : State → State) : State :=
  if !s.arrives a then s
  else match s.reachCause a true r with
    | some c => s.refuseAccess a (r.offset n i) c
    | none => act s

/-- As `gated`, for a locked field whose write would change it. -/
def State.gatedLock (s : State) (a : Agent) (r : Reg) (n i : Nat) (changes : Bool) (act : State → State) : State :=
  s.gated a r n i fun s =>
    if agentBound a && s.locked r && changes then s.refuseAccess a (r.offset n i) .lock else act s

/-- What a read of a word returns (R259, Table 7.11): the windows onto lane registers included. -/
def State.csrWord (s : State) (h : Hit) : W64 :=
  if h.r = .skpPreg then (s.lane h.n (h.i / 8) (16 + h.i % 8)).setWidth 64 else s.rd h.r h.n h.i

/-- The code of an agent as a source of records (Table 10.6). -/
def agentCode : Agent → Nat
  | .headland => 0x107
  | .shingle => 0x107
  | .host => 0x106
  | .dma n _ => n
  | .mesh k => k

end Sys2Proof.Machine
end

