-- ==== Sys2Proof/Machine/CoreCtl.lean ====
section
/-! DEFINITION. Control of a core from outside (R134, R147 to R149, R159, R162, R176, R177) and the power
states of its banks (R125); writes of the core block. -/

namespace Sys2Proof.Machine

/-! ### Instruction memory -/

/-- Is a write to a half refused (R147, R148): the active half, or either half while an exchange pends. -/
def State.imRefuses (s : State) (n half : Nat) : Bool :=
  s.fd .coreImstat n 0 0 1 == half || s.flag .coreImstat n 0 2

/-- A refused write to instruction memory (R147); `tag` is that of the writer's macro-operation, if it is one (R179). -/
def State.imRefused (s : State) (a : Agent) (n : Nat) (tag : Nat) : State :=
  ((s.raise .coreImstat n 0 1).count .coreImstat n 0 8 16 1).fault
    { cls := 8, evt := 2, src := n, tag := tag, detail := agentCode a * 2 ^ 56 }

/-- The macro-operation of an agent's write: the one its DMA engine has in progress. -/
def State.writerOp (s : State) (a : Agent) : Option Flight :=
  match a with
  | .dma k e => (s.core k).flights.find? fun f => f.ecls == e && f.phase != .done
  | _ => none

/-- A refused write comes back to its writer: the DMA macro-operation will complete with ADDR, a mesh write is answered with
it (R147). -/
def State.writerFails (s : State) (a : Agent) (addr : Nat) : State :=
  match a with
  | .dma k e =>
    let note (f : Flight) : Flight := if f.status = 0 then { f with status := 1, addr := addr } else f
    s.modCore k fun c => { c with flights := replFirst (fun f => f.ecls == e && f.phase != .done) note c.flights }
  | .mesh _ => s.emit (.memory addr 1 [])
  | _ => s

/-- Write word `w` of a half: `keep` selects the bits written. -/
def State.imStore (s : State) (n half w : Nat) (mask v : W64) : State :=
  let r : Reg := if half = 0 then .coreIm0 else .coreIm1
  let s := s.wr r n w ((s.rd r n w &&& ~~~mask) ||| (v &&& mask))
  { s with imBad := Sparse.set false s.imBad (n * 2048 + half * 1024 + w / 4) false }

/-- IM_WRITE (R147, R185): a 64-bit word of a half. -/
def execImWrite (a : Agent) (n half word : Nat) (v : W64) (s : State) : Ans :=
  ok (s.gated a (if half = 0 then .coreIm0 else .coreIm1) n word fun s =>
    if s.imRefuses n half then
      (s.imRefused a n ((s.writerOp a).elim 0 (·.tag))).writerFails a
        (ctlBase + (if half = 0 then Reg.coreIm0 else .coreIm1).offset n word)
    else s.imStore n half word (BitVec.allOnes 64) v)

/-- CORE_IMCTL.SWITCH: request an exchange; a second request has no effect (R148, R149). -/
def State.switchHalf (s : State) (n : Nat) : State :=
  if s.flag .coreImstat n 0 2 then s else s.raise .coreImstat n 0 2

/-- SWITCH (R148). -/
def execSwitchHalf (a : Agent) (n : Nat) (s : State) : Ans := ok (s.gated a .coreImctl n 0 fun s => s.switchHalf n)

/-- HALF_EXCHANGE (R148): at a program boundary the halves exchange. -/
def execHalfExchange (n : Nat) (s : State) : Ans :=
  if s.flag .coreImstat n 0 2 && !(s.core n).running then
    let gen := s.fd .coreImstat n 0 24 8 + 1
    let s := s.setF .coreImstat n 0 0 1 (1 - s.fd .coreImstat n 0 0 1)
    let s := (s.setF .coreImstat n 0 24 8 gen).setF .coreImstat n 0 2 1 0
    ok (s.trace n .switch 0 0 0 0xFF 0 (gen % 256))
  else ok s

/-! ### STOP and RESUME -/

/-- The replay in progress is abandoned and the core is at a program boundary (R176, R177); a halted
replay without a failure of its own keeps the status and tag of CORE_HALT for its completion (R469). `wake` says that a HALT
ends with it. -/
def State.abandon (s : State) (n : Nat) (wake : Bool) : State :=
  let h := (s.fd .coreHalt n 0 16 4, s.fd .coreHalt n 0 32 32)
  s.updCore n fun c =>
    { c with running := false, halted := c.halted && !wake, resumed := c.disp.isSome, waiting := false, waitReported := false,
             replays := c.replays.map fun r => if r.halted && r.fail.isNone then { r with fail := some h } else r }

/-- RESUME takes effect in HALT with nothing in flight (R176). -/
def State.resume (s : State) (n : Nat) : State :=
  if s.fd .coreStat n 0 0 3 = 3 ∧ s.fd .coreStat n 0 16 5 = 0 then s.abandon n true else s

/-- RESUME (R176). -/
def execResume (a : Agent) (n : Nat) (s : State) : Ans := ok (s.gated a .coreCtl n 0 fun s => s.resume n)

/-- CORE_CTL.STOP becomes 1: a replay whose END has not issued is interrupted (R177, R469). -/
def State.stopSet (s : State) (n : Nat) : State :=
  if s.flag .coreCtl n 0 0 then s
  else
    let s := s.raise .coreCtl n 0 0
    s.updCore n fun c =>
      { c with waiting := false,
               replays := c.replays.map fun r =>
                 if c.running && r.ord == c.cur && !r.halted then { r with stopped := true } else r }

/-- CORE_CTL.STOP becomes 0 (R177); the generation filter of R558 ends. A core that has entered HALT stays in it, until
RESUME (step 6 of the quiesce procedure after R558; log entry 66). -/
def State.stopClear (s : State) (n : Nat) : State :=
  if s.flag .coreCtl n 0 0 then
    ({ (s.setF .coreCtl n 0 0 1 0) with gate := { s.gate with filter := false } } : State).abandon n false
  else s

/-- STOP_SET (R177). -/
def execStopSet (a : Agent) (n : Nat) (s : State) : Ans :=
  ok (s.gatedLock a .coreCtl n 0 (!s.flag .coreCtl n 0 0) fun s => s.stopSet n)

/-- STOP_CLEAR (R177). -/
def execStopClear (a : Agent) (n : Nat) (s : State) : Ans :=
  ok (s.gatedLock a .coreCtl n 0 (s.flag .coreCtl n 0 0) fun s => s.stopClear n)

/-! ### Marks and DMA -/

/-- CORE_MSIG (R159). -/
def execCoreMsig (a : Agent) (n v : Nat) (s : State) : Ans := ok (s.gated a .coreMsig n 0 fun s => s.signal n (v % 64))

/-- A write of MARKi: THR and COUNT as written, then the cc's increments and consumption (R162). -/
def State.markWrite (s : State) (n i v inc dec : Nat) : State :=
  ((s.setF .mark n i 16 8 (v / 2 ^ 16)).setF .mark n i 0 16 v).markChange n i ((inc : Int) - dec)

/-- MARK_WRITE (R162). -/
def execMarkWrite (a : Agent) (n i v inc dec : Nat) (s : State) : Ans :=
  ok (s.gated a .mark n i fun s => s.markWrite n i v inc dec)

/-- DMA_HALT (R134): DMA_CTLn.HALT of engine 6 or 7. -/
def execDmaHalt (a : Agent) (n eng : Nat) (on : Bool) (s : State) : Ans :=
  ok (s.gated a .dmaCtl n (eng - 6) fun s => s.setF .dmaCtl n (eng - 6) 8 1 (b2n on))

/-! ### Banks (R125, Tables 4.5 and 4.6) -/

/-- What a bank held is lost: its words are as never written. -/
def State.loseBank (s : State) (n b : Nat) : State :=
  let lo := spadAddr n (b * 2 ^ 17)
  let inBank (a : Nat) : Bool := decide (lo ≤ a ∧ a < lo + 2 ^ 17)
  { s with mem := Sparse.drop inBank s.mem, bad := Sparse.drop inBank s.bad }

/-- One field of SPD_BANKPWR: a request other than the bank's state starts a transition. -/
def State.bankRequest (s : State) (n : Nat) (v : W64) (b : Nat) : State :=
  let f := fld v (2 * b) 2
  if f = 3 then s
  else
    let s := s.setF .spdBankpwr n 0 (2 * b) 2 f
    let s := if f = s.bankState n b then s else s.setF .spdBankst n 0 (2 * b) 2 3
    if f = 2 then s.loseBank n b else s

/-- A write of SPD_BANKPWR. -/
def State.bankPower (s : State) (n : Nat) (v : W64) : State := (List.range 32).foldl (fun s b => s.bankRequest n v b) s

/-- Would a write of SPD_BANKPWR change a field. -/
def State.bankChanges (s : State) (n : Nat) (v : W64) : Bool :=
  (List.range 32).any fun b => fld v (2 * b) 2 != 3 && fld v (2 * b) 2 != s.fd .spdBankpwr n 0 (2 * b) 2

/-- SPD_BANKPWR (R125). -/
def execSpdBankpwr (a : Agent) (n : Nat) (v : W64) (s : State) : Ans :=
  ok (s.gatedLock a .spdBankpwr n 0 (s.bankChanges n v) fun s => s.bankPower n v)

/-- BANK_TRANSITION (R125): a bank in transition reaches the state last requested. -/
def execBankTransition (n bank : Nat) (s : State) : Ans :=
  if s.bankState n bank = 3 then ok (s.setF .spdBankst n 0 (2 * bank) 2 (s.fd .spdBankpwr n 0 (2 * bank) 2)) else ok s

/-! ### Writes of the core block -/

/-- A write of an agent that may reach it to a word of the core block: the registers with a behaviour of
their own, and the rest field by field. The cause says that it was refused; a write that R147 refuses
answers none with its own reports. -/
def State.coreWrite (s : State) (a : Agent) (h : Hit) (size : Nat) (v : W64) : State × Option Cause :=
  let n := h.n
  let mask := maskOf 64 (8 * h.byte) (8 * size)
  match h.r with
  | .coreIm0 => (if s.imRefuses n 0 then s.imRefused a n ((s.writerOp a).elim 0 (·.tag)) else s.imStore n 0 h.i mask v, none)
  | .coreIm1 => (if s.imRefuses n 1 then s.imRefused a n ((s.writerOp a).elim 0 (·.tag)) else s.imStore n 1 h.i mask v, none)
  | .coreImctl => (if bit v 0 then s.switchHalf n else s, none)
  | .coreImstat =>
    let s' := (s.plainWrite a h size v).1
    (if bit v 1 then s'.setF .coreImstat n 0 8 16 0 else s', none)
  | .coreCtl =>
    let s1 := if bit v 1 then s.resume n else s
    let stop := s1.flag .coreCtl n 0 0
    if bit v 0 = stop then (s1, none)
    else if (agentBound a) && s1.locked .coreCtl then (s1, some .lock)
    else (if bit v 0 then s1.stopSet n else s1.stopClear n, none)
  | .coreMsig => (s.signal n (fld v 0 6), none)
  | .dmaCtl =>
    let s' := (s.plainWrite a h size v).1
    (if s'.fd .dmaCtl n h.i 4 3 = 7 then s'.setF .dmaCtl n h.i 4 3 6 else s', none)
  | .spdBankpwr =>
    let whole : W64 := (s.rd .spdBankpwr n 0 &&& ~~~mask) ||| (v &&& mask)
    if agentBound a && s.locked .spdBankpwr && s.bankChanges n whole then (s, some .lock)
    else (s.bankPower n (v ||| ~~~mask), none)
  | .trcStat =>
    let s' := (s.plainWrite a h size v).1
    (s'.modCore n fun c =>
        { c with trcCount := 0,
                 trcWritten := if 4096 ≤ c.trcCount then some (s.rd .clkTick 0 0).toNat else none }, none)
  | _ => s.plainWrite a h size v

end Sys2Proof.Machine
end

