-- ==== Sys2Proof/Machine/Staging.lean ====
section
/-! DEFINITION. The Ebb dies as other units see them: their latches and fault records, and the counting,
checking and holding of staging writes (R283 to R287). -/

namespace Sys2Proof.Machine

/-- An Ebb die. -/
def State.ebb (s : State) (e : Nat) : EbbSt := Sparse.get {} s.ebbs e

/-- Change an Ebb die. -/
def State.modEbb (s : State) (e : Nat) (f : EbbSt → EbbSt) : State :=
  { s with ebbs := Sparse.modify {} s.ebbs e f }

/-- Set bits of an Ebb die's latch (R400). -/
def State.latchEbb (s : State) (e m : Nat) : State :=
  s.modEbb e fun x => { x with latch := x.latch ||| BitVec.ofNat 64 m }

/-- EBB_STAT.STATE (Table 9.6). -/
def State.ebbState (s : State) (e : Nat) : Nat := s.fd .ebbStat e 0 16 3

/-- Set EBB_STAT.STATE. -/
def State.setEbbState (s : State) (e x : Nat) : State := s.setF .ebbStat e 0 16 3 x

/-- A fault record of class 0x06 of an Ebb die (Table 18.6). -/
def State.ebbFault (s : State) (e evt seg pos addr : Nat) : State :=
  s.fault { cls := 6, evt := evt, src := 0x104 + e,
            detail := seg % 2 ^ 16 + (pos % 2 ^ 32) * 2 ^ 16 + (addr % 2 ^ 48) * 2 ^ 48 }

/-- An EBB_STAT flag with its record. -/
def State.ebbRaise (s : State) (e k seg pos addr : Nat) : State :=
  (s.raise .ebbStat e 0 k).ebbFault e k seg pos addr

/-- The die in whose staging area an address lies (Table 9.3). -/
def State.stagingDie (s : State) (a : Nat) : Option Nat :=
  match regionOf a with
  | .slow e =>
    let b := s.fd .ebbStgbase e 0 0 44
    if b ≤ a ∧ a < b + s.fd .ebbStglen e 0 0 40 then some e else none
  | _ => none

/-- The check of one staged FP32 element as it lands (R284). -/
def State.stageCheck (s : State) (e a : Nat) : State :=
  let v : W32 := BitVec.ofNat 32 (leNat (s.bytes a 4))
  if fld v 23 8 = 255 then
    if fld v 0 23 = 0 then (s.raise .ebbStat e 0 1).latchEbb e 0x10 else (s.raise .ebbStat e 0 0).latchEbb e 0x1000
  else s

/-- Bytes of one write that landed in a die's staging area: counted (R283), checked element by element
(R284), and, beyond EBB_STGLEN, reported (R286). -/
def State.stageDie (s : State) (e : Nat) (as : List Nat) : State :=
  if as.isEmpty then s
  else
    let b := s.fd .ebbStgbase e 0 0 44
    let len := s.fd .ebbStglen e 0 0 40
    let cnt := s.fd .ebbStgcnt e 0 0 40
    let els := (as.map fun a => b + (a - b) / 4 * 4).eraseDups
    let s := els.foldl (fun s a => s.stageCheck e a) s
    let s := s.setF .ebbStgcnt e 0 0 40 (cnt + as.length)
    if len < cnt + as.length then
      (s.ebbRaise e 9 0 0 (as.getD (len - cnt) 0)).latchEbb e 0x10000
    else s

/-- The staging part of a write that landed at these addresses. -/
def State.staged (s : State) (as : List Nat) : State :=
  [0, 1].foldl (fun s e => s.stageDie e (as.filter fun a => s.stagingDie a == some e)) s

/-- Does a write to this address wait for the end of a hold (R287). -/
def State.stageHeld (s : State) (a : Nat) : Bool :=
  match s.stagingDie a with
  | some e => (s.ebb e).hold
  | none => false

/-- Perform the writes of one access, with its staging part; the failing units come with their status. -/
def State.land (s : State) (ws : List MWrite) : State × List (Nat × Nat) :=
  let (s, fs) := s.writeAll ws
  let done := ws.filter fun w => !fs.any fun f => f.1 == granule w.addr
  (s.staged (done.map (·.addr)), fs)

end Sys2Proof.Machine
end

