-- ==== Sys2Proof/Machine/Coherence.lean ====
section
/-! DEFINITION. What holds an access to HBM or the slow tier back: closed memories (R523), a scrub in progress
(R448), a staging area on hold (R287) and units the host holds (R457). -/

namespace Sys2Proof.Machine

/-- How the host holds a unit: 0 not listed, 1 shared, 2 possibly modified. -/
def State.hostHolds (s : State) (u : Nat) : Nat := Sparse.get 0 s.snoop u

/-- Ask the host for a unit, unless it has been asked already: 1 invalidate, 2 data. -/
def State.snoopUnit (s : State) (kind u : Nat) : State :=
  if kind ≤ Sparse.get 0 s.biOut u ∧ Sparse.get 0 s.biOut u ≠ 0 then s
  else ({ s with biOut := Sparse.set 0 s.biOut u kind }).emit (.cxl (if kind = 1 then .biSnpInv u else .biSnpData u))

/-- The 64 B units of HBM and the slow tier that addresses fall in. -/
def unitsOf (as : List Nat) : List Nat := ((as.filter fun a => !inScratch a).map fun a => a / 64 * 64).eraseDups

/-- Must an access wait, or is it discarded because the memories are closed (R523): `some` is the state in which it waits, with the back-invalidations it needs
sent. A write needs every copy back, a read every copy that may be modified. -/
def State.heldBack (s : State) (reads writes : List Nat) : Option State :=
  if s.chip.closed && !(reads ++ writes).isEmpty then
    some (s.count .secSwdrop 0 0 0 32 1)
  else if (reads ++ writes).any s.scrubbing || writes.any s.stageHeld then some s
  else
    let w := (unitsOf writes).filter fun u => s.hostHolds u != 0
    let r := (unitsOf reads).filter fun u => s.hostHolds u == 2 && !w.contains u
    if w.isEmpty && r.isEmpty then none
    else some (r.foldl (fun s u => s.snoopUnit 2 u) (w.foldl (fun s u => s.snoopUnit 1 u) s))

/-- Keep an access that is held until it can be performed (R287, R448, R457, R535). -/
def State.hold (s : State) (c : Instr) : State := { s with held := s.held ++ [c] }

/-- Perform the access of a command, or keep the command until the access can be performed; closed memories discard it. -/
def State.holding (s : State) (c : Instr) (reads writes : List Nat) (act : State → State) : State :=
  match s.heldBack reads writes with
  | some s' => if s.chip.closed then s' else s'.hold c
  | none => act s

/-- The accesses held are tried again: they go to the queue. -/
def State.retry (s : State) : State := { s with pending := s.pending ++ s.held, held := [] }

/-- Perform an access whose addresses are given, unless it must wait. -/
def State.accessing (s : State) (reads writes : List Nat) (act : State → State) : State :=
  match s.heldBack reads writes with
  | some s' => s'
  | none => act s

/-- A BIRsp (R457): the host gives a unit back, with its data if its copy was modified; after a request for
data it may keep a shared copy. -/
def State.birsp (s : State) (addr : Nat) (data : Option (List Byte)) : State :=
  let u := addr / 64 * 64
  let kind := Sparse.get 0 s.biOut u
  if kind = 0 then s
  else
    let s := match data with
      | some bs => ((wholeWrites u (sliceB bs 0 64)).foldl State.putByte s).setBad u false
      | none => s
    { s with biOut := Sparse.set 0 s.biOut u 0, snoop := Sparse.set 0 s.snoop u (kind - 1) }

end Sys2Proof.Machine
end

