-- ==== Sys2Proof/Machine/Dma.lean ====
section
/-! DEFINITION. DMA operations (R68, R127 to R134, R214, R215): copies between the scratchpad and a local
address, and the transposing load. -/

namespace Sys2Proof.Machine

/-! ### Local addresses -/

/-- The status with which a write to a local address is refused (R27, R422, R423), 0 if it is not;
`ebb0` says the writer is Ebb die 0. -/
def writeRefused (ebb0 : Bool) (a : Nat) : Bool :=
  match regionOf a with
  | .unmapped => true
  | .strandline => !ebb0
  | _ => false

/-- The byte at a local address, control and status space included. -/
def State.localByte (s : State) (a : Nat) : Byte :=
  match regionOf a with
  | .control =>
    match locate (a - ctlBase) with
    | some h => BitVec.ofNat 8 (fld (s.csrWord h) (8 * h.byte) 8)
    | none => 0#8
  | _ => s.byte a

/-- The accesses of an 8 B word of control space: one of 8 B, or two of 4 B (R580). -/
def ctlPieces (off : Nat) : List (Nat × Nat) :=
  match locate off with
  | some h => if h.r.info.width = 64 ∧ h.byte = 0 then [(off, 8)] else [(off, 4), (off + 4, 4)]
  | none => [(off, 4), (off + 4, 4)]

/-- May an agent make an access of control space; a write of `v` given at the piece's place (R579). -/
def State.pieceCause (s : State) (a : Agent) (write : Bool) (off size v : Nat) : Option Cause :=
  match locate off with
  | none => some .unassigned
  | some h =>
    match s.reachCause a write h.r with
    | some c => some c
    | none =>
      if write ∧ (s.wordAfter a h size (BitVec.ofNat 64 (v * 2 ^ (8 * h.byte)))).2 then some .lock else none

/-- A piece of an agent's write to the core block. -/
def State.corePiece (s : State) (a : Agent) (off size v : Nat) : State :=
  match locate off with
  | some h => (s.coreWrite a h size (BitVec.ofNat 64 (v % 2 ^ (8 * size) * 2 ^ (8 * h.byte)))).1
  | none => s

/-! ### Transfers as byte and element moves -/

/-- The stream positions of the bytes of row `h`. -/
def TDesc.rowPos (d : TDesc) (h : Nat) : List Nat :=
  (List.range d.rowBytes).map (d.bitPos (d.index (h * d.ext.1)) / 8 + ·)

/-- The first elements of the blocks of a narrow descriptor. -/
def TDesc.firsts (d : TDesc) : List Nat := if d.fmt.narrow then (List.range d.total).filter d.isFirst else []

/-- The bytes a plain copy moves, as pairs of source and destination positions: rows in walk order, then
the scale bytes block by block (R214). -/
def copyPairs (s d : TDesc) : List (Nat × Nat) :=
  (List.range s.rows).flatMap (fun h => (s.rowPos h).zip (d.rowPos h)) ++
    s.firsts.map fun k => (s.scalePos k, d.scalePos k)

/-- Every byte position a descriptor names. -/
def TDesc.positions (d : TDesc) : List Nat :=
  (List.range d.rows).flatMap d.rowPos ++ d.firsts.map d.scalePos

/-- Maximal runs of consecutive addresses, as start and length. -/
def runsOf : List Nat → List (Nat × Nat)
  | [] => []
  | a :: t =>
    match runsOf t with
    | (b, n) :: r => if a + 1 = b then (a, n + 1) :: r else (a, 1) :: (b, n) :: r
    | [] => [(a, 1)]

/-- Does a far side in control space obey R580, with every access permitted (R579). -/
def State.ctlOk (s : State) (a : Agent) (write : Bool) (as : List Nat) : Bool :=
  (runsOf as).all fun r =>
    r.1 % 8 == 0 && r.2 % 8 == 0 && (List.range (r.2 / 8)).all fun k =>
      (ctlPieces (r.1 - ctlBase + 8 * k)).all fun p => (s.pieceCause a write p.1 p.2 0).isNone || (write &&
        s.pieceCause a write p.1 p.2 0 == some .lock)

/-- The spaces of source and destination (R214, R215). -/
def dmaSpaces (op : Nat) : List Nat × List Nat :=
  match op with
  | 0x60 => ([1], [0])
  | 0x61 => ([0], [1])
  | 0x62 => ([0, 1], [0])
  | _ => ([0], [0])

/-- The checks of a DMA operation at its start: its descriptors (R192), then R214 or R215 and R132, then
what the far side refuses (R423, R579). -/
def State.dmaCheck (s : State) (n eng : Nat) (f : Flight) : Nat × Nat :=
  let a := (dAt f.slots 0).t
  let b := (dAt f.slots 1).t
  let sp := dmaSpaces f.opcode
  let tr := f.opcode == 0x62
  let far (d : TDesc) : List Nat := d.positions.map (d.addr n)
  if a.check ⟨sp.1, false⟩ ≠ 0 then (a.check ⟨sp.1, false⟩, a.slot)
  else if b.check ⟨sp.2, true⟩ ≠ 0 then (b.check ⟨sp.2, true⟩, b.slot)
  else if a.num.fmt ≠ b.num.fmt ∨ a.num.sgn ≠ b.num.sgn ∨ (!tr ∧ a.num.bax ≠ b.num.bax) then (2, 0xFF)
  else if tr ∧ (b.ext ≠ (a.ext.2.1, a.ext.1, a.ext.2.2.1, a.ext.2.2.2) ∨ a.ext.1 % 32 ≠ 0 ∨ a.ext.2.1 % 32 ≠ 0) then
    (3, 0xFF)
  else if !tr ∧ a.ext ≠ b.ext then (3, 0xFF)
  else if b.space = 1 ∧ (far b).any (writeRefused false) then (1, b.slot)
  else if a.space = 1 ∧ regionOf a.base = .control ∧ !s.ctlOk (.dma n eng) false (far a) then (1, a.slot)
  else if b.space = 1 ∧ regionOf b.base = .control ∧ !s.ctlOk (.dma n eng) true (far b) then (1, b.slot)
  else (0, 0xFF)

/-- What a transfer has done: the state, the first failure as status and address, and whether a read failed its check. Of
failures of several kinds the first noted gives the status: reads, then writes, then words lost at port 1 (the model's choice,
log entry 66). -/
structure Moved where
  st : State
  fail : Option (Nat × Nat)
  chk : Bool := false
  deriving DecidableEq, Repr

/-- Note a failure; the first gives the status. -/
def Moved.note (m : Moved) (status addr : Nat) : Moved :=
  { m with fail := m.fail.or (some (status, addr)), chk := m.chk || status == 5 }

/-- The result of a DMA transfer; DMA_STAT.CHK says that a read failed its check, whatever the status (Table 4.16). -/
def Moved.ends (m : Moved) (n eng : Nat) : OpRes :=
  let s := if m.chk then m.st.raise .dmaStat n (eng - 6) 3 else m.st
  match m.fail with
  | some e => refuse s e.1 0xFF e.2
  | none => ⟨s, 0, 0, 0xFF⟩

/-- Perform the byte writes of a transfer of core `n`'s master (6 to 8), those into other scratchpads as
mesh writes; the words lost at port 1 are discarded (R118, R119). -/
def writeMoved (n master : Nat) (lost : List Nat) (c : Ctx) (ws : List MWrite) (m : Moved) : Moved :=
  let (ws, gone) := splitWrites (fun w => m.st.writeLost (if spadCore w.addr = n then master else 9) lost w) ws
  let (s, fs) := m.st.land ws
  let s := (s.reportUnits c fs).noteLost gone
  let m := fs.foldl (fun m f => m.note f.2 f.1) { m with st := s }
  match gone with
  | w :: _ => m.note 7 w.addr
  | [] => m

/-- Write bytes into control space, in ascending 8 B words; a word with a withheld byte is not written, a
write that R147 refuses fails with ADDR. -/
def writeCtl (a : Agent) (ws : List (Nat × Byte)) (m : Moved) : Moved :=
  ((ws.map fun w => w.1 / 8).eraseDups).foldl (fun (m : Moved) g =>
    let bs := (List.range 8).filterMap fun i => (ws.find? fun w => w.1 = 8 * g + i).map Prod.snd
    if bs.length ≠ 8 then m
    else
      let off := 8 * g - ctlBase
      let before := (locate off).map fun h => (h.r, h.n)
      let refused := match before with
        | some (.coreIm0, k) => m.st.imRefuses k 0
        | some (.coreIm1, k) => m.st.imRefuses k 1
        | _ => false
      let s := (ctlPieces off).foldl (fun s p =>
        s.corePiece a p.1 p.2 (leNat bs / 2 ^ (8 * (p.1 - off)))) m.st
      if refused then { m with st := s }.note 1 (8 * g) else { m with st := s }) m

/-- The failing check units of a transfer's reads. -/
def State.readBad (s : State) (as : List Nat) : List (Nat × Nat) := s.failsAt (as.filter fun a => regionOf a != .control)

/-- Does an address fall in a failing unit. -/
def badAt (bad : List (Nat × Nat)) (a : Nat) : Bool := bad.any fun b => b.1 == granule a

/-- 64 B moved at the far side. -/
def State.farMoved (s : State) (n bytes : Nat) : State := s.perf n 9 (bytes / 64)

/-- A plain copy (R214): the bytes derived from failing units are withheld (R608). `mesh` lists the waits of accesses to other
cores' scratchpads (R117). -/
def copyBody (n eng waits : Nat) (mesh : List (Nat × Nat)) (lost : List Nat) (s : State) (f : Flight) : OpRes :=
  let (st, slot) := s.dmaCheck n eng f
  if st ≠ 0 then refuse s st slot
  else
    let a := (dAt f.slots 0).t
    let b := (dAt f.slots 1).t
    let v := s.seeing f.seen
    let s := (s.waited n eng waits).meshWaited mesh
    let moves := (copyPairs a b).map fun p => (a.addr n p.1, b.addr n p.2)
    let bad := v.readBad (moves.map Prod.fst)
    let good := moves.filter fun p => !badAt bad p.1
    let data := good.map fun p => (p.2, v.localByte p.1)
    let s := if f.opcode = 0x63 then s else s.farMoved n moves.length
    let m : Moved := bad.foldl (fun m g => m.note g.2 g.1) ⟨s.reportUnits (f.ctx n) bad, none, false⟩
    let m := if b.space = 1 ∧ regionOf b.base = .control then writeCtl (.dma n eng) data m
      else writeMoved n eng lost (f.ctx n) (data.map fun d => .whole d.1 d.2) m
    m.ends n eng

/-! ### The transposing load (R131 to R133) -/

/-- The source element of destination element `k`. -/
def transposed (a b : TDesc) (k : Nat) : Nat :=
  let i := b.index k
  i.2.1 + a.ext.1 * (i.1 + a.ext.2.1 * (i.2.2.1 + a.ext.2.2.1 * i.2.2.2))

/-- The tile of a source element: plane and tile row and column. -/
def tileOf (a : TDesc) (k : Nat) : Nat × Nat × Nat :=
  let i := a.index k
  (i.2.2.1 + a.ext.2.2.1 * i.2.2.2, i.2.1 / 32, i.1 / 32)

/-- The scale byte of element `k` of a source anywhere in the local map. -/
def State.localScale (s : State) (n : Nat) (d : TDesc) (k : Nat) : Byte := s.localByte (d.addr n (d.scalePos k))

/-- Are the scale bytes of every tile equal (R68, R133). -/
def State.tilesPass (s : State) (n : Nat) (a : TDesc) : Bool :=
  a.firsts.all fun k =>
    let t := tileOf a k
    let k0 := (t.1 * a.ext.2.1 + t.2.1 * 32) * a.ext.1 + t.2.2 * 32
    s.localScale n a k == s.localScale n a k0

/-- The code of element `k` of a source anywhere in the local map. -/
def State.localElem (s : State) (n : Nat) (d : TDesc) (k : Nat) : Nat :=
  leNat ((d.elemBytes k).map fun p => s.localByte (d.addr n p)) / 2 ^ (d.bitPos (d.index k) % 8) % 2 ^ d.w

/-- DLOADT's effect: the scale plane first, then the elements; a destination byte that any failing word has a part in is
withheld (R608). -/
def loadtBody (n eng waits : Nat) (mesh : List (Nat × Nat)) (lost : List Nat) (s : State) (f : Flight) : OpRes :=
  let (st, slot) := s.dmaCheck n eng f
  if st ≠ 0 then refuse s st slot
  else
    let a := (dAt f.slots 0).t
    let b := (dAt f.slots 1).t
    let v := s.seeing f.seen
    let s := (s.waited n eng waits).meshWaited mesh
    let sbad := v.readBad (a.firsts.map fun k => a.addr n (a.scalePos k))
    match sbad with
    | g :: _ => refuse (if sbad.any fun b => b.2 == 5 then (s.reportUnits (f.ctx n) sbad).raise .dmaStat n (eng - 6) 3
        else s.reportUnits (f.ctx n) sbad) g.2 0xFF g.1
    | [] =>
      if !v.tilesPass n a then refuse s 8 a.slot (a.addr n 0 % 2 ^ 44)
      else
        let bad := v.readBad ((List.range a.rows).flatMap fun h => (a.rowPos h).map (a.addr n))
        let broken (k : Nat) : Bool := (elemAddrs n a (transposed a b k)).any (badAt bad)
        let ks := List.range b.total
        let held := (ks.filter broken).flatMap (elemAddrs n b)
        let ws := (ks.flatMap fun k => elemWrites n b k (v.localElem n a (transposed a b k))).filter
            (fun w => !held.contains w.addr) ++
          b.firsts.map fun k => .whole (b.addr n (b.scalePos k)) (v.localScale n a (a.blockFirst (transposed a b k)))
        let s := if a.space = 0 then s else s.farMoved n (a.rows * a.rowBytes + a.blocks)
        let m : Moved := bad.foldl (fun m g => m.note g.2 g.1) ⟨s.reportUnits (f.ctx n) bad, none, false⟩
        (writeMoved n eng lost (f.ctx n) ws m).ends n eng

/-! ### The operations -/

/-- A DMA engine starts its next operation, or reads part of its source, unless halted (R134) or its far side must wait (R448,
R457). -/
def dmaStart (n eng op : Nat) (early : Early) (body : State → Flight → OpRes) (s : State) : State :=
  if (eng ≠ 6 ∧ eng ≠ 7) ∨ s.flag .dmaCtl n (eng - 6) 8 then s
  else match s.queuedOn n eng with
    | none => s
    | some f =>
      let far (i : Nat) : List Nat :=
        let d := (dAt f.slots i).t
        if d.space = 1 ∧ regionOf d.base ≠ .control then d.positions.map (d.addr n) else []
      if f.opcode = op ∧ (s.dmaCheck n eng f).1 = 0 then
        s.accessing (far 0) (far 1) fun s => runOp s n eng op early body
      else runOp s n eng op early body

/-- DLOAD (R214). -/
def execDload (n eng waits : Nat) (lost : List Nat) (s : State) (early : Early := {}) (mesh : List (Nat × Nat) := []) : Ans :=
  ok (dmaStart n eng 0x60 early (copyBody n eng waits mesh lost) s)
/-- DSTORE (R214). -/
def execDstore (n eng waits : Nat) (lost : List Nat) (s : State) (early : Early := {}) (mesh : List (Nat × Nat) := []) : Ans :=
  ok (dmaStart n eng 0x61 early (copyBody n eng waits mesh lost) s)
/-- DLOADT (R215). -/
def execDloadt (n eng waits : Nat) (lost : List Nat) (s : State) (early : Early := {}) (mesh : List (Nat × Nat) := []) : Ans :=
  ok (dmaStart n eng 0x62 early (loadtBody n eng waits mesh lost) s)
/-- DCOPY (R214). -/
def execDcopy (n eng waits : Nat) (lost : List Nat) (s : State) (early : Early := {}) : Ans :=
  ok (dmaStart n eng 0x63 early (copyBody n eng waits [] lost) s)

end Sys2Proof.Machine
end

