-- ==== Sys2Proof/Machine/Fec.lean ====
section
/-! DEFINITION. The codewords of a link (R326, R327): RS(544,514) over GF(2¹⁰), the codeword header, and the symbols by
lane. The field polynomial and the code's generator are those of IEEE 802.3 (PRESUMED, log entry 68). -/

namespace Sys2Proof.Machine

/-- Product in GF(2¹⁰), field polynomial x¹⁰ + x³ + 1: `k` bits of `b` are still to be used. -/
def gfMulBits : Nat → Nat → Nat → Nat
  | 0, _, _ => 0
  | k + 1, a, b =>
    let d := 2 * a
    Nat.xor (if b % 2 = 1 then a else 0) (gfMulBits k (if d < 1024 then d else Nat.xor d 0x409) (b / 2))

/-- Product in GF(2¹⁰). -/
def gfMul (a b : Nat) : Nat := if a = 0 ∨ b = 0 then 0 else gfMulBits 10 a b

/-- Multiply a polynomial, highest coefficient first and led by 1, by x + r. -/
def polyTimes (p : List Nat) (r : Nat) : List Nat := ((p ++ [0]).zip (0 :: p)).map fun (e : Nat × Nat) => Nat.xor e.1 (gfMul e.2 r)

/-- The generator with roots α⁰ to α^(k−1), and α^k. -/
def rsGenerator : Nat → List Nat × Nat
  | 0 => ([1], 1)
  | k + 1 =>
    let r := rsGenerator k
    (polyTimes r.1 r.2, gfMul r.2 2)

/-- The 30 parity symbols of a message: its remainder, symbol by symbol. -/
def rsParity (msg : List Nat) : List Nat :=
  msg.foldl (fun (r : List Nat) x =>
    let f := Nat.xor x (r.headD 0)
    let r := r.drop 1 ++ [0]
    if f = 0 then r else (r.zip ((rsGenerator 30).1.drop 1)).map fun e => Nat.xor e.1 (gfMul f e.2)) (List.replicate 30 0)

/-- The 514 message symbols: the header with the codeword counter, then ten flits, least significant bits first (R326). -/
def cwMessage (counter : Nat) (flits : List (List Byte)) : List Nat :=
  let v := counter % 2 ^ 16 + 2 ^ 20 * leNat (flits.flatMap fun f => sliceB f 0 64)
  (List.range 514).map fun j => v / 2 ^ (10 * j) % 1024

/-- A codeword: message and parity. -/
def codeword (counter : Nat) (flits : List (List Byte)) : List Nat := cwMessage counter flits ++ rsParity (cwMessage counter flits)

/-- Is a list of symbols a codeword. -/
def isCodeword (w : List Nat) : Bool := w.length == 544 && w.all (· < 1024) && rsParity (w.take 514) == w.drop 514

/-- Symbol j goes to lane j mod 8 (R326). -/
def toLanes (w : List Nat) : List (List Nat) :=
  (List.range 8).map fun l => (List.range (cdiv (w.length - l) 8)).map fun k => w.getD (8 * k + l) 0

/-- The symbols of 544 that eight lanes carry. -/
def ofLanes (ls : List (List Nat)) : List Nat := (List.range 544).map fun j => (ls.getD (j % 8) []).getD (j / 8) 0

/-- In how many symbols two words differ. -/
def symbolErrors (a b : List Nat) : Nat := ((a.zip b).filter fun e => e.1 != e.2).length

/-- The codeword counter of a codeword's header. -/
def cwCounter (w : List Nat) : Nat := ((w.take 2).foldr (fun x a => x + 1024 * a) 0) % 2 ^ 16

/-- The ten flits of a codeword, in transmission order. -/
def cwFlits (w : List Nat) : List (List Byte) :=
  let v := (w.take 514).foldr (fun x a => x + 1024 * a) 0 / 2 ^ 20
  (List.range 10).map fun i => leBytes 64 (v / 2 ^ (512 * i))

end Sys2Proof.Machine
end

