-- ==== Sys2Proof/Machine/Route.lean ====
section
/-! DEFINITION. Packets and their way (chapter 10): the packet header, the route word and its legality, the
transmitter of a port, and the router. -/

namespace Sys2Proof.Machine

/-! ### Packets (Table 10.6) -/

/-- The 32 B packet header as a number. -/
def pktHeader (p : Packet) : Nat :=
  b2n p.dl + (p.segi % 4) * 2 ^ 1 + (p.hop % 256) * 2 ^ 3 + (p.status % 16) * 2 ^ 11 + (p.rmark % 64) * 2 ^ 15 +
    (p.rcore % 256) * 2 ^ 21 + b2n p.rmv * 2 ^ 29 + b2n p.last * 2 ^ 30 + (p.kind % 16) * 2 ^ 31 +
    (p.gen % 4) * 2 ^ 35 + (p.dom % 2 ^ 16) * 2 ^ 37 + (p.sagt % 1024) * 2 ^ 53 + (p.src % 2 ^ 24) * 2 ^ 63 +
    (p.xid % 2 ^ 16) * 2 ^ 87 + (p.plen % 2 ^ 13) * 2 ^ 103 + (p.tlen % 2 ^ 32) * 2 ^ 116 +
    (p.addr % 2 ^ 44) * 2 ^ 148 + p.route.toNat * 2 ^ 192

/-- The packet whose bytes are given. -/
def pktOfBytes (bs : List Byte) : Packet :=
  let h := natAt bs 0 32
  let f (lo len : Nat) : Nat := h / 2 ^ lo % 2 ^ len
  { route := BitVec.ofNat 64 (f 192 64), addr := f 148 44, tlen := f 116 32, plen := f 103 13, xid := f 87 16,
    src := f 63 24, sagt := f 53 10, dom := f 37 16, gen := f 35 2, kind := f 31 4, last := f 30 1 == 1,
    rmv := f 29 1 == 1, rcore := f 21 8, rmark := f 15 6, status := f 11 4, hop := f 3 8, segi := f 1 2,
    dl := f 0 1 == 1, data := sliceB bs 32 (f 103 13) }

/-- Flits of a packet (R337). -/
def pktFlits (p : Packet) : Nat := cdiv (32 + p.plen) 54

/-- A response (Table 10.7). -/
def pktIsResponse (p : Packet) : Bool := p.kind == 2 || p.kind == 3

/-- The VC class of a packet: 0 request, 1 Bore and gate, 2 response (Table 10.5). -/
def pktClass (p : Packet) : Nat := if pktIsResponse p then 2 else if p.kind = 7 ∨ p.kind = 8 then 1 else 0

/-! ### Route words (Tables 10.8, 10.9) -/

/-- A segment of a route word. -/
structure Seg where
  axis : Nat
  dir : Nat
  hops : Nat
  psel : Nat
  deriving DecidableEq, Repr

/-- Segment `k`. -/
def segOf (w : W64) (k : Nat) : Seg := ⟨fld w (11 * k + 9) 2, fld w (11 * k + 8) 1, fld w (11 * k + 2) 6, fld w (11 * k) 2⟩

/-- The segments of the path: HOPS 0 ends it. -/
def pathOf (w : W64) : List Seg := ((List.range 4).map (segOf w)).takeWhile fun g => g.hops != 0

/-- MCAST. -/
def mcastOf (w : W64) : Nat := fld w 60 2
/-- MMASK. -/
def mmaskOf (w : W64) : Nat := fld w 44 16

/-- The route word that injection uses in place of a program's (R339); none where R340 refuses its MODE. -/
def State.resolve (s : State) (w : W64) : Option W64 :=
  match fld w 62 2 with
  | 0 => some w
  | 1 =>
    let e := s.rd .rteTable 0 (fld w 0 12)
    if fld w 12 50 = 0 ∧ fld e 62 2 = 0 then some e else none
  | 2 => some (w &&& maskOf 64 44 18)
  | _ => none

/-- Ring length of an axis. -/
def State.ringLen (s : State) (a : Nat) : Nat := s.fd .rteRing 0 0 (6 * a) 6
/-- This chip's coordinate on an axis. -/
def State.coordOn (s : State) (a : Nat) : Nat := s.fd .rteCoord 0 0 (6 * a) 6
/-- This chip's coordinate. -/
def State.coord (s : State) : Nat := s.fd .rteCoord 0 0 0 24
/-- The date line of an axis direction. -/
def State.dateline (s : State) (a d : Nat) : Nat := s.fd .rteDateline 0 0 (6 * (2 * a + d)) 6
/-- RTE_DOMAIN. -/
def State.domain (s : State) : Nat := s.fd .rteDomain 0 0 0 16
/-- The generation label of packets injected now (R358). -/
def State.genNow (s : State) : Nat := s.fd .rteGen 0 0 0 2

/-- Are the axes of the segments with hops strictly ascending. -/
def axesAscend (l : List Seg) : Bool :=
  let as := (l.filter fun g => g.hops != 0).map (·.axis)
  (as.zip (as.drop 1)).all fun e => decide (e.1 < e.2)

/-- May a packet of this kind for this address be injected under this route (R340). `own` says that the path
stays on this chip by rule, where no domain is needed. -/
def State.legal (s : State) (w : W64) (kind addr : Nat) (own : Bool) : Bool :=
  let g := (List.range 4).map (segOf w)
  let path := pathOf w
  let m := mcastOf w
  g.all (fun x => x.psel != 3) &&
    (List.range 3).all (fun k => fld w (11 * (k + 1) + 2) 6 != 0 || fld w (11 * (k + 1)) 11 == 0) &&
    axesAscend g && g.all (fun x => decide (x.hops = 0 ∨ x.hops + 1 ≤ s.ringLen x.axis)) &&
    (m == 0 || !([1, 5, 6, 7, 8].contains kind)) &&
    (m != 1 || (match path.getLast? with | some x => x.psel != 2 | none => false)) &&
    (m < 2 || (mmaskOf w != 0 && inScratch addr)) && (2 ≤ m || mmaskOf w == 0) && (own || s.domain != 0)

/-- The route of a response (R343): every segment of the path reversed; after an axis multicast the last one
covers the hops the copy took. -/
def reverseRoute (p : Packet) : W64 :=
  let path := pathOf p.route
  path.zipIdx.foldl (fun w e =>
    let hops := if mcastOf p.route = 1 ∧ e.2 + 1 = path.length then p.hop else e.1.hops
    setFld w (11 * e.2) 11 (e.1.psel + hops * 4 + (1 - e.1.dir) * 256 + e.1.axis * 512)) 0#64

/-! ### Ports -/

/-- A port. -/
def State.port (s : State) (p : Nat) : PortSt := Sparse.get {} s.ports p
/-- Change a port. -/
def State.modPort (s : State) (p : Nat) (f : PortSt → PortSt) : State := { s with ports := Sparse.modify {} s.ports p f }

/-- LNK_STAT.STATE. -/
def State.linkState (s : State) (p : Nat) : Nat := s.fd .lnkStat p 0 0 3
/-- May packets leave through a port: UP, its neighbour not stranded (R342, R370). -/
def State.portUp (s : State) (p : Nat) : Bool := s.linkState p == 5 && !s.flag .lnkStat p 0 7
/-- Is the link encrypted (R368). -/
def State.linkEnc (s : State) (p : Nat) : Bool := s.flag .lnkCfg p 0 1

/-- The detail of a record of class 0x04 about a packet (Table 18.6). -/
def pktDetail (k : Packet) (port : Nat) : Nat :=
  k.src % 2 ^ 24 + (k.sagt % 2 ^ 16) * 2 ^ 24 + (k.xid % 2 ^ 16) * 2 ^ 40 + (k.dom % 2 ^ 16) * 2 ^ 56 + (port % 256) * 2 ^ 72

/-- A record of class 0x04 about a packet at a port. -/
def State.packetFault (s : State) (evt port : Nat) (k : Packet) : State :=
  s.fault { cls := 4, evt := evt, src := 0x110 + port, detail := pktDetail k port }

/-- A packet lost for a port that is not UP (R342). -/
def State.dropPacket (s : State) (p : Nat) (k : Packet) : State := (s.count .lnkDrop p 0 0 32 1).packetFault 0 p k

/-! ### The transmitter (R328 to R336, R368) -/

/-- The 64 B of a flit (R328). -/
def flitBytes (hdr : Nat) (body : List Byte) : List Byte :=
  let b := leBytes 6 hdr ++ sliceB body 0 54
  b ++ leBytes 4 (crc32 b).toNat

/-- The link header of a data or tag flit (Table 10.3). -/
def TFlit.header (f : TFlit) : Nat := f.vc + f.ft * 8 + b2n f.head * 32 + b2n f.tail * 64 + f.seq * 128 + f.ack * 2 ^ 19

/-- A data or tag flit on the wire. -/
def TFlit.wire (f : TFlit) : List Byte := flitBytes f.header f.body

/-- The acknowledgement fields of the next flit sent, from bit 19: of the VCs that have accepted flits each is named in turn,
with the SEQ it expects (R332). -/
def PortSt.nextAck (t : PortSt) : Nat × PortSt :=
  match ((List.range 8).map fun i => (t.ackTurn + 1 + i) % 8).find? t.rxSeen.contains with
  | none => (0, t)
  | some v => (v + 2 ^ 3 + t.rxNext.getD v 0 * 2 ^ 4, { t with ackTurn := v })

/-- A flit goes to the lanes: every ten make a codeword (R326). -/
def PortSt.lane (t : PortSt) (bs : List Byte) : PortSt :=
  let g := t.txGroup ++ [bs]
  if g.length < 10 then { t with txGroup := g }
  else { t with txGroup := [], txCw := (t.txCw + 1) % 2 ^ 16, lanes := toLanes (codeword t.txCw g) }

/-- Send a flit's bytes over a port. -/
def State.sendFlit (s : State) (p : Nat) (bs : List Byte) : State := (s.modPort p fun t => t.lane bs).emit (.flit p bs)

/-- Send a control flit or replay request with a header that names no acknowledgement: the next in turn is added (R332). -/
def State.sendControl (s : State) (p hdr : Nat) (body : List Byte) : State :=
  let (ack, t) := (s.port p).nextAck
  (s.modPort p fun _ => t).sendFlit p (flitBytes (hdr + ack * 2 ^ 19) body)

/-- Queue a data or tag flit: it takes the next SEQ of its VC (R329) and an acknowledgement (R332). -/
def PortSt.queue (t : PortSt) (vc ft : Nat) (head tail : Bool) (body : List Byte) : PortSt × TFlit :=
  let n := t.txNext.getD vc 0
  let (ack, t) := t.nextAck
  let f : TFlit := ⟨vc, n, ft, head, tail, ack, body⟩
  ({ t with wait := t.wait ++ [f], txNext := t.txNext.set vc ((n + 1) % 4096) }, f)

/-- The IV of a frame: salt, 0b00000, VC in 3 bits, 56-bit frame counter (R368). -/
def frameIv (salt vc ctr : Nat) : Nat := salt % 2 ^ 32 * 2 ^ 64 + vc % 8 * 2 ^ 56 + ctr % 2 ^ 56

/-- The tag of a frame: the flits' link headers are its additional data (R368). -/
def frameTag (key : List Byte) (iv : Nat) (fs : List TFlit) : List Byte :=
  sliceB (Config.gcmTag key iv (fs.flatMap fun f => leBytes 6 f.header) (fs.flatMap (·.body))) 0 16

/-- Close the open frame of a VC with its tag flit (R368). -/
def PortSt.closeFrame (t : PortSt) (vc : Nat) : PortSt :=
  let fs := t.txFrame.filter fun f => f.vc == vc
  if fs.isEmpty then t
  else
    let c := t.frameCtr.getD vc 0
    { (t.queue vc 3 false false (frameTag t.txKey (frameIv t.txSalt vc c) fs)).1 with
      txFrame := t.txFrame.filter fun f => f.vc != vc, frameCtr := t.frameCtr.set vc (c + 1) }

/-- Queue a data flit; under encryption it joins its VC's frame, which closes at 64 flits. -/
def PortSt.queueData (t : PortSt) (enc : Bool) (vc : Nat) (head tail : Bool) (body : List Byte) : PortSt :=
  if !enc then (t.queue vc 0 head tail body).1
  else
    let k := (t.txFrame.filter fun f => f.vc == vc).length
    let iv := frameIv t.txSalt vc (t.frameCtr.getD vc 0)
    let (t, f) := t.queue vc 0 head tail (sliceB (Config.gcmSeal t.txKey iv (54 * k) body) 0 54)
    let t := { t with txFrame := t.txFrame ++ [f] }
    if k + 1 = 64 then t.closeFrame vc else t

/-- Has a frame counter come so near 2⁵⁶ that new keys are due (R369). -/
def PortSt.keysSpent (t : PortSt) : Bool := t.frameCtr.any fun c => decide (2 ^ 56 - 4 ≤ c)

/-- Can a VC send: a flit waits, it holds a credit, and fewer than 256 flits are unacknowledged (R329, R334). -/
def PortSt.sendable (t : PortSt) (vc : Nat) : Bool :=
  t.wait.any (fun f => f.vc == vc) && t.credits.getD vc 0 != 0 && decide ((t.unacked.filter fun f => f.vc == vc).length < 256)

/-- The VC that a flit slot goes to (R336). -/
def PortSt.pick (t : PortSt) (lsw : Nat) : Option Nat :=
  let long := [7, 6].find? t.sendable
  let own := ((List.range 6).map fun i => (t.served + 1 + i) % 6).find? t.sendable
  if t.slot < lsw then long.or own else own.or long

/-- Send flits until none may be sent: at most `k`. -/
def PortSt.pump (lsw : Nat) : Nat → PortSt → PortSt × List TFlit
  | 0, t => (t, [])
  | k + 1, t =>
    match t.pick lsw with
    | none => (t, [])
    | some vc =>
      match t.wait.find? fun f => f.vc == vc with
      | none => (t, [])
      | some f =>
        let t := { t with wait := dropFirst (fun f => f.vc == vc) t.wait, unacked := t.unacked ++ [f],
                          credits := t.credits.set vc (t.credits.getD vc 0 - 1), slot := (t.slot + 1) % 16,
                          served := if vc < 6 then vc else t.served }
        let r := PortSt.pump lsw k t
        (r.1, f :: r.2)

/-- Send what a port may send. Nothing but control flits leaves a port that is not UP, or a stranded chip. A port whose frame
counters are spent goes to KEYX once nothing it has sealed is outstanding (R369; log entry 68). -/
def State.pump (s : State) (p : Nat) : State :=
  if !s.portUp p || s.isStranded then s
  else
    let t := s.port p
    let (t', fs) := t.pump (max 1 (s.fd .lnkCfg p 0 8 4)) t.wait.length
    let s := fs.foldl (fun s f => s.sendFlit p f.wire) (s.modPort p fun _ => t')
    if s.linkEnc p && t'.keysSpent && t'.wait.isEmpty && t'.unacked.isEmpty && t'.txFrame.isEmpty then s.setF .lnkStat p 0 0 3 3
    else s

/-- The flits of a packet join a port's queue on a VC (R335, R337). -/
def PortSt.queuePacket (t : PortSt) (enc : Bool) (vc : Nat) (k : Packet) : PortSt :=
  let bs := leBytes 32 (pktHeader k) ++ sliceB k.data 0 k.plen
  let n := pktFlits k
  let t := (List.range n).foldl (fun (t : PortSt) i => t.queueData enc vc (i == 0) (i + 1 == n) (sliceB bs (54 * i) 54)) t
  let last := ((t.wait.filter fun f => f.vc == vc && f.ft == 0).getLast?.map (·.seq)).getD 0
  { t with packets := t.packets ++ [(vc, last, k)] }

/-- Hand a packet to a port on a VC; it waits while the port's keys are spent (R369). -/
def State.sendPacket (s : State) (p vc : Nat) (k : Packet) : State :=
  let enc := s.linkEnc p
  (s.modPort p fun t =>
    if enc && t.keysSpent then { t with later := t.later ++ [(vc, k)] } else t.queuePacket enc vc k).pump p

/-! ### The router (R339 to R346, R361) -/

/-- The coordinate of the next chip in a direction. -/
def State.nextCoord (s : State) (a d : Nat) : Nat :=
  let l := s.ringLen a
  if d = 0 then (s.coordOn a + 1) % l else (s.coordOn a + l - 1) % l

/-- The packet of a port that no longer counts as UP goes on through the other port of its direction if it sprays and that one
is UP, else it is lost (R342, R370). -/
def State.shedPacket (s : State) (p vc : Nat) (k : Packet) : State :=
  let other := p / 2 * 2 + (1 - p % 2)
  if decide (p < 16) && (segOf k.route k.segi).psel == 2 && s.portUp other then s.sendPacket other vc k else s.dropPacket p k

/-- A port that stays UP toward a stranded neighbour holds no packet (R370): its flits are withdrawn, with the SEQ and credits
they took. -/
def State.shedPort (s : State) (p : Nat) : State :=
  let t := s.port p
  let gone := t.unacked ++ t.wait
  let first (vc : Nat) : Nat := ((gone.find? fun f => f.vc == vc).map (·.seq)).getD (t.txNext.getD vc 0)
  let back (vc : Nat) : Nat := min 288 (t.credits.getD vc 0 + (t.unacked.filter fun f => f.vc == vc).length)
  let s := s.modPort p fun t =>
    { t with wait := [], unacked := [], txFrame := [], packets := [], later := [],
             txNext := (List.range 8).map first, credits := (List.range 8).map back }
  ((t.packets.map fun e => (e.1, e.2.2)) ++ t.later).foldl (fun s e => s.shedPacket p e.1 e.2) s

/-- A packet leaves along a segment. Which domain the next chip is in, the sender is not told: a free value
(R344). -/
def State.sendHop (s : State) (k : Packet) (g : Seg) : State :=
  let (w, s) := s.free
  let dl := k.dl || s.nextCoord g.axis g.dir == s.dateline g.axis g.dir
  let vc := if bit w 0 then (if pktIsResponse k then 7 else 6) else 2 * pktClass k + b2n dl
  let p := 4 * g.axis + 2 * g.dir
  let cr (p : Nat) : Nat := (s.port p).credits.getD vc 0
  let first := if g.psel = 2 then (if cr p < cr (p + 1) then p + 1 else p) else p + g.psel
  let other := if first = p then p + 1 else p
  if s.portUp first then s.sendPacket first vc k
  else if g.psel = 2 ∧ s.portUp other then s.sendPacket other vc k
  else s.dropPacket first k

/-- Deliver a packet to this chip. -/
def State.deliver (s : State) (k : Packet) : State := { s with inbox := s.inbox ++ [k] }

/-- A packet at the router of this chip, standing at its current segment: it leaves, or it has arrived. -/
def State.routeOut (s : State) (k : Packet) : State :=
  let g := segOf k.route k.segi
  if g.hops = 0 then s.deliver k else s.sendHop k g

/-- Inject a packet (R339 to R341, R358, R363): from its first segment, with this chip's domain; a chip without a domain
injects nothing. -/
def State.inject (s : State) (k : Packet) : State :=
  if s.domain = 0 then s else s.routeOut { k with dom := s.domain, hop := 0, segi := 0, dl := false }

/-- A packet of a torus port after its hop: where it stands. -/
def State.arrive (s : State) (k : Packet) : Packet :=
  let g := segOf k.route k.segi
  { k with hop := k.hop + 1, dl := k.dl || s.coordOn g.axis == s.dateline g.axis g.dir }

/-- Do the packet's hops in this segment end the segment, and is that the last one. -/
def pktAtEnd (k : Packet) : Bool × Bool :=
  (decide ((segOf k.route k.segi).hops ≤ k.hop), decide ((pathOf k.route).length ≤ k.segi + 1))

/-- A packet of another domain is discarded (R361). -/
def State.domErr (s : State) (p : Nat) (k : Packet) : State := (s.count .rteDomerr 0 0 0 32 1).packetFault 1 p k

/-- Is the packet of this chip's domain (R361). -/
def State.ownPacket (s : State) (k : Packet) : Bool := k.dom != 0 && k.dom == s.domain

/-- A packet whose path ends at this chip: delivered if it is of the chip's domain (R361). -/
def State.deliverOwn (s : State) (p : Nat) (k : Packet) : State := if s.ownPacket k then s.deliver k else s.domErr p k

/-- Forward or deliver a packet that has arrived over a torus port (R341, R355, R361). -/
def State.route (s : State) (p : Nat) (k0 : Packet) : State :=
  let transit := (List.range 4).any fun i => k0.dom != 0 && k0.dom == s.fd .rteTransit 0 0 (16 * i) 16
  if !s.ownPacket k0 && !transit then s.domErr p k0
  else
    let k := s.arrive k0
    let take (s : State) : State := s.deliverOwn p k
    let e := pktAtEnd k
    if e.1 && e.2 then take s
    else
      let s := if mcastOf k.route = 1 ∧ e.2 then take s else s
      if e.1 then s.routeOut { k with segi := k.segi + 1, hop := 0, dl := false } else s.routeOut k

/-- The answer to a request: status and data, on the way back (R343, R350, R358). -/
def State.reply (s : State) (q : Packet) (kind status addr : Nat) (data : List Byte) (last : Bool) : State :=
  s.inject { q with route := reverseRoute q, addr := addr, plen := data.length, kind := kind, last := last, rmv := false,
                    rcore := 0, rmark := 0, status := status, data := data }

end Sys2Proof.Machine
end

