-- ==== Sys2Proof/Machine/Fabric.lean ====
section
/-! DEFINITION. The fabric put/get unit (R216 to R218, R339, R340, R441, R553, R608): operations at their
source, what answers them, and route generations (R357 to R359). -/

namespace Sys2Proof.Machine

/-! ### Transfers of a fabric unit -/

/-- Note a status for an operation, if it is its first. -/
def State.noteFlight (s : State) (n fid status addr : Nat) : State :=
  s.updCore n fun c => { c with flights := replFirst (fun f => f.fid == fid) (fun f =>
    if f.status = 0 then { f with status := status, addr := addr } else f) c.flights }

/-- An operation is done. -/
def State.doneFlight (s : State) (n fid : Nat) : State :=
  s.updCore n fun c => { c with flights := replFirst (fun f => f.fid == fid) (fun f => { f with phase := .done }) c.flights }

/-- Remove the transfers that satisfy a test; their operation is done once none is left. -/
def State.endSources (s : State) (n fid : Nat) (p : Source → Bool) : State :=
  let s := { s with sources := s.sources.filter fun x => !p x }
  if s.sources.any fun x => x.core == n && x.fid == fid then s else s.doneFlight n fid

/-- The next transfer identifier of a core. -/
def State.takeXid (s : State) (n : Nat) : Nat × State :=
  let x := (s.core n).nextXid
  (x, s.modCore n fun c => { c with nextXid := (x + 1) % 2 ^ 16 })

/-- A packet of core `n` before its data. -/
def State.blank (s : State) (n kind xid addr tlen : Nat) (w : W64) : Packet :=
  { route := w, addr := addr, tlen := tlen, plen := 0, xid := xid, src := s.coord, sagt := n, dom := s.domain,
    gen := s.genNow, kind := kind, last := true, rmv := false, rcore := 0, rmark := 0, status := 0, hop := 0,
    segi := 0, dl := false, data := [] }

/-- Cut a range at 4 KiB boundaries (R338): start and length of each piece; `k` bounds their number. -/
def cut4k : Nat → Nat → Nat → List (Nat × Nat)
  | 0, _, _ => []
  | k + 1, a, len =>
    if len = 0 then []
    else
      let m := min len (4096 - a % 4096)
      (a, m) :: cut4k k (a + m) (len - m)

/-- The packets that carry bytes to rising addresses, from a template (R337, R338); the last has LAST. -/
def dataPackets (t : Packet) (bs : List (Nat × Byte)) : List Packet :=
  let ps := (runsOf (bs.map Prod.fst)).flatMap fun r => cut4k (r.2 / 4096 + 2) r.1 r.2
  let data := ps.foldl (fun (r : List Packet × List (Nat × Byte)) p =>
    (r.1 ++ [{ t with addr := p.1, plen := p.2, last := false, data := (r.2.take p.2).map Prod.snd }], r.2.drop p.2)) ([], bs)
  data.1.zipIdx.map fun e => { e.1 with last := e.2 + 1 == ps.length }

/-- Open a transfer and inject its packets. -/
def State.openSource (s : State) (x : Source) : State :=
  x.sent.foldl (fun s k => s.inject k) { s with sources := s.sources ++ [x] }

/-- Completions that a transfer under a route has to count: one from each chip an axis multicast reaches
(R355), else one. -/
def wantedBy (w : W64) : Nat :=
  if mcastOf w = 1 then ((pathOf w).getLast?.map (·.hops)).getD 1 else 1

/-- A transfer whose packets carry data or a signal, opened. -/
def State.sendTransfer (s : State) (n fid xid : Nat) (w : W64) (ps : List Packet) : State :=
  s.openSource { core := n, xid := xid, fid := fid, sent := ps, data := false, want := wantedBy w, got := 0,
                 base := 0, dst := [], gen := s.genNow, busy := [] }

/-- A transfer that asks for data, opened; `dst` says where byte i of the range goes. -/
def State.askTransfer (s : State) (n fid kind : Nat) (w : W64) (addr : Nat) (dst : List (Option Nat)) : State :=
  let (xid, s) := s.takeXid n
  s.openSource { core := n, xid := xid, fid := fid, sent := [s.blank n kind xid addr dst.length w], data := true,
                 want := dst.length, got := 0, base := addr, dst := dst, gen := s.genNow, busy := [] }

/-! ### Control operand and routes -/

/-- Does the control operand break Table 6.11 (R607). -/
def badFabCtl (v : W64) : Bool := v &&& ~~~0xFF7F#64 != 0#64

/-- A packet with the mark of a control operand. -/
def withMark (k : Packet) (v : W64) : Packet := { k with rmv := bit v 6, rcore := fld v 8 8, rmark := fld v 0 6 }

/-- The legal route of an operand, if it has one. -/
def State.routeFor (s : State) (w : W64) (kind addr : Nat) : Option W64 :=
  (s.resolve w).filter fun r => s.legal r kind addr false

/-- The chip-on-board index of this chip (R440). -/
def State.boardIndex (s : State) : Nat :=
  s.coordOn 0 % 2 + 2 * (s.coordOn 1 % 2) + 4 * (s.coordOn 2 % 2) + 8 * (s.coordOn 3 % 2)

/-- The legal route to chip `b` of the board (R339); none on a chip without a domain (R340). -/
def State.boardRoute (s : State) (b kind addr : Nat) : Option W64 :=
  if s.domain = 0 then none
  else if b = s.boardIndex then some 0#64
  else
    let e := s.rd .rteBoard 0 b
    if fld e 62 2 = 0 ∧ s.legal e kind addr false then some e else none

/-- A failing read's first status and address, noted for the operation. -/
def State.noteBad (s : State) (n fid : Nat) (bad : List (Nat × Nat)) : State :=
  match bad with
  | [] => s
  | g :: _ => s.noteFlight n fid g.2 g.1

/-! ### PUT, GET, RSIG -/

/-- PUT's start (R216, R608), on what it has read ahead. -/
def putBody (n waits : Nat) (s : State) (f : Flight) : State × Option OpRes :=
  let a := (dAt f.slots 0).t
  let v := vAt f.slots 3
  let dst := fld (vAt f.slots 1) 0 44
  if badFabCtl v then (s, some (refuse s 12))
  else if a.check ⟨[0], false⟩ ≠ 0 then (s, some (refuse s (a.check ⟨[0], false⟩) a.slot))
  else match s.routeFor (vAt f.slots 2) 0 dst with
    | none => (s, some (refuse s 10))
    | some w =>
      let w0 := s.seeing f.seen
      let s := s.waited n 8 waits
      let src := (List.range a.streamSize).map fun p => (a.addr n p, dst + p)
      let bad := w0.failsAt (src.map Prod.fst)
      let s := (s.reportUnits (f.ctx n) bad).noteBad n f.fid bad
      let good := (src.filter fun p => !badAt bad p.1).map fun p => (p.2, w0.byte p.1)
      if good.isEmpty then (s.doneFlight n f.fid, none)
      else
        let (xid, s) := s.takeXid n
        let t := withMark (s.blank n 0 xid dst good.length w) v
        ((s.perf n 10 (good.length / 64)).sendTransfer n f.fid xid w (dataPackets t good), none)

/-- Keep an operation that finished at its start done (`startOp` marks the others started). -/
def fabStart (s : State) (n op : Nat) (early : Early) (body : State → Flight → State × Option OpRes) : State :=
  if early ≠ {} then peekOp s n 8 op early
  else startOp s n 8 op fun s f =>
    match body s f with
    | (s', some r) => (s', some r)
    | (s', none) =>
      if s'.sources.any fun x => x.core == n && x.fid == f.fid then (s', none)
      else
        match (s'.core n).flights.find? fun g => g.fid == f.fid with
        | some g => (s', some (refuse s' g.status 0xFF g.addr))
        | none => (s', none)

/-- GET's start (R216): one request for the range. -/
def getBody (n : Nat) (s : State) (f : Flight) : State × Option OpRes :=
  let d := (dAt f.slots 0).t
  let v := vAt f.slots 3
  let src := fld (vAt f.slots 1) 0 44
  if badFabCtl v || bit v 6 then (s, some (refuse s 12))
  else if d.check ⟨[0], true⟩ ≠ 0 then (s, some (refuse s (d.check ⟨[0], true⟩) d.slot))
  else match s.routeFor (vAt f.slots 2) 1 src with
    | none => (s, some (refuse s 10))
    | some w =>
      let named := d.positions
      (s.askTransfer n f.fid 1 w src
        ((List.range d.streamSize).map fun p => if named.contains p then some (d.addr n p) else none), none)

/-- RSIG's start (R217). -/
def rsigBody (n : Nat) (s : State) (f : Flight) : State × Option OpRes :=
  let v := vAt f.slots 3
  if badFabCtl v then (s, some (refuse s 12))
  else match s.routeFor (vAt f.slots 2) 4 0 with
    | none => (s, some (refuse s 10))
    | some w =>
      let (xid, s) := s.takeXid n
      (s.sendTransfer n f.fid xid w [withMark (s.blank n 4 xid 0 0 w) v], none)

/-! ### BLD, BST (R26, R218, R441) -/

/-- The board range of a descriptor: may every address be named by a board access. -/
def boardOk (write : Bool) (as : List Nat) : Bool :=
  as.all fun a =>
    let r := regionOf (a % 2 ^ 44)
    r == .hbm || r == .scratch || (!write && r == .strandline)

/-- The checks of a board access at its start, as status and slot; `a` is the source, `b` the
destination, `far` the board side. -/
def boardCheck (a b far : TDesc) (write : Bool) : Nat × Nat :=
  let c := firstCheck (if write then [(a, ⟨[0], false⟩), (b, ⟨[2], true⟩)] else [(b, ⟨[0], true⟩), (a, ⟨[2], false⟩)])
  if c.1 ≠ 0 then c
  else if a.num.fmt ≠ b.num.fmt ∨ a.num.sgn ≠ b.num.sgn ∨ a.num.bax ≠ b.num.bax then (2, 0xFF)
  else if a.ext ≠ b.ext then (3, 0xFF)
  else if !boardOk write (far.positions.map far.offset) then (1, far.slot)
  else (0, 0xFF)

/-- The runs of consecutive board addresses among pairs (board address, own address). -/
def boardRuns : List (Nat × Nat) → List (List (Nat × Nat))
  | [] => []
  | x :: t =>
    match boardRuns t with
    | (y :: l) :: r => if x.1 + 1 = y.1 ∧ x.1 / 2 ^ 44 = y.1 / 2 ^ 44 then (x :: y :: l) :: r else [x] :: (y :: l) :: r
    | r => [x] :: r

/-- A board access: its transfers, one for each run, or its refusal. `go` opens the transfer of one run. -/
def boardBody (n kind : Nat) (write : Bool) (s : State) (f : Flight) (pairs : List (Nat × Nat)) (c : Nat × Nat)
    (go : State → W64 → List (Nat × Nat) → State) : State × Option OpRes :=
  if c.1 ≠ 0 then (s, some (refuse s c.1 c.2))
  else
    let bad := if write then (s.seeing f.seen).failsAt (pairs.map Prod.snd) else []
    let runs := boardRuns (pairs.filter fun p => !badAt bad p.2)
    let far (r : List (Nat × Nat)) : Nat := (r.headD (0, 0)).1
    if runs.any fun r => (s.boardRoute (far r / 2 ^ 44) kind (far r % 2 ^ 44)).isNone then (s, some (refuse s 10))
    else
      let s := (s.reportUnits (f.ctx n) bad).noteBad n f.fid bad
      (runs.foldl (fun s r =>
        match s.boardRoute (far r / 2 ^ 44) kind (far r % 2 ^ 44) with
        | some w => go s w r
        | none => s) s, none)

/-- BLD's start. -/
def bldBody (n : Nat) (s : State) (f : Flight) : State × Option OpRes :=
  let b := (dAt f.slots 0).t
  let a := (dAt f.slots 1).t
  let pairs := (copyPairs a b).map fun p => (a.offset p.1, b.addr n p.2)
  boardBody n 5 false s f pairs (boardCheck a b a false) fun s w r =>
    s.askTransfer n f.fid 5 w ((r.headD (0, 0)).1 % 2 ^ 44) (r.map fun p => some p.2)

/-- BST's start. -/
def bstBody (n waits : Nat) (s : State) (f : Flight) : State × Option OpRes :=
  let a := (dAt f.slots 0).t
  let b := (dAt f.slots 1).t
  let pairs := (copyPairs a b).map fun p => (b.offset p.2, a.addr n p.1)
  boardBody n 6 true (s.waited n 8 waits) f pairs (boardCheck a b b true) fun s w r =>
    let (xid, s) := s.takeXid n
    let t := s.blank n 6 xid 0 r.length w
    (s.perf n 10 (r.length / 64)).sendTransfer n f.fid xid w (dataPackets t (r.map fun p => (p.1 % 2 ^ 44, (s.seeing f.seen).byte p.2)))

/-- PUT (R216). -/
def execPut (n waits : Nat) (s : State) (early : Early := {}) : Ans := ok (fabStart s n 0x70 early (putBody n waits))
/-- GET (R216). -/
def execGet (n : Nat) (s : State) : Ans := ok (fabStart s n 0x71 {} (getBody n))
/-- BLD (R218). -/
def execBld (n : Nat) (s : State) : Ans := ok (fabStart s n 0x72 {} (bldBody n))
/-- BST (R218). -/
def execBst (n waits : Nat) (s : State) (early : Early := {}) : Ans := ok (fabStart s n 0x73 early (bstBody n waits))
/-- RSIG (R217). -/
def execRsig (n : Nat) (s : State) : Ans := ok (fabStart s n 0x74 {} (rsigBody n))

/-! ### What the source counts (R350, R352, R354, R553) -/

/-- The transfer a response belongs to. -/
def State.sourceOf (s : State) (k : Packet) (data : Bool) : Option Source :=
  s.sources.find? fun x => x.core == k.sagt && x.xid == k.xid && x.data == data

/-- Is this that transfer. -/
def Source.is (x y : Source) : Bool := x.core == y.core && x.xid == y.xid && x.fid == y.fid

/-- Change a transfer. -/
def State.modSource (s : State) (x : Source) (g : Source → Source) : State :=
  { s with sources := replFirst x.is g s.sources }

/-- Does any segment of the path spray. -/
def sprays (w : W64) : Bool := (pathOf w).any fun g => g.psel == 2

/-- Take packet `i` of those that wait for this chip, if its KIND is one of these and no packet that
Table 10.10 orders before it still waits. -/
def State.takeInbox (s : State) (i : Nat) (kinds : List Nat) : Option (Packet × State) :=
  match s.inbox[i]? with
  | none => none
  | some k =>
    let before (j : Packet) : Bool :=
      j.src == k.src && j.sagt == k.sagt && pktClass j == pktClass k && j.route == k.route && !sprays k.route
    if kinds.contains k.kind && !(s.inbox.take i).any before then some (k, { s with inbox := s.inbox.eraseIdx i }) else none

/-- COMPLETION (R350, R352, R355): counted; a BUSY answer only marks its packet. -/
def execCompletion (i : Nat) (s : State) : Ans :=
  match s.takeInbox i [3] with
  | none => ok s
  | some (k, s) =>
    match (s.sourceOf k false).or (if k.status = 13 then s.sourceOf k true else none) with
    | none => ok s
    | some x =>
      if k.status = 13 then
        ok (s.modSource x fun y => { y with busy := y.busy ++ (y.sent.find? fun p => p.addr == k.addr).toList })
      else
        let s := if k.status = 0 then s else s.noteFlight x.core x.fid 11 k.addr
        if x.got + 1 = x.want then ok (s.endSources x.core x.fid x.is)
        else ok (s.modSource x fun y => { y with got := y.got + 1 })

/-- GET_DATA (R354, R608): written where the requester's range maps to, and counted. -/
def execGetData (i waits : Nat) (lost : List Nat) (s : State) : Ans :=
  match s.takeInbox i [2] with
  | none => ok s
  | some (k, s) =>
    match s.sourceOf k true with
    | none => ok s
    | some x =>
      if k.status ≠ 0 then ok ((s.noteFlight x.core x.fid 11 k.addr).endSources x.core x.fid x.is)
      else
        let n := x.core
        let s := s.waited n 8 waits
        let ws := (k.data.zipIdx.filterMap fun b => ((x.dst.getD (k.addr - x.base + b.2) none).map fun a => MWrite.whole a b.1))
        let c : Ctx := match (s.core n).flights.find? fun f => f.fid == x.fid with
          | some f => f.ctx n
          | none => { src := n }
        let m := writeMoved n 8 lost c ws ⟨s, none, false⟩
        let s := match m.fail with
          | some e => m.st.noteFlight n x.fid e.1 e.2
          | none => m.st
        if x.want ≤ x.got + k.data.length then ok (s.endSources n x.fid x.is)
        else ok (s.modSource x fun y => { y with got := y.got + k.data.length })

/-- BUSY_RESEND (R352): the packets answered BUSY are sent again. -/
def execBusyResend (sagt xid : Nat) (s : State) : Ans :=
  match s.sources.find? fun x => x.core == sagt && x.xid == xid && !x.busy.isEmpty with
  | none => ok s
  | some x =>
    let s := s.modSource x fun y => { y with busy := [] }
    ok (x.busy.foldl (fun s k => (s.count .rteBusycnt 0 0 0 32 1).inject k) s)

/-- SOURCE_TIMEOUT (R443, R553): no response for XTO; the operation completes with REMOTE. -/
def execSourceTimeout (n xid idle : Nat) (s : State) : Ans :=
  match s.sources.find? fun x => x.core == n && x.xid == xid with
  | none => ok s
  | some x =>
    if idle < s.fd .rteXcfg 0 0 32 32 then ok s
    else
      let k := s.blank n 0 xid 0 0 0#64
      let f := (s.core n).flights.find? fun f => f.fid == x.fid
      let s := (s.noteFlight n x.fid 11 0).fault
        { cls := 4, evt := 5, src := n, tag := f.elim 0 (·.tag), opcode := f.elim 0 (·.opcode), ecls := f.elim 0 (·.ecls),
          detail := pktDetail k 0 }
      ok (s.endSources n x.fid fun y => y.core == n && y.fid == x.fid)

/-! ### Route generations (R358, R359) -/

/-- Is a packet of this chip outstanding whose generation label satisfies a test. -/
def State.outstanding (s : State) (p : Nat → Bool) : Bool :=
  s.sources.any (fun x => p x.gen) || s.bores.any fun b => b.2.spent.any fun e => e.2.any p

/-- RTE_CTL.ADVANCE (R358). -/
def State.advance (s : State) : State :=
  let cur := s.fd .rteGen 0 0 0 16
  if s.outstanding fun g => g == (cur + 1) % 4 then s.raise .rteStat 0 0 0
  else s.setF .rteGen 0 0 0 16 (cur + 1)

/-- ADVANCE (R358). -/
def execAdvance (a : Agent) (s : State) : Ans := ok (s.gated a .rteCtl 0 0 fun s => s.advance)

/-- FENCE_REQ (R359). -/
def execFenceReq (a : Agent) (s : State) : Ans := ok (s.gated a .rteFence 0 0 fun s => s.setF .rteFence 0 0 1 1 0)

/-- Does a router of this chip hold a packet of its domain with an old label (R359). -/
def State.holdsOld (s : State) : Bool :=
  let old (k : Packet) : Bool := k.dom == s.domain && k.gen != s.genNow
  s.ports.any (fun p => p.2.arrived.any (fun e => old e.2) || p.2.packets.any fun e => old e.2.2) || s.inbox.any old

/-- FENCE_DONE (R359). -/
def execFenceDone (s : State) : Ans :=
  if s.outstanding (fun g => g != s.genNow) || s.holdsOld then ok s else ok (s.raise .rteFence 0 0 1)

end Sys2Proof.Machine
end

