-- ==== Sys2Proof/Machine/Transfers.lean ====
section
/-! DEFINITION. Packets at a router and at their destination: R324, R341, R350 to R356, R441, R442. -/

namespace Sys2Proof.Machine

/-! ### The router -/

/-- Return `k` credits of a VC to the neighbour, at most 31 in one control flit (Table 10.3). -/
def State.returnCredits (s : State) (p vc : Nat) : Nat → Nat → State
  | 0, _ => s
  | fuel + 1, k =>
    if k = 0 then s
    else
      (s.sendControl p (8 + vc * 2 ^ 35 + min k 31 * 2 ^ 38) []).returnCredits p vc fuel (k - 31)

/-- ROUTER_HOP (R324, R334, R341, R342, R355, R361): the oldest packet of a VC leaves the buffer of its
port. Buddy ports return credits as flits come. -/
def execRouterHop (p vc : Nat) (s : State) : Ans :=
  match (s.port p).arrived.find? fun e => e.1 == vc with
  | none => ok s
  | some (_, k) =>
    let s := s.modPort p fun t => { t with arrived := dropFirst (fun e => e.1 == vc) t.arrived }
    let s := if p < 18 then s.returnCredits p vc 32 (pktFlits k) else s
    let stray : Bool := if p = 16 ∨ p = 17 then k.kind != 10 else k.kind == 9 || k.kind == 10
    if stray then
      let (w, s) := s.free
      ok (s.packetFault (fld w 0 8) p k)
    else if 11 ≤ k.kind then ok (s.packetFault 2 p k)
    else if p < 16 then ok (s.route p k)
    else ok (s.deliverOwn p k)

/-! ### Transfers that write (R350 to R353, R356) -/

/-- The addresses of the copies of a packet's first byte: one, or one in each core of the multicast (R356). -/
def copyBases (k : Packet) : List Nat :=
  let n := spadCore k.addr
  let mask := mmaskOf k.route
  let cs := (List.range 16).filter fun c => mask.testBit c
  match mcastOf k.route with
  | 2 => if inScratch k.addr then cs.map fun c => spadAddr (n / 16 * 16 + c) (spadOff k.addr) else [k.addr]
  | 3 => if inScratch k.addr then cs.map fun c => spadAddr (16 * c + n % 16) (spadOff k.addr) else [k.addr]
  | _ => [k.addr]

/-- May the far end write every address: HBM outside the strandline, or a scratchpad (R216, R423, R441). -/
def farWritable (as : List Nat) : Bool := as.all fun a => regionOf a == .hbm || regionOf a == .scratch

/-- The entry of a packet's transfer. -/
def State.xferOf (s : State) (k : Packet) : Option Xfer :=
  s.xfers.find? fun x => x.first.src == k.src && x.first.sagt == k.sagt && x.first.xid == k.xid

/-- Replace the transfer table. -/
def State.setXfers (s : State) (l : List Xfer) : State := ({ s with xfers := l }).setF .rteXstat 0 0 0 15 l.length

/-- The cores whose mark a transfer signals (R217, R356). -/
def signalCores (k : Packet) : List Nat :=
  if 2 ≤ mcastOf k.route then (copyBases k).map spadCore else [k.rcore]

/-- A packet counted toward its transfer: `st` is how its writes ended. -/
def State.countPacket (s : State) (k : Packet) (st : Nat) : State :=
  let copies := (copyBases k).length
  let x := (s.xferOf k).getD { first := k, count := 0, status := 0 }
  let rest := s.xfers.filter fun y => y.first.src != k.src || y.first.sagt != k.sagt || y.first.xid != k.xid
  let count := x.count + k.plen * copies
  let total := x.first.tlen * copies
  let status := if x.status ≠ 0 then x.status else st
  let s := if k.last && decide (count < total) then s.count .rteEarlylast 0 0 0 32 1 else s
  if count < total then s.setXfers (rest ++ [{ x with count := count, status := status }])
  else
    let s := if total < count then s.packetFault 4 0 k else s
    let s := s.setXfers rest
    let s := if k.rmv && status == 0 && count == total then (signalCores k).foldl (fun s n => s.signal n k.rmark) s else s
    s.reply k 3 (if total < count then 11 else status) k.addr [] true

/-- A packet whose data is written here (R350 to R353): it waits for held memory, is answered BUSY when the
table is full, and is otherwise written and counted. -/
def State.writePacket (s0 : State) (i kind waits : Nat) (mesh : List (Nat × Nat)) (lost : List Nat) : State :=
  match s0.takeInbox i [kind] with
  | none => s0
  | some (k, s) =>
    if (s.xferOf k).isNone ∧ 16384 ≤ s.xfers.length then s.reply k 3 13 k.addr [] true
    else
      let ws := (copyBases k).flatMap fun b => wholeWrites b (sliceB k.data 0 k.plen)
      let as := ws.map (·.addr)
      if !farWritable as then s.countPacket k 1
      else
        match (if s0.chip.closed then s else s0).heldBack [] as with
        | some w => w
        | none =>
          let s := (if inScratch k.addr then s.waited (spadCore k.addr) 9 waits else s).meshWaited mesh
          let m := writeMoved 256 9 lost { src := k.sagt } ws ⟨s, none, false⟩
          m.st.countPacket k ((m.fail.map Prod.fst).getD 0)

/-- PUT_DATA (R350). `mesh` lists the waits at the cores of a multicast's other copies (R117). -/
def execPutData (i waits : Nat) (lost : List Nat) (s : State) (mesh : List (Nat × Nat) := []) : Ans :=
  ok (s.writePacket i 0 waits mesh lost)

/-- BOARD_STORE_DATA (R442). -/
def execBoardStoreData (i waits : Nat) (lost : List Nat) (s : State) : Ans := ok (s.writePacket i 6 waits [] lost)

/-- MARK_SIGNAL (R217): the mark counts and a completion goes back; an entry that the table has no room for is answered BUSY
(R352). -/
def execMarkSignal (i : Nat) (s : State) : Ans :=
  match s.takeInbox i [4] with
  | none => ok s
  | some (k, s) =>
    if (s.xferOf k).isNone ∧ 16384 ≤ s.xfers.length then ok (s.reply k 3 13 k.addr [] true)
    else ok ((s.signal k.rcore k.rmark).reply k 3 0 k.addr [] true)

/-- TRANSFER_TIMEOUT (R353): an entry without a packet for XTO is freed. -/
def execTransferTimeout (src sagt xid idle : Nat) (s : State) : Ans :=
  match s.xfers.find? fun x => x.first.src == src && x.first.sagt == sagt && x.first.xid == xid with
  | none => ok s
  | some x =>
    if idle < s.fd .rteXcfg 0 0 32 32 then ok s
    else ok (((s.setXfers (s.xfers.erase x)).count .rteXtocnt 0 0 0 32 1).fault
      { cls := 4, evt := 3, src := 0x107, detail := pktDetail x.first 0 })

/-! ### Requests for data (R354, R430, R441) -/

/-- May the far end read every address. -/
def farReadable (as : List Nat) : Bool :=
  as.all fun a => regionOf a == .hbm || regionOf a == .strandline || regionOf a == .scratch

/-- A request answered with the range's bytes; a range that is refused, or units that fail, with a status. -/
def State.readPacket (s0 : State) (i kind waits : Nat) : State :=
  match s0.takeInbox i [kind] with
  | none => s0
  | some (k, s) =>
    let as := (List.range k.tlen).map (k.addr + ·)
    if !farReadable as then s.reply k 2 1 k.addr [] true
    else
      match (if s0.chip.closed then s else s0).heldBack as [] with
      | some w => w
      | none =>
        let s := if inScratch k.addr then s.waited (spadCore k.addr) 9 waits else s
        let bad := s.failsAt as
        let s := s.reportUnits { src := k.sagt } bad
        let ps := dataPackets k ((as.filter fun a => !badAt bad a).map fun a => (a, s.byte a))
        let s := ps.foldl (fun s p => s.reply k 2 0 p.addr p.data (p.last && bad.isEmpty)) s
        match bad with
        | [] => s
        | g :: _ => s.reply k 2 g.2 g.1 [] true

/-- GET_REQUEST (R354). -/
def execGetRequest (i waits : Nat) (s : State) : Ans := ok (s.readPacket i 1 waits)

/-- BOARD_LOAD_REQUEST (R441). -/
def execBoardLoadRequest (i waits : Nat) (s : State) : Ans := ok (s.readPacket i 5 waits)

end Sys2Proof.Machine
end

