-- ==== Sys2Proof/Machine/Bore.lean ====
section
/-! DEFINITION. The Bores (R373 to R395, R409): collectives, their messages and credits, the reduction order,
landing, noise statistics, watchdog. -/

namespace Sys2Proof.Machine

/-- A Bore. -/
def State.bore (s : State) (a : Nat) : BoreSt := Sparse.get {} s.bores a
/-- Change a Bore. -/
def State.modBore (s : State) (a : Nat) (f : BoreSt → BoreSt) : State := { s with bores := Sparse.modify {} s.bores a f }

/-- Latch HLINK for the chip's next contribution (Table 11.6). -/
def State.latchHlink (s : State) : State := { s with gate := { s.gate with hlink := true } }

/-- Member number, members and ring length of this chip on an axis, if BORE_AXCFG passes R374. -/
def State.member (s : State) (a : Nat) : Option (Nat × Nat × Nat) :=
  let l := s.ringLen a
  let p := s.fd .boreAxcfg a 0 8 6
  let m := (s.coordOn a + l - s.fd .boreAxcfg a 0 0 6 % l) % l
  if s.flag .boreAxcfg a 0 31 ∧ 0 < l ∧ 0 < p ∧ p ≤ l ∧ m < p then some (m, p, l) else none

/-- The route word to the neighbour in a direction (R375). -/
def boreWord (a d m p l : Nat) : W64 :=
  let closing := p < l ∧ ((d = 0 ∧ m + 1 = p) ∨ (d = 1 ∧ m = 0))
  BitVec.ofNat 64 (2 + (if closing then l - p + 1 else 1) * 4 + d * 256 + a * 512)

/-- A fault record of class 0x05 (Table 18.6). -/
def boreRec (evt src core tag code number awaited phase : Nat) : FaultRec :=
  { cls := 5, evt := evt, src := src,
    detail := core % 2 ^ 16 + (tag % 2 ^ 32) * 2 ^ 16 + (code % 2 ^ 8) * 2 ^ 48 + (number % 2 ^ 16) * 2 ^ 56 +
      (awaited % 2 ^ 48) * 2 ^ 72 + (phase % 2 ^ 8) * 2 ^ 120 }

/-- The record about a collective. -/
def State.collFault (s : State) (a evt : Nat) (c : Coll) (awaited : Nat) : State :=
  s.fault (boreRec evt (0x100 + a) c.core c.tag c.code c.number awaited 0)

/-! ### Streams of a buffer -/

/-- The stream positions of a buffer in walk order: its rows, then its scale plane (R378). -/
def TDesc.flatPos (d : TDesc) : List Nat :=
  (List.range d.rows).flatMap d.rowPos ++
    (if d.fmt.narrow then (List.range d.blocks).map (up64 d.size + ·) else [])

/-- S of R378. -/
def TDesc.boreSize (d : TDesc) : Nat := d.size + if d.fmt.narrow then d.blocks else 0

/-- Is the collective a reduction. -/
def Coll.reduces (c : Coll) : Bool := c.code == 1 || c.code == 2
/-- Elements of a shard. -/
def Coll.shard (c : Coll) : Nat := c.d0.t.total / c.p

/-! ### Checks of a BCOL (R374, R379, R380) -/

/-- The bits of slot 3 that a collective defines (Table 11.3). -/
def bcolParams (code : Nat) (land : Bool) : W64 :=
  match code with
  | 2 => if land then 0xFFFFFFFFFFF#64 else 0#64
  | 4 => 0x3F#64
  | 5 => 1#64
  | 6 => 0x3F3F#64
  | _ => 0#64

/-- The first check of a BCOL that fails, as status and slot. -/
def State.bcolCheck (s : State) (n : Nat) (f : Flight) : Nat × Nat :=
  let v := vAt f.slots 0
  let q := vAt f.slots 3
  let a := (dAt f.slots 1).t
  let b := (dAt f.slots 2).t
  let code := fld v 8 8
  let op := fld v 4 2
  let red := code = 1 ∨ code = 2
  let land := bit v 6
  if code = 0 ∨ 6 < code ∨ op = 3 ∨ v &&& ~~~0xFFF3#64 ≠ 0#64 ∨ (op ≠ 0 ∧ ¬red) ∨ q &&& ~~~(bcolParams code land) ≠ 0#64 ∨
      (bit v 7 ∧ (op ≠ 0 ∨ ¬red)) ∨ (land ∧ code ≠ 2) then (12, 0xFF)
  else match s.member (fld v 0 2) with
    | none => (1, 0xFF)
    | some (_, p, _) =>
      if (code = 4 ∧ p ≤ fld q 0 6) ∨ (code = 6 ∧ (p ≤ fld q 0 6 ∨ p ≤ fld q 8 6)) then (12, 0xFF)
      else
        let c := firstCheck [(a, ⟨[0], false⟩), (b, ⟨[0], true⟩)]
        let flt (d : TDesc) : Bool := d.num.fmt == 0 || d.num.fmt == 1
        if c.1 ≠ 0 then c
        else if red then
          let e := a.total
          let ladr := fld q 0 44
          if !flt a || (!land && !flt b) then (2, 0xFF)
          else if e % (64 * p) ≠ 0 ∨ (code = 1 ∧ b.total ≠ e) ∨ (code = 2 ∧ !land ∧ b.total ≠ e / p) ∨ (land ∧ a.slot ≠ b.slot) then
            (3, 0xFF)
          else if land then
            (match regionOf ladr, regionOf (ladr + 4 * (e / p) - 1) with
              | .slow x, .slow y => if ladr % 64 = 0 ∧ x = y then (0, 0xFF) else (1, 0xFF)
              | _, _ => (1, 0xFF))
          else (0, 0xFF)
        else if a.num.fmt ≠ b.num.fmt ∨ a.num.sgn ≠ b.num.sgn then (2, 0xFF)
        else if code = 3 then
          if b.total ≠ p * a.total ∨ (a.fmt.narrow ∧ (a.total % 32 ≠ 0 ∨ a.num.bax ∨ b.num.bax)) then (3, 0xFF) else (0, 0xFF)
        else if b.total ≠ a.total then (3, 0xFF)
        else if (code = 5 ∨ code = 6) ∧ (a.positions.map (a.addr n)).any (b.positions.map (b.addr n)).contains then (3, 0xFF)
        else (0, 0xFF)

/-! ### Messages (R384) -/

/-- The Bore header of Table 11.4. -/
def boreHeader (code op half smem core off : Nat) : Nat :=
  off % 2 ^ 23 + (core % 256) * 2 ^ 23 + (smem % 64) * 2 ^ 31 + (half % 2) * 2 ^ 37 + (op % 4) * 2 ^ 38 + (code % 16) * 2 ^ 40

/-- A field of the Bore header of a packet. -/
def boreFld (k : Packet) (lo len : Nat) : Nat := k.addr / 2 ^ lo % 2 ^ len

/-- Join consecutive 64 B pieces, at most 64 in one packet: first piece and bytes. -/
def joinPieces : List (Nat × List Byte) → List (Nat × List Byte)
  | [] => []
  | (q, b) :: t =>
    match joinPieces t with
    | (r, bs) :: u => if q + 1 = r ∧ bs.length < 4096 then (q, b ++ bs) :: u else (q, b) :: (r, bs) :: u
    | [] => [(q, b)]

/-- The packets that carry pieces of a collective in a direction. -/
def State.borePackets (s : State) (a d smem rmark : Nat) (c : Coll) (ps : List (Nat × List Byte)) : List Packet :=
  match s.member a with
  | none => []
  | some (m, p, l) =>
    (joinPieces ps).map fun e =>
      { route := boreWord a d m p l, addr := boreHeader c.code c.op d smem c.core e.1, tlen := c.size,
        plen := e.2.length, xid := c.number, src := s.coord, sagt := 0x100 + a, dom := s.domain, gen := s.genNow,
        kind := 7, last := false, rmv := false, rcore := 0, rmark := rmark, status := 0, hop := 0, segi := 0,
        dl := false, data := e.2 }

/-- The key of a credit: direction and core. -/
def creditKey (d core : Nat) : Nat := d * 512 + core

/-- May a Bore send a packet of a core in a direction (R377). -/
def BoreSt.mayUse (b : BoreSt) (d core : Nat) : Bool :=
  decide ((Sparse.get [] b.spent (creditKey d core)).length < 2 + Sparse.get 0 b.extra (creditKey d core))

/-- Send a Bore or gate packet and record its credit as spent. -/
def State.boreInject (s : State) (a d core : Nat) (k : Packet) : State :=
  (s.modBore a fun b => { b with spent := Sparse.modify [] b.spent (creditKey d core) (· ++ [k.gen]) }).inject k

/-- The core whose credits a packet uses: 256 stands for gate messages. -/
def creditCore (k : Packet) : Nat := if k.kind = 8 then 256 else boreFld k 23 8

/-- The next packet that has a credit: forwarded packets first, then those of open collectives. -/
def BoreSt.nextSend (b : BoreSt) : Option (Nat × Packet × BoreSt) :=
  let core (k : Packet) : Nat := creditCore k
  let free (e : Nat × Packet) : Bool := b.mayUse e.1 (core e.2)
  match b.held.find? free with
  | some e => some (e.1, e.2, { b with held := b.held.erase e })
  | none =>
    let blocked (e : Nat × Packet) : Bool := b.held.any fun h => h.1 == e.1 && core h.2 == core e.2 && h.2.xid == e.2.xid
    match b.colls.find? fun c => c.send.any fun e => free e && !blocked e with
    | none => none
    | some c =>
      match c.send.find? fun e => free e && !blocked e with
      | none => none
      | some e => some (e.1, e.2, { b with colls := replFirst (fun x => x == c) (fun x => { x with send := x.send.erase e }) b.colls })

/-- A bound on the packets a Bore can send now. -/
def BoreSt.backlog (b : BoreSt) : Nat := b.held.length + (b.colls.map fun c => c.send.length).sum

/-- Free the slot of a packet that came in direction `d`: its credit goes back (R376). A common slot may be lent to its core
beside it while fewer than 1,024 are lent; R377 gives no order, a free value decides (log entry 40). -/
def State.returnCredit (s : State) (a d core : Nat) : State :=
  let s := s.emit (.boreCredit a (1 - d) core)
  if core = 256 then s
  else
    let (w, s) := s.free
    if decide (((s.bore a).lent.map Prod.snd).sum < 1024) && bit w 0 then
      (s.modBore a fun b => { b with lent := Sparse.modify 0 b.lent (creditKey (1 - d) core) (· + 1) }).emit (.boreCredit a (1 - d) core)
    else s

/-! ### Effects at this member -/

/-- Change an open collective. -/
def State.modColl (s : State) (a : Nat) (c : Coll) : State :=
  s.modBore a fun b => { b with colls := replFirst (fun x => x.core == c.core && x.number == c.number) (fun _ => c) b.colls }

/-- Bring BORE_STAT.OPEN up to date. -/
def State.boreOpen (s : State) (a : Nat) : State :=
  s.setF .boreStat a 0 16 9 ((((s.bore a).colls.map (·.core)).eraseDups).length)

/-- The report context of a collective. -/
def Coll.ctx (c : Coll) : Ctx := { src := c.core, tag := c.tag, opcode := 0x76, ecls := 8 }

/-- Write bytes due to buffer 1 or to the slow tier through the MESH master; a failing write gives the
collective its status (R383, R390). After a failing read, a merge's included, it writes no more (R608). -/
def State.boreWrite (s : State) (lost : List Nat) (c : Coll) (ws : List MWrite) : State × Coll :=
  (groupRuns (fun w => granule w.addr) ws).foldl (fun (r : State × Coll) g =>
    if r.2.stop then r
    else
      let m := writeMoved 256 9 lost c.ctx g.2 ⟨r.1, none, false⟩
      match m.fail with
      | some e => (m.st, { r.2 with status := if r.2.status = 0 then e.1 else r.2.status, stop := e.1 == 5 })
      | none => (m.st, r.2)) (s, c)

/-- Where element `e` of the reduction's result goes: the element of buffer 1 or the landed word. -/
def Coll.place (c : Coll) (e code : Nat) : List MWrite :=
  let own := e - c.m * c.shard
  if c.land then wholeWrites (fld c.params 0 44 + 4 * own) (leBytes 4 code)
  else elemWrites c.core c.d1.t (if c.code = 1 then e else own) code

/-- A converted result as the FP32 word that carries it. -/
def Coll.asWord (c : Coll) (code : Nat) : W32 :=
  if c.d1.t.num.fmt = 1 && !c.land then BitVec.ofNat 32 (code % 2 ^ 16 * 2 ^ 16) else BitVec.ofNat 32 code
/-- The code that an FP32 word carries. -/
def Coll.ofWord (c : Coll) (w : W32) : Nat := if c.d1.t.num.fmt = 1 && !c.land then fld w 16 16 else w.toNat

/-- The owner's result of piece `q` (R386, R390): converted once, written, and kept for R391. The words
carry what the other members receive. -/
def State.produce (s : State) (lost : List Nat) (c : Coll) (q : Nat) (ws : List W32) : State × Coll × List W32 :=
  let d := c.d1.t
  let es := ws.zipIdx.map fun w => (16 * q + w.2, w.1)
  let outs := es.map fun e =>
    let pos := if c.code = 1 then e.1 else e.1 - c.m * c.shard
    if c.land then (e.1, e.2.toNat, ({} : CvtEv))
    else
      let r := cvtElem d.fmt (d.num.rmAt d.seed pos) d.num.sat 0 e.2
      (e.1, r.1, r.2)
  let s := if c.land then s else s.cvtEvents c.core (outs.foldl (fun v o => v.join o.2.2) {})
  let r := s.boreWrite lost c (outs.flatMap fun o => c.place o.1 o.2.1)
  (r.1, { r.2 with out := r.2.out ++ es }, outs.map fun o => c.asWord o.2.1)

/-- Events of the reduction (R387). -/
def State.boreEvents (s : State) (a core : Nat) (e : Ev) : State :=
  (s.raiseMask .boreStat a 0 (BitVec.ofNat 64 (b2n e.nan + 2 * b2n e.inv + 4 * b2n e.ovf))).latch core
    (8 * b2n e.ovf + 0x800 * b2n (e.nan || e.inv))

/-- f of R385. -/
def boreF (op : Nat) (a b : W32) : W32 × Ev :=
  match op with
  | 0 => fadd32 a b
  | 1 => fmax32 a b
  | _ => fmin32 a b

/-- The 16 words of a piece. -/
def pieceWords (bs : List Byte) : List W32 := (List.range 16).map fun i => BitVec.ofNat 32 (natAt bs (4 * i) 4)
/-- The bytes of words. -/
def wordBytes (ws : List W32) : List Byte := ws.flatMap fun w => leBytes 4 w.toNat

/-- What processing a message has done: the state, the collective and the pieces to forward. -/
structure BoreWork where
  st : State
  c : Coll
  fwd : List (Nat × List Byte)
  deriving DecidableEq, Repr

/-- One piece of a reduction (R385, R386): a partial sum of another member, or a converted result. -/
def reducePiece (a half : Nat) (lost : List Nat) (w : BoreWork) (q : Nat) (bs : List Byte) : BoreWork :=
  let c := w.c
  let j := 16 * q / c.shard
  let lower := 16 * q % c.shard < c.shard / 2
  let start := if lower then (j + 1) % c.p else (j + c.p - 1) % c.p
  let next := if lower then (c.m + 1) % c.p else (c.m + c.p - 1) % c.p
  if (half = 0) ≠ lower then w
  else if c.m ≠ start ∧ !c.seen.contains (0, q) then
    let c := { c with seen := c.seen ++ [(0, q)], due := c.due - 1 }
    if c.gone.contains q then { w with c := c }
    else
      let rs := (pieceWords bs).zipWith (boreF c.op) ((c.vals.drop (16 * q)).take 16)
      let s := w.st.boreEvents a c.core (rs.foldl (fun e r => e.join r.2) {})
      let acc := rs.map Prod.fst
      if c.m = j then
        let r := s.produce lost c q acc
        ⟨r.1, r.2.1, if c.code = 1 then w.fwd ++ [(q, wordBytes r.2.2)] else w.fwd⟩
      else ⟨s, c, w.fwd ++ [(q, wordBytes acc)]⟩
  else if c.code = 1 ∧ c.m ≠ j ∧ !c.seen.contains (1, q) then
    let c := { c with seen := c.seen ++ [(1, q)], due := c.due - 1 }
    let ws := ((pieceWords bs).zipIdx).flatMap fun x => c.place (16 * q + x.2) (c.ofWord x.1)
    let r := w.st.boreWrite lost c ws
    ⟨r.1, r.2, if next = j then w.fwd else w.fwd ++ [(q, bs)]⟩
  else w

/-- The place in buffer 1's stream of byte `o` of the stream of member `k` (R388). -/
def Coll.flatAt (c : Coll) (k o : Nat) : Nat :=
  if c.code ≠ 3 then o
  else
    let len := c.d0.t.flatPos.length
    let sb := if c.d0.t.fmt.narrow then c.d0.t.blocks else 0
    if o < len - sb then k * (len - sb) + o else c.p * (len - sb) + k * sb + (o - (len - sb))

/-- The writes of bytes of member `k`'s stream, given with their places. -/
def Coll.copyWrites (c : Coll) (k : Nat) (bs : List (Nat × Byte)) : List MWrite :=
  let d := c.d1.t
  let ps := d.flatPos
  bs.filterMap fun b => (ps[c.flatAt k b.1]?).map fun p => .whole (d.addr c.core p) b.2

/-- Hops that a piece travels in a direction when every member is to receive it. -/
def spanOf (p d : Nat) : Nat := if d = 0 then p / 2 else (p - 1) / 2

/-- One piece of a data-moving collective (R388). -/
def movePiece (half smem : Nat) (lost : List Nat) (w : BoreWork) (q : Nat) (bs : List Byte) : BoreWork :=
  let c := w.c
  if c.seen.contains (smem, q) then w
  else
    let c := { c with seen := c.seen ++ [(smem, q)], due := c.due - 1 }
    let len := c.d0.t.flatPos.length
    let r := w.st.boreWrite lost c (c.copyWrites smem ((bs.zipIdx.map fun b => (64 * q + b.2, b.1)).filter fun b => b.1 < len))
    let dist := if half = 0 then (c.m + c.p - smem) % c.p else (smem + c.p - c.m) % c.p
    let relay := (c.code = 3 ∨ c.code = 4) ∧ dist < spanOf c.p half
    ⟨r.1, r.2, if relay then w.fwd ++ [(q, bs)] else w.fwd⟩

/-! ### Starting and ending a collective (R382, R383) -/

/-- One row of rsum over squares (R253, R391). -/
def sumSquares (vs : List W32) : W32 := ((redRow 0x50 (vs.map fun v => (fmul32 v v).1)).1).headD 0#32

/-- The noise statistics of a finished collective (R391). -/
def State.boreNoise (s : State) (a : Nat) (c : Coll) : State :=
  let out := ((List.range (c.d0.t.total)).filterMap fun e => (c.out.find? fun x => x.1 == e).map Prod.snd)
  let add (l : List (Nat × W32)) (v : W32) := Sparse.modify 0#32 l c.core fun x => (fadd32 x v).1
  s.modBore a fun b => { b with
    sql := add b.sql (sumSquares c.vals), sqr := add b.sqr (sumSquares out),
    ncol := Sparse.modify 0 b.ncol c.core (· + 1), nelem := Sparse.modify 0 b.nelem c.core (· + c.vals.length) }

/-- Has this member read its buffer 0 and formed its whole shard: what R391 sums. -/
def Coll.summed (c : Coll) : Bool := c.started && c.gone.isEmpty && c.out.length == c.shard

/-- A collective ends with its status; the core's next one may start. -/
def State.endColl (s : State) (a : Nat) (c : Coll) : State :=
  let s := if c.nstat && c.summed then s.boreNoise a c else s
  let s := s.modBore a fun b => { b with colls := b.colls.filter fun x => !(x.core == c.core && x.number == c.number) }
  let s := (if c.status = 0 then s else s.noteFlight c.core c.fid c.status 0).doneFlight c.core c.fid
  s.boreOpen a

/-- End a collective that has nothing left to read or write. -/
def State.settleColl (s : State) (a : Nat) (c : Coll) : State :=
  if c.due = 0 ∧ c.send.isEmpty then s.endColl a c else s.modColl a c

/-- The open collective that a packet of this chip's Bore belongs to. -/
def BoreSt.collOf (b : BoreSt) (k : Packet) : Option Coll :=
  if k.kind = 8 then none else b.colls.find? fun c => c.core == boreFld k 23 8 && c.number == k.xid

/-- Send what credits allow, at most `k` packets. Each is checked under R340 as it is injected (R375): one that breaks it is
not sent, and the collective it belongs to here ends with ROUTE. -/
def State.borePump (s : State) (a : Nat) : Nat → State
  | 0 => s
  | k + 1 =>
    match (s.bore a).nextSend with
    | none => s
    | some (d, p, b) =>
      let s := s.modBore a fun _ => b
      let s :=
        if s.legal p.route p.kind 0 false then s.boreInject a d (creditCore p) (if p.kind = 8 then p else { p with gen := s.genNow })
        else match b.collOf p with
          | some c => s.endColl a { c with status := 10 }
          | none => s
      s.borePump a k

/-- The pieces of the own stream that are sent. -/
def Coll.pieces (c : Coll) (lo hi : Nat) : List (Nat × List Byte) :=
  ((List.range (hi - lo)).map (lo + ·)).filterMap fun q =>
    if c.gone.contains q then none
    else some (q, if c.reduces then wordBytes ((c.vals.drop (16 * q)).take 16) else sliceB (c.flat.drop (64 * q)) 0 64)

/-- What a member sends of its own at the start: direction, mark field, pieces (R385, R388). -/
def Coll.firstSends (c : Coll) : List (Nat × Nat × List (Nat × List Byte)) :=
  let sp := c.shard / 16
  let n := cdiv c.flat.length 64
  let back := (c.m + c.p - 1) % c.p
  let fore := (c.m + 1) % c.p
  match c.code with
  | 1 | 2 => [(0, 0, c.pieces (back * sp) (back * sp + sp / 2)), (1, 0, c.pieces (fore * sp + sp / 2) (fore * sp + sp))]
  | 3 => [0, 1].filterMap fun d => if spanOf c.p d = 0 then none else some (d, 0, c.pieces 0 n)
  | 4 => if c.m = fld c.params 0 6 then
      [0, 1].filterMap fun d => if spanOf c.p d = 0 then none else some (d, 0, c.pieces 0 n) else []
  | 5 => [(fld c.params 0 1, 0, c.pieces 0 n)]
  | _ =>
    let f := (fld c.params 0 6 + c.p - c.m) % c.p
    if f = 0 then [] else if f ≤ c.p - f then [(0, f - 1, c.pieces 0 n)] else [(1, c.p - f - 1, c.pieces 0 n)]

/-- Does the member copy its own stream into buffer 1 at the start (R388). -/
def Coll.copiesOwn (c : Coll) : Bool :=
  match c.code with
  | 3 => true
  | 4 => c.m == fld c.params 0 6
  | 5 => c.p == 1
  | 6 => c.m == fld c.params 0 6
  | _ => false

/-- Pieces this member still has to receive. -/
def Coll.dueAtStart (c : Coll) : Nat :=
  let n := cdiv c.d0.t.flatPos.length 64
  let sp := c.shard / 16
  match c.code with
  | 1 => 2 * (c.p - 1) * sp - (c.gone.filter fun q => q / sp != c.m).length
  | 2 => (c.p - 1) * sp
  | 3 => (c.p - 1) * n
  | 4 => if c.m = fld c.params 0 6 then 0 else n
  | 5 => if c.p = 1 then 0 else n
  | _ => if c.m = fld c.params 0 6 then 0 else n

/-- Start a collective: buffer 0 is read whole, what stays at this member is done, the rest is sent. -/
def State.beginColl (s : State) (a : Nat) (lost : List Nat) (c : Coll) : State :=
  let d := c.d0.t
  let reads := c.code ≠ 4 ∨ c.m = fld c.params 0 6
  let as := if reads then d.flatPos.map (d.addr c.core) else []
  let bad := s.failsAt as
  let s := s.reportUnits c.ctx bad
  let flat := as.map s.byte
  let per := if c.reduces then 2 * d.w else 64
  let gone := ((as.zipIdx.filter fun x => badAt bad x.1).map fun x => x.2 / per).eraseDups
  let c : Coll := { c with
    started := true, flat := flat, gone := gone,
    vals := if c.reduces then (List.range d.total).map fun k => (expandElem d.fmt (s.elem c.core d k) 0).1 else [],
    status := match bad with | g :: _ => g.2 | [] => 0,
    stop := !bad.isEmpty }
  let w (dir : Nat) : W64 := match s.member a with | some (m, p, l) => boreWord a dir m p l | none => 0#64
  if 2 ≤ c.p ∧ !(s.legal (w 0) 7 0 false && s.legal (w 1) 7 0 false) then s.endColl a { c with status := 10 }
  else
    let c : Coll := { c with due := c.dueAtStart }
    let r : State × Coll := if c.copiesOwn then
        s.boreWrite lost c (c.copyWrites c.m ((flat.zipIdx.filter fun x => !badAt bad (as.getD x.2 0)).map fun x => (x.2, x.1)))
      else (s, c)
    let r : State × Coll := if c.reduces ∧ c.p = 1 then
        ((List.range (d.total / 16)).filter fun q => !gone.contains q).foldl (fun (r : State × Coll) q =>
          let o := r.1.produce lost r.2 q ((r.2.vals.drop (16 * q)).take 16)
          (o.1, o.2.1)) r
      else r
    let c := r.2
    let send := if c.p = 1 then [] else c.firstSends.flatMap fun e => (r.1.borePackets a e.1 c.m e.2.1 c e.2.2).map fun k => (e.1, k)
    let c := { c with send := send }
    let s := (r.1.modColl a c).borePump a (send.length + 1)
    match (s.bore a).colls.find? fun x => x.core == c.core && x.number == c.number with
    | some x => s.settleColl a x
    | none => s

/-- The slow-tier addresses that a start or a message writes here. -/
def Coll.landAddrs (c : Coll) (qs : List Nat) : List Nat :=
  if c.land then (qs.filter fun q => 16 * q / c.shard = c.m).flatMap fun q =>
    (List.range 64).map fun i => fld c.params 0 44 + 64 * q - 4 * (c.m * c.shard) + i
  else []

/-- Start the core's oldest collective if none of its runs (R382); `k` bounds how many end at once. `mesh` lists the waits of
its accesses (R117). -/
def State.boreNext (s : State) (a core : Nat) (mesh : List (Nat × Nat)) (lost : List Nat) : Nat → State
  | 0 => s
  | k + 1 =>
    match (s.bore a).colls.find? fun c => c.core == core with
    | none => s
    | some c =>
      if c.started then s
      else
        let la := if c.p = 1 then c.landAddrs (List.range (c.d0.t.total / 16)) else []
        match s.heldBack [] la with
        | some s' => s'
        | none => ((s.meshWaited mesh).beginColl a lost c).boreNext a core [] lost k

/-- A core hands a BCOL of one code to its Bore (R378 to R382); a BCOL that is refused takes no number. -/
def bcolStart (n code : Nat) (mesh : List (Nat × Nat)) (lost : List Nat) (s : State) : State :=
  let mine := match s.queuedOn n 8 with
    | some f => f.opcode == 0x76 && (fld (vAt f.slots 0) 8 8 == code || fld (vAt f.slots 0) 8 8 == 0 || decide (6 < fld (vAt f.slots 0) 8 8))
    | none => false
  if !mine then (List.range 4).foldl (fun s a => s.boreNext a n mesh lost 65536) s
  else
    let a := match s.queuedOn n 8 with | some f => fld (vAt f.slots 0) 0 2 | none => 0
    let s := startOp s n 8 0x76 fun s f =>
      let c := s.bcolCheck n f
      if c.1 ≠ 0 then (s, some (refuse s c.1 c.2))
      else match s.member a with
        | none => (s, some (refuse s 1))
        | some (m, p, _) =>
          let v := vAt f.slots 0
          let num := Sparse.get 0 (s.bore a).nums n
          let x : Coll := { core := n, fid := f.fid, tag := f.tag, code := fld v 8 8, op := fld v 4 2, nstat := bit v 7,
                            land := bit v 6, m := m, p := p, d0 := dAt f.slots 1, d1 := dAt f.slots 2,
                            params := vAt f.slots 3, number := num, size := (dAt f.slots 1).t.boreSize }
          ((s.modBore a fun b => { b with colls := b.colls ++ [x], nums := Sparse.set 0 b.nums n ((num + 1) % 65536) }).boreOpen a, none)
    s.boreNext a n mesh lost 65536

/-- ALLREDUCE (R385, R386). -/
def execAllreduce (n : Nat) (lost : List Nat) (s : State) (mesh : List (Nat × Nat) := []) : Ans := ok (bcolStart n 1 mesh lost s)
/-- REDSCAT (R385, R390). -/
def execRedscat (n : Nat) (lost : List Nat) (s : State) (mesh : List (Nat × Nat) := []) : Ans := ok (bcolStart n 2 mesh lost s)
/-- ALLGATHER (R388). -/
def execAllgather (n : Nat) (lost : List Nat) (s : State) (mesh : List (Nat × Nat) := []) : Ans := ok (bcolStart n 3 mesh lost s)
/-- BCAST (R388). -/
def execBcast (n : Nat) (lost : List Nat) (s : State) (mesh : List (Nat × Nat) := []) : Ans := ok (bcolStart n 4 mesh lost s)
/-- RINGPASS (R388). -/
def execRingpass (n : Nat) (lost : List Nat) (s : State) (mesh : List (Nat × Nat) := []) : Ans := ok (bcolStart n 5 mesh lost s)
/-- PERMUTE (R388). -/
def execPermute (n : Nat) (lost : List Nat) (s : State) (mesh : List (Nat × Nat) := []) : Ans := ok (bcolStart n 6 mesh lost s)

/-! ### BORE_MESSAGE, BORE_CREDIT -/

/-- Does data of member `k` travelling in a half belong to the collective at this member (R389). -/
def Coll.expects (c : Coll) (half k : Nat) : Bool :=
  let back := (c.m + c.p - 1) % c.p
  let fore := (c.m + 1) % c.p
  match c.code with
  | 1 | 2 => k == if half = 0 then back else fore
  | 3 => k != c.m && decide (k < c.p)
  | 4 => k == fld c.params 0 6
  | 5 => k == if fld c.params 0 1 = 0 then back else fore
  | _ => k == fld c.params 8 6

/-- A message that does not match (R381, R389): discarded, BORE_STAT.MISM, a record, SHAPE for the BCOL. -/
def State.boreMismatch (s : State) (a : Nat) (k : Packet) (c : Option Coll) : State :=
  let s := s.raise .boreStat a 0 3
  match c with
  | some c => (s.collFault a 3 c 0).endColl a { c with status := 3 }
  | none => s.fault (boreRec 3 (0x100 + a) (boreFld k 23 8) 0 (boreFld k 40 4) k.xid 0 0)

/-- The message's pieces. -/
def piecesOf (k : Packet) : List (Nat × List Byte) :=
  (List.range (k.plen / 64)).map fun i => (boreFld k 0 23 + i, sliceB (k.data.drop (64 * i)) 0 64)

/-- Does a forwarded packet of the same collective already wait in a direction (R377). -/
def BoreSt.waits (b : BoreSt) (d core xid : Nat) : Bool :=
  b.held.any fun e => e.1 == d && creditCore e.2 == core && e.2.xid == xid

/-- A message of an open collective that passes R381 and R389. -/
def State.boreAccept (s : State) (a : Nat) (lost : List Nat) (k : Packet) (c : Coll) : State :=
  let half := boreFld k 37 1
  let smem := boreFld k 31 6
  let w := (piecesOf k).foldl (fun (w : BoreWork) e =>
    if c.reduces then reducePiece a half lost w e.1 e.2 else movePiece half smem lost w e.1 e.2) ⟨s, c, []⟩
  let out := w.st.borePackets a half (if c.reduces then c.m else smem) 0 w.c w.fwd
  let s := (w.st.modColl a w.c).modBore a fun b => { b with held := b.held ++ out.map fun p => (half, p) }
  let s := s.borePump a ((s.bore a).backlog + 1)
  match (s.bore a).colls.find? fun x => x.core == c.core && x.number == c.number with
  | some x => (s.settleColl a x).boreNext a c.core [] lost 65536
  | none => s

/-- Does a message agree with the collective of its number (R381). -/
def Coll.agrees (c : Coll) (k : Packet) : Bool := boreFld k 40 4 == c.code && boreFld k 38 2 == c.op && k.tlen == c.size

/-- BORE_MESSAGE (R376, R381, R384 to R389, R558): packet `i` of those that wait, for the Bore of an axis. A
message of a collective that this core has not started stays in the receive store. A PERMUTE packet for a member further on is
compared with the core's own collective while that is open, and relayed. -/
def execBoreMessage (axis i : Nat) (lost : List Nat) (s : State) (mesh : List (Nat × Nat) := []) : Ans :=
  match s.takeInbox i [7] with
  | none => ok s
  | some (k, s1) =>
    let g := segOf k.route 0
    let core := boreFld k 23 8
    let half := boreFld k 37 1
    let b := s.bore axis
    let relay : Bool := boreFld k 40 4 == 6 && k.rmark != 0
    if g.axis ≠ axis then ok s
    else
      let s1 := s1.returnCredit axis g.dir core
      let onward : Ans :=
        match s.member axis with
        | none => ok s
        | some (m, p, l) =>
          if b.waits half core k.xid then ok s
          else
            let k' := { k with route := boreWord axis half m p l, rmark := k.rmark - 1, src := s.coord, gen := s.genNow }
            ok ((s1.modBore axis fun b => { b with held := b.held ++ [(half, k')] }).borePump axis (b.backlog + 2))
      if s.gate.filter && k.gen != s.genNow then ok s1
      else match b.colls.find? fun c => c.core == core && c.number == k.xid with
        | none =>
          if (k.xid + 65536 - Sparse.get 0 b.nums core) % 65536 < 32768 then ok s
          else if relay then onward
          else ok (s1.boreMismatch axis k none)
        | some c =>
          if !c.agrees k || (!relay && !c.expects half (boreFld k 31 6)) then
            ok ((s1.boreMismatch axis k (some c)).boreNext axis core mesh lost 65536)
          else if relay then onward
          else if !c.started || b.waits half core k.xid then ok s
          else
            let la := c.landAddrs ((piecesOf k).map Prod.fst)
            match s.heldBack [] la with
            | some s' => ok s'
            | none => ok ((s1.meshWaited mesh).boreAccept axis lost k c)

/-- BORE_CREDIT (R376, R377): a credit comes back, or a slot is lent; a packet that waits is sent. Core 256
stands for gate messages. -/
def execBoreCredit (axis dir core : Nat) (s : State) : Ans :=
  let key := creditKey dir core
  let s := s.modBore axis fun b =>
    match Sparse.get [] b.spent key with
    | _ :: t => { b with spent := Sparse.set [] b.spent key t }
    | [] => { b with extra := Sparse.modify 0 b.extra key (· + 1) }
  let s := s.borePump axis ((s.bore axis).backlog + 1)
  match (s.bore axis).colls.find? fun c => c.core == core && c.started with
  | some c => ok ((s.settleColl axis c).boreNext axis core [] [] 65536)
  | none => ok (s.boreNext axis core [] [] 65536)

/-! ### Watchdog, lost links, configuration, abort -/

/-- The members a collective waits for, as a bit mask (Table 18.6). -/
def Coll.awaited (c : Coll) : Nat :=
  let n := cdiv c.d0.t.flatPos.length 64
  let got (k : Nat) : Nat := (c.seen.filter fun (e : Nat × Nat) => e.1 == k).length
  let lower (q : Nat) : Bool := decide (16 * q % c.shard < c.shard / 2)
  let want := (c.p - 1) * (c.shard / 32) * (if c.code = 1 then 2 else 1)
  let back := (c.m + c.p - 1) % c.p
  let fore := (c.m + 1) % c.p
  let ms := match c.code with
    | 1 | 2 =>
      (if (c.seen.filter fun (e : Nat × Nat) => lower e.2).length < want then [back] else []) ++
        (if (c.seen.filter fun (e : Nat × Nat) => !lower e.2).length < want then [fore] else [])
    | 3 => (List.range c.p).filter fun k => k != c.m && decide (got k < n)
    | _ => if c.due = 0 then [] else (List.range c.p).filter fun k => c.expects 0 k
  (ms.eraseDups.map (2 ^ ·)).sum

/-- BORE_WATCHDOG (R394): reported once for a collective. -/
def execBoreWatchdog (axis core idle : Nat) (s : State) : Ans :=
  let lim := s.fd .boreWdog axis 0 0 32
  match (s.bore axis).colls.find? fun c => c.core == core && c.started && !c.reported with
  | some c =>
    if lim ≠ 0 ∧ lim < idle then
      ok ((((s.modColl axis { c with reported := true }).raise .boreStat axis 0 4).latchHlink).collFault axis 4 c c.awaited)
    else ok s
  | none => ok s

/-- A direction of an axis is lost (R395): the gate learns of it, every open collective of two members or more ends with
REMOTE. -/
def State.boreLinkLost (s : State) (a : Nat) : State :=
  let s := s.latchHlink
  let cs := (s.bore a).colls.filter fun c => 2 ≤ c.p
  cs.foldl (fun s c =>
    ((s.raise .boreStat a 0 5).collFault a 5 c 0).endColl a { c with status := 11 }) s

/-- A write of BORE_AXCFG (R409). -/
def State.axcfgWrite (s : State) (a v : Nat) : State :=
  if s.fd .boreStat a 0 16 9 ≠ 0 ∨ s.fd .gateStat 0 0 0 2 = 2 then s.raise .boreStat a 0 6
  else ((s.setF .boreAxcfg a 0 31 1 (v / 2 ^ 31)).setF .boreAxcfg a 0 8 6 (v / 2 ^ 8)).setF .boreAxcfg a 0 0 6 v

/-- BORE_AXCFG (R409). -/
def execBoreAxcfg (a : Agent) (axis v : Nat) (s : State) : Ans := ok (s.gated a .boreAxcfg axis 0 fun s => s.axcfgWrite axis v)

/-- BABORT (R558): every open collective ends with REMOTE, stored packets return their credits. -/
def State.babort (s : State) : State :=
  let s := (List.range 4).foldl (fun s a =>
    let s := (s.bore a).colls.foldl (fun s c => s.endColl a { c with status := 11 }) s
    s.modBore a fun b => { b with held := [], nums := [] }) s
  let mine (k : Packet) : Bool := k.kind == 7 || k.kind == 8
  let s := (s.inbox.filter mine).foldl (fun s k => s.emit (.boreCredit (segOf k.route 0).axis (1 - (segOf k.route 0).dir) (creditCore k))) s
  { s with inbox := s.inbox.filter fun k => !mine k, gate := { s.gate with filter := true } }

/-- The report of a noise record that could not be written (R392). -/
def State.noiseErr (s : State) (a : Nat) : State := (s.raise .boreStat a 0 7).fault (boreRec 7 (0x100 + a) 0 0 0 0 0 0)

/-- Write the noise record of an axis once the host holds its unit no longer (R392, R457). -/
def State.noiseWrite (s : State) (a : Nat) : State :=
  match (s.bore a).noise with
  | none => s
  | some (ad, bytes) =>
    s.accessing [] ((List.range 32).map (ad + ·)) fun s =>
      let s := s.modBore a fun b => { b with noise := none }
      let r := s.writeAll (wholeWrites ad bytes)
      let s := r.1.reportUnits { src := 0x100 + a } r.2
      if r.2.isEmpty then s else s.noiseErr a

/-- BIRSP (R457): the host gives a unit back; noise records that waited for it are written. -/
def execBirsp (addr : Nat) (data : Option (List Byte)) (s : State) : Ans :=
  ok ((List.range 4).foldl (fun s a => s.noiseWrite a) (s.birsp addr data))

/-- The noise record of the step at its gate word (R392). -/
def State.noiseRecord (s : State) (a step : Nat) : State :=
  if !s.flag .boreNsaddr a 0 63 then s
  else
    let b := s.bore a
    let tree (l : List (Nat × W32)) : W32 :=
      let v := Sparse.getN 0#32 l 0 256
      let up := pairUp (fun x y => (fadd32 x y).1)
      (up (up (up (up (up (up (up (up v)))))))).headD 0#32
    let ad := s.fd .boreNsaddr a 0 0 44
    let sum (l : List (Nat × Nat)) : Nat := (Sparse.getN 0 l 0 256).sum
    let bytes := leBytes 6 step ++ leBytes 2 0 ++ leBytes 4 (tree b.sql).toNat ++ leBytes 4 (tree b.sqr).toNat ++
      leBytes 4 (sum b.ncol) ++ leBytes 4 (sum b.nelem) ++ leBytes 8 0
    let s := s.modBore a fun b => { b with sql := [], sqr := [], ncol := [], nelem := [] }
    if ad % 32 ≠ 0 ∨ regionOf ad ≠ .hbm ∨ regionOf (ad + 31) ≠ .hbm then s.noiseErr a
    else (s.modBore a fun b => { b with noise := some (ad, bytes) }).noiseWrite a

end Sys2Proof.Machine
end

