-- ==== Sys2Proof/Machine/Rules.lean ====
section
/-! DEFINITION. What an Ebb die computes: rule programs (R293 to R298), the segment table (R290 to R292), weight
conversion (R305) and the Tide Table (R271, R300). -/

namespace Sys2Proof.Machine

/-! ### Rule programs -/

/-- A word of rule program `p` (R297). -/
def State.ruleWord (s : State) (e p k : Nat) : W32 := (s.rd .ebbRule e (64 * p + k)).setWidth 32
/-- WORDS, NS and NG of a rule program. -/
def State.ruleHdr (s : State) (e p : Nat) : Nat × Nat × Nat :=
  let w := s.ruleWord e p 0
  (fld w 0 6, fld w 8 3, fld w 12 2)

/-- May a rule program use an opcode (R296). -/
def ruleOp (op : Nat) : Bool :=
  [0x01, 0x02, 0x03, 0x08, 0x09, 0x0A, 0x0B, 0x0C, 0x0D, 0x0E, 0x0F, 0x10, 0x13].contains op ||
    (decide (0x18 ≤ op ∧ op ≤ 0x22) && laneCycles op != 0)

/-- Does a word of a rule program obey R227, R296 and Table 9.5. -/
def ruleWordOk (v : W32) : Bool :=
  let op := fld v 26 6
  let u := laneUse op
  let d := fld v 21 5
  let zero (used : Bool) (x : Nat) : Bool := used || x == 0
  ruleOp op && decide (fld v 4 2 < 2) && (if u.d then decide (d < 16 ∨ (24 ≤ d ∧ d ≤ 28)) else d == 0) &&
    zero u.a (fld v 16 5) && zero u.b (fld v 11 5) && zero u.c (fld v 6 5) &&
    (if op = 0x10 then decide (fld v 0 4 < 7) else fld v 0 4 == 0)

/-- Do the instructions of a rule program obey R296, Table 9.5 and the final-word rule of R229. -/
def ruleListOk : List W32 → Bool
  | [] => true
  | [w] => ruleWordOk w && fld w 26 6 != 2
  | w :: v :: t => ruleWordOk w && (if fld w 26 6 = 2 then ruleListOk t else ruleListOk (v :: t))
termination_by structural l => l

/-- The instructions of a program. -/
def State.ruleCode (s : State) (e p : Nat) : List W32 := (List.range (s.ruleHdr e p).1).map fun k => s.ruleWord e p (k + 1)

/-- Does a program pass the check of R297. -/
def State.ruleOk (s : State) (e p : Nat) : Bool :=
  let (n, ns, ng) := s.ruleHdr e p
  decide (1 ≤ n ∧ n ≤ 48 ∧ 1 ≤ ns ∧ ns ≤ 4 ∧ ng ≤ 2) && (s.ruleWord e p 0 &&& 0xFFFFC8C0#32) == 0#32 && ruleListOk (s.ruleCode e p)

/-- A rule program at work on one element: the readable registers, F, the values written to S0 to S3 and G0,
and its events. -/
structure RuleRun where
  regs : List W32
  f : Bool
  out : List (Option W32)
  ev : Ev
  deriving DecidableEq, Repr

/-- Write a register: a working register, or a new value that reads do not see (R294). -/
def RuleRun.put (r : RuleRun) (d : Nat) (v : W32) (e : Ev) : RuleRun :=
  if d < 16 then { r with regs := r.regs.set d v, ev := r.ev.join e }
  else { r with out := r.out.set (d - 24) (some v), ev := r.ev.join e }

/-- One instruction other than LDI. -/
def RuleRun.step (v : W32) (r : RuleRun) : RuleRun :=
  let op := fld v 26 6
  let x (lo : Nat) : W32 := r.regs.getD (fld v lo 5) 0#32
  if fld v 4 2 = 1 ∧ !r.f then r
  else if op = 0x10 then
    match laneCond op (fld v 0 4) (x 16) (x 11) with
    | some t => { r with f := t }
    | none => r
  else
    let o := laneAlu op (x 16) (x 11) (x 6) r.f
    r.put (fld v 21 5) o.1 o.2

/-- A rule program; an LDI takes the word after it. -/
def runRule : List W32 → RuleRun → RuleRun
  | [], r => r
  | [w], r => r.step w
  | w :: v :: t, r =>
    if fld w 26 6 = 2 then runRule t (if fld w 4 2 = 1 ∧ !r.f then r else r.put (fld w 21 5) v {})
    else runRule (v :: t) (r.step w)
termination_by structural l => l

/-- Set the rule flags of EBB_STAT and the health bit (R298). -/
def State.ruleEvents (s : State) (e : Nat) (v : Ev) : State :=
  let m := 4 * b2n v.nan + 8 * b2n v.inv + 16 * b2n v.ovf + 32 * b2n v.dz
  (s.raiseMask .ebbStat e 0 (BitVec.ofNat 64 m)).latchEbb e (if m = 0 then 0 else 0x10000)

/-! ### Segments (Table 9.4) -/

/-- A segment entry. -/
structure SegEnt where
  st : Nat
  g : Nat
  w : Nat
  n : Nat
  rule : Nat
  hset : Nat
  wen : Bool
  num : NumWord
  seed : W64
  sr : Nat
  resv : Bool
  deriving DecidableEq, Repr

/-- Segment `i` of a die. -/
def State.segEnt (s : State) (e i : Nat) : SegEnt :=
  let w (k : Nat) : W64 := s.rd .ebbSeg e (8 * i + k)
  { st := fld (w 0) 0 44, g := fld (w 1) 0 44, w := fld (w 2) 0 44, n := fld (w 3) 0 32, rule := fld (w 3) 32 3,
    hset := fld (w 3) 36 4, wen := bit (w 3) 40, num := NumWord.ofWord (w 4), seed := w 5, sr := fld (w 6) 0 44,
    resv := fld (w 0) 44 20 != 0 || fld (w 1) 44 20 != 0 || fld (w 2) 44 20 != 0 || bit (w 3) 35 ||
      fld (w 3) 41 23 != 0 || fld (w 6) 44 20 != 0 || w 7 != 0#64 }

/-- The base of a die's slow tier (Table 13.1). -/
def slowBase (e : Nat) : Nat := 0x10000000000 + e * 0x4000000000
/-- Does a range lie within the die's slow tier. -/
def inSlow (e a len : Nat) : Bool := rangeIn a len (slowBase e) 0x4000000000

/-- The format of a segment's weights. -/
def SegEnt.fmt (g : SegEnt) : Fmt := g.num.format.getD .fp32
/-- Bytes of the element array of the weight output (R291). -/
def SegEnt.wsize (g : SegEnt) : Nat := cdiv (g.n * g.fmt.width) 8
/-- Bytes of the weight output with its scale plane. -/
def SegEnt.wtotal (g : SegEnt) : Nat := if g.fmt.narrow then up64 g.wsize + g.n / 32 else g.wsize
/-- Does the weight output use a scale record. -/
def SegEnt.usesRec (g : SegEnt) : Bool := g.fmt.narrow && g.num.ssrc

/-- Is an entry valid (R292). -/
def SegEnt.ok (g : SegEnt) (e : Nat) : Bool :=
  !g.resv && g.n != 0 && g.st % 64 == 0 && g.g % 64 == 0 && g.w % 64 == 0 && g.num.ok true false &&
    (!g.fmt.narrow || g.n % 32 == 0) && (!g.num.ssrc || (g.fmt.narrow && g.sr % 128 == 0 && inSlow e g.sr 128))

/-- The segments a die processes. -/
def State.segments (s : State) (e : Nat) : List (Nat × SegEnt) :=
  (List.range (min 1024 (s.fd .ebbSegcnt e 0 0 11))).map fun i => (i, s.segEnt e i)

/-! ### Weight outputs (R291, R305) -/

/-- The use of a segment's scale record: the record after its start and its scale byte, or the address and
status that stop the operation (R70, R72, R308). -/
def State.segRec (s : State) (e : Nat) (g : SegEnt) (step : Nat) : Option (ScaleRec × Nat) ⊕ (Nat × Nat) :=
  if !g.usesRec then .inl none
  else match s.failsAt ((List.range 128).map (g.sr + ·)) with
    | f :: _ => .inr f
    | [] =>
      match (ScaleRec.ofBytes (s.bytes g.sr 128)).startUse step with
      | none => .inr (g.sr, 8)
      | some r => .inl (some (r, estScale g.fmt r.est (s.fd .ebbHeadroom e 0 (2 * r.cls) 2) g.num.fixscl))

/-- Converted weights: element codes, scale bytes, events. -/
structure WeightOut where
  codes : List Nat
  scales : List Nat
  ev : CvtEv
  deriving DecidableEq, Repr

/-- Convert the first weights of a segment; of a narrow format only whole blocks (R305). -/
def SegEnt.convert (g : SegEnt) (step : Nat) (scale : Option Nat) (vs : List W32) : WeightOut :=
  let seed := g.seed ^^^ BitVec.ofNat 64 (step % 2 ^ 48)
  let rv := vs.zipIdx.map fun v => (g.num.rmAt seed v.2, v.1)
  if g.fmt.narrow then
    (groupsOf 32 (vs.length / 32) rv).foldl (fun (o : WeightOut) b =>
      let sc := scale.getD (blockScale g.fmt (b.map Prod.snd))
      let c := cvtBlock g.fmt g.num.sat sc b
      ⟨o.codes ++ c.codes, o.scales ++ [c.scale], o.ev.join c.ev⟩) ⟨[], [], {}⟩
  else
    let cs := rv.map fun v => cvtElem g.fmt v.1 g.num.sat 0 v.2
    ⟨cs.map Prod.fst, [], cs.foldl (fun o c => o.join c.2) {}⟩

/-- The bytes of element codes packed under R54. -/
def packCodes (w : Nat) (codes : List Nat) : List Byte :=
  leBytes (cdiv (codes.length * w) 8) (codes.foldr (fun c a => c % 2 ^ w + 2 ^ w * a) 0)

/-- The weight writes as one access: bytes with their HBM addresses. -/
def SegEnt.writes (g : SegEnt) (o : WeightOut) : List MWrite :=
  wholeWrites g.w (packCodes g.fmt.width o.codes) ++
    wholeWrites (g.w + up64 g.wsize) (o.scales.map fun c => BitVec.ofNat 8 c)

/-- The element of a segment whose weight, or whose block's scale, stands at an address. -/
def SegEnt.elemAt (g : SegEnt) (a : Nat) : Nat :=
  if g.fmt.narrow ∧ g.w + up64 g.wsize ≤ a then (a - (g.w + up64 g.wsize)) * 32 else (a - g.w) * 8 / g.fmt.width

/-- Elements that are read before a weight is written: those of a block for a narrow format (R304, R305). -/
def SegEnt.group (g : SegEnt) : Nat := if g.fmt.narrow then 32 else 1

/-- The weights of a segment, converted and written; a refused write gives the element, address and status
at which the operation stops, the writes before it standing. -/
def State.writeWeights (s : State) (e : Nat) (g : SegEnt) (step : Nat) (sc : Option (ScaleRec × Nat)) (vs : List W32) :
    State × CvtEv × Option (Nat × Nat × Nat) :=
  let o := g.convert step (sc.map Prod.snd) vs
  let ws := g.writes o
  let off := ws.filter fun w => regionOf w.addr != .hbm
  let bad := ((s.writeAll ws).2.map Prod.fst) ++ off.map (·.addr)
  match bad with
  | [] =>
    let s := (s.writeAll ws).1
    let s := match sc with
      | some (r, _) =>
        if vs.length = g.n then
          (s.land (wholeWrites g.sr (r.endUse (amaxOf vs) o.ev.clip).toBytes)).1
        else s
      | none => s
    (s, o.ev, none)
  | a :: t =>
    let k := (a :: t).foldl (fun m x => min m (g.elemAt (max x g.w))) g.n
    let addr' := ((a :: t).find? fun x => g.elemAt (max x g.w) == k).getD a
    let o' := g.convert step (sc.map Prod.snd) (vs.take k)
    let s := if regionOf addr' == Region.hbm then s.reportUnit { src := 0x104 + e } (addr' / 64 * 64, 5) else s
    ((s.writeAll (g.writes o')).1, o'.ev, some (k, addr', 5))

/-- Weight conversion events (R305). -/
def State.weightEvents (s : State) (e : Nat) (v : CvtEv) : State :=
  (s.raiseMask .ebbStat e 0 (BitVec.ofNat 64 (64 * b2n v.ovf + 128 * b2n v.inv + 256 * b2n v.clip))).latchEbb e
    (if v.ovf || v.inv then 0x10000 else 0)

/-! ### One segment of the update pass (R293 to R298, R304) -/

/-- The FP32 word at an address. -/
def State.word32 (s : State) (a : Nat) : W32 := BitVec.ofNat 32 (leNat (s.bytes a 4))

/-- The registers of a rule program at an element (R293, R294). -/
def State.ruleRegs (s : State) (e : Nat) (g : SegEnt) (ns ng i : Nat) : List W32 :=
  let sv (k : Nat) : W32 := if k < ns then s.word32 (g.st + 4 * g.n * k + 4 * i) else 0#32
  let gv (j : Nat) : W32 := if j < ng then s.word32 (g.g + 4 * g.n * j + 4 * i) else 0#32
  let v0 := s.rd .tideStepval e 0
  let v1 := s.rd .tideStepval e 1
  List.replicate 16 0#32 ++ (List.range 6).map (fun k => (s.rd .ebbHset e (8 * g.hset + k)).setWidth 32) ++
    [BitVec.ofNat 32 (fld v1 32 32), BitVec.ofNat 32 (fld v0 0 32), sv 0, sv 1, sv 2, sv 3, gv 0, gv 1,
     BitVec.ofNat 32 (fld v1 0 32), BitVec.ofNat 32 (fld v0 32 32)]

/-- The rule program on element `i`: the new state values, the weight and the events (R295). -/
def State.runElem (s : State) (e : Nat) (g : SegEnt) (i : Nat) : List W32 × W32 × Ev :=
  let (_, ns, ng) := s.ruleHdr e g.rule
  let regs := s.ruleRegs e g ns ng i
  let r := runRule (s.ruleCode e g.rule) { regs := regs, f := false, out := List.replicate 5 none, ev := {} }
  let st := (List.range ns).map fun k => (r.out.getD k none).getD (regs.getD (24 + k) 0#32)
  (st, (r.out.getD 4 none).getD (st.getD 0 0#32), r.ev)

/-- Where a pass stops: segment, element, address, and whether the segment's last staged byte had been read. -/
structure PassStop where
  seg : Nat
  elem : Nat
  addr : Nat
  staged : Bool
  deriving DecidableEq, Repr

/-- One segment of a pass (R304, R308). -/
def State.passSegment (s : State) (e step i : Nat) (g : SegEnt) : State × Option PassStop :=
  let (_, ns, ng) := s.ruleHdr e g.rule
  let src := (List.range ns).map (fun k => g.st + 4 * g.n * k) ++ (List.range ng).map fun j => g.g + 4 * g.n * j
  let c : Ctx := { src := 0x104 + e }
  match (if g.wen then s.segRec e g step else .inl none) with
  | .inr (a, st) => (if st = 8 then s else s.reportUnit c (a, st), some ⟨i, 0, a, ng == 0⟩)
  | .inl sc =>
    let bad := src.flatMap fun b => (s.failsAt ((List.range (4 * g.n)).map (b + ·))).map fun u => ((max u.1 b - b) / 4, u.1)
    let stop := bad.foldl (fun m u => min m u.1) g.n
    let s := s.reportUnits c ((bad.filter fun u => u.1 == stop).map fun u => (u.2, 5))
    let res := (List.range stop).map fun j => s.runElem e g j
    let w := if g.wen then s.writeWeights e g step sc (res.map fun r => r.2.1) else (s, {}, none)
    let stop' := match w.2.2 with | some x => min stop x.1 | none => stop
    let s := (w.1.weightEvents e w.2.1).ruleEvents e ((res.take stop').foldl (fun v r => v.join r.2.2) {})
    let s := (List.range ns).foldl (fun s k =>
      (s.writeAll (wholeWrites (g.st + 4 * g.n * k) ((res.take stop').flatMap fun r => leBytes 4 (r.1.getD k 0#32).toNat))).1) s
    match w.2.2 with
    | some x => (s, some ⟨i, x.1, x.2.1, ng == 0 || (stop == g.n && x.1 / g.group == (g.n - 1) / g.group)⟩)
    | none => if stop < g.n then (s, some ⟨i, stop, ((bad.find? fun u => u.1 == stop).map Prod.snd).getD 0, ng == 0⟩) else (s, none)

/-- The segments of a pass in order, up to the first that stops. -/
def State.passFrom (e step : Nat) : List (Nat × SegEnt) → State → State × Option PassStop
  | [], s => (s, none)
  | (i, g) :: t, s =>
    match s.passSegment e step i g with
    | (s', none) => s'.passFrom e step t
    | r => r

/-! ### The Tide Table (R271, R300) -/

/-- 2^x as an FP32 value, for −126 ≤ x ≤ 126. -/
def pow2 (x : Int) : W32 := BitVec.ofNat 32 ((x + 127).toNat * 2 ^ 23)
/-- n rounded to FP32. -/
def natTo32 (n : Nat) : W32 := (round32 false n 0).1

/-- Does a gate word report an overflow (R270). -/
def gateOverflow (g : W64) : Bool := fld g 0 16 != 0

/-- on_gate_word of R271. -/
def State.tideGate (s : State) (e : Nat) (skip : Bool) (step : Nat) : State :=
  let cfg := s.rd .tideLscfg e 0
  let emax := toSigned 8 (fld cfg 24 8)
  let emin := toSigned 8 (fld cfg 16 8)
  let run := fld cfg 0 16
  let en := toSigned 8 (s.fd .tideLscale e 0 0 8)
  let rc := min (s.fd .tideLsstat e 0 0 16 + 1) 0xFFFF
  let s := (s.setF .tideLscale e 0 24 8 (s.fd .tideLscale e 0 0 8)).setF .tideLsstat e 0 16 48 step
  let put (s : State) (en : Int) (rc : Nat) : State :=
    ((s.setF .tideLscale e 0 0 8 ((en + 256).toNat)).setF .tideLscale e 0 32 32 (pow2 en).toNat).setF .tideLsstat e 0 0 16 rc
  if skip then
    let s := s.count .tideLsevt e 0 8 24 1
    if emin < en then put s (en - 1) 0 else put (s.raise .tideLsevt e 0 0) en 0
  else if run ≠ 0 ∧ run ≤ rc then
    if en < emax then put s (en + 1) 0 else put (s.raise .tideLsevt e 0 1) en 0
  else put s en rc

/-- sched of R300. -/
def State.tideSched (s : State) (e p : Nat) : W32 :=
  let warm := s.fd .tideWarm e 0 0 32
  let len := s.fd .tideLen e 0 0 32
  let mx : W32 := BitVec.ofNat 32 (s.fd .tideLr e 0 32 32)
  let mn : W32 := BitVec.ofNat 32 (s.fd .tideLr e 0 0 32)
  let mul (a b : W32) := (fmul32 a b).1
  let one : W32 := 0x3F800000#32
  if p < warm then mul mx (fdiv32 (natTo32 (p + 1)) (natTo32 warm)).1
  else
    let q := p - warm
    let q := if s.flag .tideCfg e 0 3 then q % len else min q len
    let x := (fdiv32 (natTo32 q) (natTo32 len)).1
    let diff := (fsub32 mx mn).1
    match s.fd .tideCfg e 0 0 3 with
    | 0 => mx
    | 1 => (fsub32 mx (mul diff x)).1
    | 2 => (fadd32 mn (mul (mul 0x3F000000#32 diff) (fadd32 one (fcospi32 x).1).1)).1
    | _ => mul mx (frsqrt32 (fadd32 one x).1).1

/-- on_commit of R300. -/
def State.tideCommit (s : State) (e : Nat) : State :=
  let pos := s.fd .tidePos e 0 0 48
  let one : W32 := 0x3F800000#32
  let f (r : Reg) (lo : Nat) : W32 := BitVec.ofNat 32 (s.fd r e 0 lo 32)
  let p1 := (fmul32 (f .tideBcp 32) (f .tideBeta 32)).1
  let p2 := (fmul32 (f .tideBcp 0) (f .tideBeta 0)).1
  let tb (p : W32) : W32 := (fdiv32 one (fsub32 one p).1).1
  let tus := pow2 (-(toSigned 8 (s.fd .tideLscale e 0 24 8)))
  let tlr := s.tideSched e pos
  let s := (s.wr .tideBcp e 0 (BitVec.ofNat 64 (p1.toNat * 2 ^ 32 + p2.toNat))).setF .tidePos e 0 0 48 (pos + 1)
  (s.wr .tideStepval e 0 (BitVec.ofNat 64 ((tb p2).toNat * 2 ^ 32 + tus.toNat))).wr .tideStepval e 1
    (BitVec.ofNat 64 (tlr.toNat * 2 ^ 32 + (tb p1).toNat))

end Sys2Proof.Machine
end

