-- ==== Sys2Proof/Machine/Ebb.lean ====
section
/-! DEFINITION. The Ebb dies' commands (R283 to R318, R554, R555, R561, R562, R576): the checks before the
gate, the step boundary, the pass, mirrors, snapshots, exports, restores, and writes of the Ebb block. -/

namespace Sys2Proof.Machine

/-! ### Staging writes (R283, R284, R286, R287) -/

/-- A write into a die's slow tier. -/
def State.slowWrite (s : State) (e addr : Nat) (bs : List Byte) : State :=
  let r := s.land (wholeWrites addr bs)
  r.1.reportUnits { src := 0x104 + e } r.2

/-- STAGING_WRITE (R283 to R287, R448): bytes that arrive for a die's slow tier; a write that is held is performed later. -/
def execStagingWrite (die addr : Nat) (data : List Byte) (s : State) : Ans :=
  if die < 2 ∧ inSlow die addr data.length then
    ok (s.holding (.stagingWrite die addr data) [] ((List.range data.length).map (addr + ·)) fun s => s.slowWrite die addr data)
  else ok s

/-! ### The checks before the gate (R282, R288) -/

/-- TXBASE, TXLEN, RXBASE, RXSLOT in bytes, EN and BUDDY of EBB_MIRCFG. -/
def State.mirTxBase (s : State) (e : Nat) : Nat := s.fd .ebbMircfg e 0 0 44
/-- TXLEN. -/
def State.mirTxLen (s : State) (e : Nat) : Nat := s.fd .ebbMircfg e 1 0 40
/-- RXBASE. -/
def State.mirRxBase (s : State) (e : Nat) : Nat := s.fd .ebbMircfg e 2 0 44
/-- The size of a mirror slot in bytes. -/
def State.mirSlot (s : State) (e : Nat) : Nat := s.fd .ebbMircfg e 3 32 26 * 4096
/-- EN. -/
def State.mirEn (s : State) (e : Nat) : Bool := s.flag .ebbMircfg e 3 24
/-- BUDDY. -/
def State.mirBuddy (s : State) (e : Nat) : Nat := s.fd .ebbMircfg e 3 0 24
/-- The size of a snapshot half in bytes. -/
def State.snapHalf (s : State) (e : Nat) : Nat := s.fd .ebbSnapcfg e 2 16 32 * 4096
/-- The base of a snapshot half. -/
def State.snapBase (s : State) (e h : Nat) : Nat := s.fd .ebbSnapcfg e h 0 44

/-- The areas of a die that are not empty, with their alignment (Table 9.3). -/
def State.ebbAreas (s : State) (e : Nat) : List (Nat × Nat × Nat) :=
  [(s.mirTxBase e, s.mirTxLen e, 64), (s.fd .ebbStgbase e 0 0 44, s.fd .ebbStglen e 0 0 40, 64),
   (s.mirRxBase e, 2 * s.mirSlot e, 4096), (s.snapBase e 0, s.snapHalf e, 4096),
   (s.snapBase e 1, s.snapHalf e, 4096)].filter fun (a : Nat × Nat × Nat) => a.2.1 != 0

/-- The area of Table 9.3 that breaks R282. A scale record may stand inside the state area (R559). -/
def State.badArea (s : State) (e : Nat) : Option Nat :=
  let as := s.ebbAreas e
  let one := as.zipIdx.find? fun (x : (Nat × Nat × Nat) × Nat) =>
    !inSlow e x.1.1 x.1.2.1 || x.1.1 % x.1.2.2 != 0 ||
      (as.take x.2).any fun (b : Nat × Nat × Nat) => rangesMeet x.1.1 x.1.2.1 b.1 b.2.1
  match one with
  | some x => some x.1.1
  | none =>
    ((s.segments e).filter fun (g : Nat × SegEnt) => g.2.usesRec).findSome? fun (g : Nat × SegEnt) =>
      if (as.filter fun (a : Nat × Nat × Nat) => !rangeIn g.2.sr 128 (s.mirTxBase e) (s.mirTxLen e) ||
            a.1 != s.mirTxBase e).any fun (a : Nat × Nat × Nat) => rangesMeet g.2.sr 128 a.1 a.2.1
      then some g.2.sr else none

/-- Does an address lie in HBM, the strandline region included (Table 13.1). -/
def inHbm (a : Nat) : Bool := regionOf a == .hbm || regionOf a == .strandline

/-- The first check of R288 that fails: the segment, or 0, and the address involved, or 0. -/
def State.ebbChecks (s : State) (e : Nat) : Option (Nat × Nat) :=
  let segs := s.segments e
  let txb := s.mirTxBase e
  let txl := s.mirTxLen e
  let ns (g : SegEnt) : Nat := (s.ruleHdr e g.rule).2.1
  let ng (g : SegEnt) : Nat := (s.ruleHdr e g.rule).2.2
  let first (p : SegEnt → Bool) (a : SegEnt → Nat) : Option (Nat × Nat) :=
    (segs.find? fun g => p g.2).map fun g => (g.1, a g.2)
  (if 1024 < s.fd .ebbSegcnt e 0 0 11 then some (0, 0) else none).or <|
  (first (fun g => !g.ok e || !s.flag .ebbRuleval e 0 g.rule) fun _ => 0).or <|
  ((s.badArea e).map fun a => (0, a)).or <|
  (first (fun g => !rangeIn g.st (4 * g.n * ns g) txb txl) (·.st)).or <|
  (first (fun g => decide (0 < ng g) && !rangeIn g.g (4 * g.n * ng g) (s.fd .ebbStgbase e 0 0 44) (s.fd .ebbStglen e 0 0 40))
    (·.g)).or <|
  (first (fun g => g.wen && (!inHbm g.w || !inHbm (g.w + g.wtotal - 1))) (·.w)).or <|
  if s.mirEn e && (txl == 0 || decide (s.mirSlot e < txl + 64) || s.mirBuddy e == s.coord) then some (0, txb) else none

/-! ### The gate word of a die (R285, R288, R289) -/

/-- The checks of R288 with their outcome: EBB_STAT.CFGERR, a record, the invalid field. -/
def State.ebbChecked (s : State) (e : Nat) : State :=
  match s.ebbChecks e with
  | none => s
  | some x => (s.ebbRaise e 10 x.1 0 x.2).latchEbb e 0x1000

/-- The die delivers its word and clears its latch (R400, Table 11.6). -/
def State.ebbDeliver (s : State) (e : Nat) : State :=
  let w : W64 := 0xFFFF000001000000#64 ||| (s.ebb e).latch
  let s := s.modEbb e fun x => { x with latch := 0#64, checked := true }
  let s : State := { s with gate := { s.gate with ebb := Sparse.set 0#64 s.gate.ebb e w } }
  let s := (s.raise .gateStat 0 0 (14 + e)).setEbbState e 1
  if s.fd .gateStat 0 0 0 2 = 0 then s.setF .gateStat 0 0 0 2 1 else s

/-- EBB_GATE_WORD (R285): in IDLE with the gate enabled and the staged bytes complete, the die checks its
configuration and delivers its word. -/
def execEbbGateWord (die : Nat) (s : State) : Ans :=
  let full := decide (s.fd .ebbStglen die 0 0 40 ≤ s.fd .ebbStgcnt die 0 0 40)
  if decide (die < 2) && s.flag .gateCfg 0 0 0 && s.ebbState die == 0 && !s.isStranded && full then
    ok ((s.ebbChecked die).ebbDeliver die)
  else ok s

/-- A die returns to IDLE: R289 refuses nothing more. -/
def State.ebbIdle (s : State) (e : Nat) : State :=
  (s.setEbbState e 0).modEbb e fun x => { x with checked := false, passed := false, strand := false }

/-- The hold of R287 ends: EBB_STGCNT becomes 0. -/
def State.endHold (s : State) (e : Nat) : State :=
  if (s.ebb e).hold then (s.setF .ebbStgcnt e 0 0 40 0).modEbb e fun x => { x with hold := false } else s

/-- The completion marks (R306). -/
def State.ebbMarks (s : State) (e : Nat) : State :=
  (List.range 256).foldl (fun s n =>
    if s.flag .ebbDonecore e (n / 64) (n % 64) then s.signal n (s.fd .ebbDone e 0 0 6) else s) s

/-! ### The job-wide word at the dies (R168, R271, R300, R303, R554) -/

/-- The 96 B at CXL_STEPREC, zeros for a unit that fails or does not exist, whether one does, and the failing
units of HBM. -/
def State.stepRecord (s : State) : List Byte × Bool × List (Nat × Nat) :=
  let as := (List.range 96).map (s.fd .cxlSteprec 0 0 0 44 + ·)
  let bad := s.failsAt (as.filter fun a => regionOf a == Region.hbm)
  let gone (a : Nat) : Bool := regionOf a != Region.hbm || bad.any fun (b : Nat × Nat) => b.1 == granule a
  (as.map fun a => if gone a then 0#8 else s.byte a, as.any gone, bad)

/-- A strandline entry with its step record: SREC, FLAGS.SRM, FLAGS.SRCHK and CRC (Table 18.2), and FLAGS.SRM (R555). -/
def entryWith (b srec : List Byte) (chk : Bool) : List Byte × Bool :=
  let srm := natAt srec 0 6 != natAt b 96 6
  let b := sliceB srec 0 96 ++ sliceB b 96 6 ++ leBytes 1 (natAt b 102 1 + 2 * b2n srm + 16 * b2n chk) ++ sliceB b 103 149
  (b ++ leBytes 4 (crc32 b).toNat, srm)

/-- The strandline entry of a step (Table 18.2) but for its step record and CRC. -/
def State.strandEntry (s : State) (step : Nat) (word : W64) (commit snap : Bool) : List Byte :=
  let n (r : Reg) (i lo len k : Nat) : List Byte := leBytes k (s.fd r 0 i lo len)
  let flags := b2n commit + 4 * b2n (s.mirEn 0) + 8 * b2n snap
  List.replicate 96 0#8 ++ leBytes 6 step ++ leBytes 1 flags ++ n .tideLscale 0 24 8 1 ++ n .tideLscale 0 0 8 1 ++ leBytes 1 0 ++
    n .tideLsstat 0 0 16 2 ++ n .tideStepval 1 32 32 4 ++ n .tideStepval 1 0 32 4 ++ n .tideStepval 0 32 32 4 ++
    n .tidePos 0 0 48 6 ++ leBytes 2 0 ++ n .tideBcp 0 32 32 4 ++ n .tideBcp 0 0 32 4 ++ leBytes 8 word.toNat ++
    leBytes 8 (s.rd .clkTick 0 0).toNat ++ n .ebbMirstat 0 0 48 6 ++ leBytes 6 (s.fd .ebbMirstat 1 0 0 48) ++
    List.replicate 88 0#8

/-- Die 0 reads the step record into its entry, or waits until the host has given a modified copy back (R457). -/
def State.takeSrec (s : State) : State :=
  match (s.ebb 0).entry with
  | none => s
  | some b =>
    let r := s.stepRecord
    let as := (List.range 96).map (s.fd .cxlSteprec 0 0 0 44 + ·)
    match s.heldBack (as.filter fun a => regionOf a == Region.hbm) [] with
    | some s' => s'.modEbb 0 fun x => { x with srecDue := true }
    | none =>
      let e := entryWith b r.1 r.2.1
      let s := s.reportUnits { src := 0x104 } r.2.2
      let s := if as.any fun a => regionOf a != Region.hbm then s.refusedAt 0x104 (s.fd .cxlSteprec 0 0 0 44) else s
      s.modEbb 0 fun x => { x with entry := some e.1, srm := e.2, srecDue := false }

/-- A die at the job-wide word of a step. -/
def State.ebbWord (s : State) (e step : Nat) (word : W64) : State :=
  let skip := gateOverflow word
  let own := s.fd .ebbStep e 0 0 48
  let s := s.setF .ebbStep e 0 0 48 (own + 1)
  let s := s.tideGate e skip step
  let s := if skip then s else s.tideCommit e
  let staged := s.ebbState e == 1
  let serve := staged && !skip && s.flag .ebbSnapcfg e 2 8 && (s.ebb e).snap.isNone
  let s := if e = 0 then
      (s.modEbb 0 fun x => { x with entry := some (s.strandEntry step word (!skip) serve) }).takeSrec
    else s
  let s := if serve then s.setF .ebbSnapstat e 0 49 1 1 else s
  if staged then
    (s.setEbbState e 2).modEbb e fun x =>
      { x with hold := true, step := step, wstep := own, commit := !skip, strand := true, passed := false,
               snap := if serve then some step else x.snap }
  else s

/-- Does a noise record still wait for the host (R392: it is in HBM before a completion mark is signalled). -/
def State.noiseDue (s : State) : Bool := s.bores.any fun b => b.2.noise.isSome

/-- STRANDLINE_WRITE (R303, R306, R554, R555): the entry goes to HBM; dies that skip the step end it. The
record of a step mismatch has an EVT that Table 18.6 does not state. -/
def execStrandlineWrite (s : State) : Ans :=
  let s := if (s.ebb 0).srecDue then s.takeSrec else s
  match (s.ebb 0).entry with
  | none => ok s
  | some b =>
    if (s.ebb 0).srecDue || s.noiseDue then ok s
    else
    let base := 0x7FFF000000 + 256 * (natAt b 96 6 % 65536)
    ok (s.accessing [] ((List.range 256).map (base + ·)) fun s =>
      let s := (s.writeAll (wholeWrites base b)).1
      let s := if (s.ebb 0).srm then
          let (w, s) := s.free
          s.ebbFault 0 (fld w 0 8) 0 0 0
        else s
      let s := s.modEbb 0 fun x => { x with entry := none, srm := false }
      [0, 1].foldl (fun s e =>
        let x := s.ebb e
        if !x.strand then s
        else if x.commit then s.modEbb e fun x => { x with strand := false }
        else if s.ebbState e = 2 then ((s.ebbMarks e).endHold e).ebbIdle e
        else (s.endHold e).modEbb e fun x => { x with strand := false }) s)

/-! ### The update pass (R304 to R308) -/

/-- Are the waits of a committed step over (R40, R41, R42). -/
def State.passReady (s : State) (e : Nat) : Bool :=
  let x := s.ebb e
  s.ebbState e == 2 && x.commit && !x.strand && !s.isStranded &&
    (!s.mirEn e || (x.mirror.isNone && x.mirDue.isNone)) &&
    (match x.snap with | none => true | some k => k == x.step)

/-- The addresses a pass reads and writes in the slow tier, and those it writes in HBM. -/
def State.passAddrs (s : State) (e : Nat) : List Nat × List Nat :=
  let gs := (s.segments e).map Prod.snd
  let run (a n : Nat) : List Nat := (List.range n).map (a + ·)
  (gs.flatMap fun g => run g.st (4 * g.n * (s.ruleHdr e g.rule).2.1) ++ run g.g (4 * g.n * (s.ruleHdr e g.rule).2.2),
   gs.flatMap fun g => if g.wen then run g.w g.wtotal else [])

/-- Has a pass that stopped read the last staged byte: that of its segment, and no later segment has any. -/
def State.stagedRead (s : State) (e : Nat) (p : PassStop) : Bool :=
  p.staged && (s.segments e).all fun g => decide (g.1 ≤ p.seg) || (s.ruleHdr e g.2.rule).2.2 == 0

/-- EBB_SNAPSTAT.BUSY after a copy has ended or is dropped: a swap may still be pending (Table 9.24). -/
def State.snapDone (s : State) (e : Nat) : State :=
  s.setF .ebbSnapstat e 0 49 1 (b2n ((s.ebb e).snap.isSome || (s.ebb e).swap.isSome))

/-- UPDATE_PASS (R40 to R42, R304, R308). -/
def execUpdatePass (die : Nat) (s : State) : Ans :=
  if die < 2 ∧ s.passReady die then
    let (sl, hb) := s.passAddrs die
    ok (s.accessing sl hb fun s =>
      let s := s.setEbbState die 3
      match State.passFrom die (s.ebb die).wstep (s.segments die) s with
      | (s, none) => (s.endHold die).modEbb die fun x => { x with passed := true }
      | (s, some p) =>
        let s := (s.setEbbState die 4).ebbRaise die 14 p.seg p.elem p.addr
        let s := (s.modEbb die fun x => { x with snap := none }).snapDone die
        if s.stagedRead die p then s.endHold die else s)
  else ok s

/-- PASS_COMPLETE (R306, R309): the marks; the mirror stream of the step falls due. -/
def execPassComplete (die : Nat) (s : State) : Ans :=
  if s.ebbState die = 3 ∧ (s.ebb die).passed ∧ !s.noiseDue then
    let due := s.mirEn die
    ok (((s.ebbMarks die).ebbIdle die).modEbb die fun x => { x with mirDue := if due then some x.step else none })
  else ok s

/-- A die in FAULT returns to IDLE; what it held is released, but for a skipped step only once the strandline entry is
written (R287, R308). -/
def State.clearFault (s : State) (e : Nat) : State :=
  if s.ebbState e ≠ 4 then s
  else if (s.ebb e).strand && !(s.ebb e).commit then (s.ebbIdle e).modEbb e fun x => { x with strand := true }
  else (s.endHold e).ebbIdle e

/-- CLRFLT (R308). -/
def execClrflt (a : Agent) (die : Nat) (s : State) : Ans := ok (s.gated a .ebbCtl die 0 fun s => s.clearFault die)

/-! ### Mirroring (R309 to R312, R611) -/

/-- The buddy port of a die. -/
def buddyPort (e : Nat) : Nat := 18 + e

/-- The units among addresses that fail, the first of them, and the addresses before it. -/
def State.upToBad (s : State) (a n : Nat) : List Byte × Option Nat :=
  match s.failsAt ((List.range n).map (a + ·)) with
  | [] => (s.bytes a n, none)
  | f :: _ => (s.bytes a (max f.1 a - a), some f.1)

/-- MIRROR_STREAM (R309, R611). -/
def execMirrorStream (die : Nat) (s : State) : Ans :=
  match (s.ebb die).mirDue with
  | none => ok s
  | some k =>
    if !s.mirEn die || (s.ebb die).mirror.isSome || !s.portUp (buddyPort die) || s.isStranded then ok s
    else
      let a := s.mirTxBase die
      let n := s.mirTxLen die
      ok (s.accessing ((List.range n).map (a + ·)) [] fun s =>
        let slot := 1 - s.fd .ebbMirstat die 0 48 1
        let r := s.upToBad a n
        let s := s.emit (.stream die 0 [s.coord, k, n, slot] r.1)
        match r.2 with
        | none =>
          (s.setF .ebbMirstat die 0 49 1 1).modEbb die fun x => { x with mirDue := none, mirror := some (k, slot), mirLate := false }
        | some u =>
          let s := s.reportUnit { src := 0x104 + die } (u, 5)
          let held := s.ebbState die == 2
          (((s.setF .ebbMirstat die 0 49 1 0).setEbbState die 4).ebbRaise die 14 0 0 u |>.modEbb die fun x =>
            { x with mirDue := none, snap := if held && x.snap == some x.step then none else x.snap }).snapDone die)

/-- The trailer of a slot or half (Table 9.7). -/
def slotTrailer (step len src crc : Nat) : List Byte :=
  leBytes 6 step ++ leBytes 5 len ++ leBytes 3 src ++ [1#8, 0#8] ++ leBytes 4 crc ++ List.replicate 44 0#8

/-- MIRROR_RECEIVE (R310, R312, R566): a stream from the buddy; one that ends before its length leaves its
slot without a trailer. -/
def execMirrorReceive (die src step len slot : Nat) (data : List Byte) (s : State) : Ans :=
  let size := s.mirSlot die
  if 2 ≤ die then ok s
  else if s.isStranded || src != s.mirBuddy die || decide (size < len + 64) then ok (s.emit (.streamAck die 0 step (slot % 2)))
  else
    let base := s.mirRxBase die + slot % 2 * size
    let tr := base + size - 64
    let body := data.take len
    ok (s.accessing [] ((List.range body.length).map (base + ·) ++ (List.range 64).map (tr + ·)) fun s =>
      let c : Ctx := { src := 0x104 + die }
      let r := s.land [.whole (tr + 14) 0#8]
      let s := r.1.reportUnits c r.2
      let r := s.land (wholeWrites base body)
      let s := r.1.reportUnits c r.2
      if body.length < len then s
      else (s.land (wholeWrites tr (slotTrailer step len src (crc32 body).toNat))).1.emit (.streamAck die 1 step (slot % 2)))

/-- MIRROR_ACK (R310): an acknowledgement, or the refusal of the stream. A stray one writes a record with an
EVT that Table 18.6 does not state. -/
def execMirrorAck (die step slot : Nat) (refused : Bool) (s : State) : Ans :=
  if refused then ok (if (s.ebb die).mirror.isSome then s.ebbRaise die 12 0 0 0 else s)
  else if (s.ebb die).mirror = some (step, slot) then
    let s := s.wr .ebbMirstat die 0 (BitVec.ofNat 64 (step % 2 ^ 48 + slot % 2 * 2 ^ 48 + 2 ^ 50))
    ok (s.modEbb die fun x => { x with mirror := none, mirLate := false })
  else
    let (w, s) := s.free
    ok (s.ebbFault die (fld w 0 8) 0 0 0)

/-- MIRROR_TIMEOUT (R311): `us` is how long the acknowledgement has been awaited. -/
def execMirrorTimeout (die us : Nat) (s : State) : Ans :=
  let lim := s.fd .ebbMirwd die 0 0 32
  if (s.ebb die).mirror.isSome ∧ !(s.ebb die).mirLate ∧ lim ≠ 0 ∧ lim < us then
    ok (((s.ebbRaise die 13 0 0 0).latchEbb die 0x20000).modEbb die fun x => { x with mirLate := true })
  else ok s

/-- EBB_MIRCFG.EN becomes 0 (R312): nothing is awaited any more, a stream is abandoned. -/
def State.mirrorOff (s : State) (e : Nat) : State :=
  ((s.setF .ebbMircfg e 3 24 1 0).setF .ebbMirstat e 0 49 1 0).modEbb e fun x => { x with mirDue := none, mirror := none, mirLate := false }

/-- MIRROR_DISABLE (R289, R312). -/
def execMirrorDisable (a : Agent) (die : Nat) (s : State) : Ans :=
  ok (s.gated a .ebbMircfg die 3 fun s => if s.mirEn die then s.mirrorOff die else s)

/-! ### Snapshots (R313, R314, R318) -/

/-- SNAPSHOT_REQUEST (R313). -/
def execSnapshotRequest (a : Agent) (die : Nat) (s : State) : Ans :=
  ok (s.gated a .ebbSnapcfg die 2 fun s => s.raise .ebbSnapcfg die 2 8)

/-- The state streams a snapshot copies: base and bytes of each (R313, R314). -/
def State.snapRuns (s : State) (e : Nat) : List (Nat × Nat) :=
  (s.segments e).flatMap fun g =>
    ((List.range 4).filter fun k => decide (k < (s.ruleHdr e g.2.rule).2.1) && s.flag .ebbSnapcfg e 2 k).map fun k =>
      (g.2.st + 4 * g.2.n * k, 4 * g.2.n)

/-- The other half becomes current. -/
def State.snapSwap (s : State) (e step : Nat) : State :=
  let cur := s.fd .ebbSnapstat e 0 48 1
  (s.wr .ebbSnapstat e 0 (BitVec.ofNat 64 (step % 2 ^ 48 + (1 - cur) * 2 ^ 48 + 2 ^ 50))).modEbb e fun x => { x with swap := none }

/-- Copy the streams of step `k` into the half that is not current. -/
def State.snapCopy (s : State) (e k : Nat) : State :=
  let runs := s.snapRuns e
  let h := 1 - s.fd .ebbSnapstat e 0 48 1
  let z := (runs.map Prod.snd).sum
  let s := (s.setF .ebbSnapcfg e 2 8 1 0).modEbb e fun x => { x with snap := none }
  if s.snapHalf e < z + 64 then ((s.ebbRaise e 15 0 0 0).latchEbb e 0x10000).snapDone e
  else
    let bad := runs.flatMap fun r => s.failsAt ((List.range r.2).map (r.1 + ·))
    if !bad.isEmpty then (s.reportUnits { src := 0x104 + e } (bad.take 1)).snapDone e
    else
      let body := runs.flatMap fun r => s.bytes r.1 r.2
      let r := s.land (wholeWrites (s.snapBase e h) (body ++ slotTrailer k z s.coord (crc32 body).toNat))
      let s := (r.1.reportUnits { src := 0x104 + e } r.2).modEbb e fun x =>
        { x with len0 := if h = 0 then z else x.len0, len1 := if h = 1 then z else x.len1 }
      if s.flag .ebbExpstat e 0 49 then (s.setF .ebbSnapstat e 0 49 1 1).modEbb e fun x => { x with swap := some k }
      else s.snapSwap e k

/-- SNAPSHOT_COPY (R313, R314): after the pass of the step that serves the request. -/
def execSnapshotCopy (die : Nat) (s : State) : Ans :=
  match (s.ebb die).snap with
  | none => ok s
  | some k =>
    let before := (s.ebbState die == 2 || s.ebbState die == 3) && (s.ebb die).step == k
    if before || s.isStranded then ok s
    else
      let reads := (s.snapRuns die).flatMap fun r => (List.range r.2).map (r.1 + ·)
      let h := 1 - s.fd .ebbSnapstat die 0 48 1
      let writes := (List.range ((s.snapRuns die).map Prod.snd).sum).map (s.snapBase die h + ·)
      ok (s.accessing reads writes fun s => s.snapCopy die k)

/-- SNAPSHOT_SWAP (R313, R318). -/
def execSnapshotSwap (die : Nat) (s : State) : Ans :=
  match (s.ebb die).swap with
  | some k => ok (if s.flag .ebbExpstat die 0 49 then s else s.snapSwap die k)
  | none => ok s

/-! ### Exports (R315 to R318) -/

/-- EBB_EXPSTAT.ERR with its record. -/
def State.exportErr (s : State) (e : Nat) : State := (s.raise .ebbExpstat e 0 51).ebbFault e 0x93 0 0 0

/-- The export in progress fails or ends without an acknowledgement (R317, R318). -/
def State.exportFail (s : State) (e : Nat) : State :=
  ((s.setF .ebbExpstat e 0 49 1 0).modEbb e fun x => { x with exportTag := none, exportOut := [] }).exportErr e

/-- The packets of an image at `base` of `total` bytes (R316). -/
def State.exportPackets (s : State) (e tag base total : Nat) : List Packet :=
  (List.range (cdiv total 4096)).map fun i =>
    let n := min 4096 (total - 4096 * i)
    { route := 0#64, addr := 4096 * i, tlen := total, plen := n, xid := tag, src := s.coord, sagt := 0x104 + e,
      dom := s.domain, gen := 0, kind := 9, last := decide (total ≤ 4096 * (i + 1)), rmv := false, rcore := 0, rmark := 0,
      status := 0, hop := 0, segi := 0, dl := false, data := s.bytes (base + 4096 * i) n }

/-- Hand export packets to their port while it has nothing of them waiting: at most `k`. -/
def State.exportPump (s : State) (e : Nat) : Nat → State
  | 0 => s
  | k + 1 =>
    let p := 16 + s.fd .ebbExpstat e 0 52 1
    match (s.ebb e).exportOut with
    | [] => s
    | q :: t =>
      if (s.port p).wait.any (fun f => f.vc == 0) || s.domain == 0 then s
      else ((s.modEbb e fun x => { x with exportOut := t }).sendPacket p 0 q).exportPump e k

/-- EBB_EXPCTL.START (R315, R316); a chip without a domain injects nothing (R363). -/
def State.exportStart (s : State) (e : Nat) : State :=
  let port := s.fd .ebbExpctl e 0 4 1
  let h := s.fd .ebbSnapstat e 0 48 1
  if s.flag .ebbExpstat e 0 49 || !s.flag .ebbSnapstat e 0 50 || !s.portUp (16 + port) || s.isStranded || s.domain = 0 then s.exportErr e
  else
    let tag := s.fd .ebbExpctl e 0 16 16
    let base := s.snapBase e h
    let z := if h = 0 then (s.ebb e).len0 else (s.ebb e).len1
    let total := natAt (s.bytes (base + z) 64) 6 5 + 64
    let s := s.wr .ebbExpstat e 0 (BitVec.ofNat 64 (s.fd .ebbSnapstat e 0 0 48 + 2 ^ 49 + port * 2 ^ 52 + h * 2 ^ 53))
    match s.failsAt ((List.range total).map (base + ·)) with
    | f :: _ => (s.reportUnit { src := 0x104 + e } f).exportFail e
    | [] =>
      let ks := s.exportPackets e tag base total
      (s.modEbb e fun x => { x with exportTag := some tag, exportOut := ks }).exportPump e ks.length

/-- EBB_EXPCTL.ABORT (R318). -/
def State.exportAbort (s : State) (e : Nat) : State := if s.flag .ebbExpstat e 0 49 then s.exportFail e else s

/-- A write of EBB_EXPCTL: the fields, then ABORT, then START. -/
def State.expctlWrite (s : State) (e : Nat) (v : W64) : State :=
  let s := (s.setF .ebbExpctl e 0 16 16 (fld v 16 16)).setF .ebbExpctl e 0 4 1 (fld v 4 1)
  let s := if bit v 1 then s.exportAbort e else s
  if bit v 0 then s.exportStart e else s

/-- EXPORT_START (R315): EBB_EXPCTL written with PORT, XTAG and START. -/
def execExportStart (a : Agent) (die v : Nat) (s : State) : Ans :=
  ok (s.gated a .ebbExpctl die 0 fun s => s.expctlWrite die ((BitVec.ofNat 64 v &&& ~~~2#64) ||| 1#64))

/-- EXPORT_ABORT (R318): EBB_EXPCTL.ABORT. -/
def execExportAbort (a : Agent) (die : Nat) (s : State) : Ans :=
  ok (s.gated a .ebbExpctl die 0 fun s => s.exportAbort die)

/-- EXPORT_ACKNOWLEDGEMENT (R317): packet `i` of those that wait. One for no export writes a record with an EVT
that Table 18.6 does not state. -/
def execExportAck (i : Nat) (s : State) : Ans :=
  match s.takeInbox i [10] with
  | none => ok s
  | some (k, s) =>
    match [0, 1].find? fun e => (s.ebb e).exportTag == some k.xid with
    | none =>
      let (w, s) := s.free
      ok (s.ebbFault 0 (fld w 0 8) 0 0 0)
    | some e =>
      if k.status = 0 then
        ok (((s.setF .ebbExpstat e 0 49 1 0).raise .ebbExpstat e 0 50).modEbb e fun x => { x with exportTag := none, exportOut := [] })
      else ok (s.exportFail e)

/-- EXPORT_TIMEOUT (R317): `us` since the last packet was sent. -/
def execExportTimeout (die us : Nat) (s : State) : Ans :=
  if (s.ebb die).exportTag.isSome ∧ (s.ebb die).exportOut.isEmpty ∧ s.fd .rteXcfg 0 0 32 32 ≤ us then ok (s.exportFail die)
  else ok s

/-! ### Restores (R561, R562, R576) -/

/-- EBB_RESTORE.ERR, with a record when one is due. -/
def State.restoreErr (s : State) (e seg pos addr : Nat) : State := (s.raise .ebbRestore e 0 7).ebbFault e 0x47 seg pos addr

/-- A refused write (R289, R576). -/
def State.writeRefused (s : State) (e : Nat) : State := s.ebbRaise e 11 0 0 0

/-- EBB_RESTORE.SEND (R561): the image of a slot, if it is complete. -/
def State.restoreSend (s : State) (e slot : Nat) : State :=
  let size := s.mirSlot e
  let base := s.mirRxBase e + slot * size
  let tr := s.bytes (base + size - 64) 64
  let len := natAt tr 6 5
  if size < 64 ∨ size < len + 64 ∨ natAt tr 14 1 ≠ 1 then s.raise .ebbRestore e 0 7
  else
    let bad := s.failsAt ((List.range len).map (base + ·) ++ (List.range 64).map (base + size - 64 + ·))
    let body := s.bytes base len
    if !bad.isEmpty then (s.reportUnits { src := 0x104 + e } bad).raise .ebbRestore e 0 7
    else if (crc32 body).toNat ≠ natAt tr 16 4 ∨ !s.portUp (buddyPort e) ∨ s.isStranded then s.raise .ebbRestore e 0 7
    else s.emit (.stream e 1 [s.coord, natAt tr 0 6, len, natAt tr 16 4] body)

/-- EBB_RESTORE.BUILD for the segments with WEN, in order (R562). -/
def State.buildFrom (e step : Nat) : List (Nat × SegEnt) → State → State
  | [], s => s.raise .ebbRestore e 0 6
  | (i, g) :: t, s =>
    if !g.wen then buildFrom e step t s
    else
      match s.segRec e g step with
      | .inr (a, st) => (if st = 8 then s else s.reportUnit { src := 0x104 + e } (a, st)).restoreErr e i 0 a
      | .inl sc =>
        match s.failsAt ((List.range (4 * g.n)).map (g.st + ·)) with
        | f :: _ =>
          let k := (max f.1 g.st - g.st) / 4
          let s := s.reportUnit { src := 0x104 + e } f
          let r := s.writeWeights e g step sc ((List.range k).map fun j => s.word32 (g.st + 4 * j))
          (r.1.weightEvents e r.2.1).restoreErr e i k f.1
        | [] =>
          let r := s.writeWeights e g step sc ((List.range g.n).map fun j => s.word32 (g.st + 4 * j))
          let s := r.1.weightEvents e r.2.1
          match r.2.2 with
          | some x => s.restoreErr e i x.1 x.2.1
          | none => buildFrom e step t s

/-- EBB_RESTORE.BUILD (R562). -/
def State.restoreBuild (s : State) (e : Nat) : State :=
  let s := s.setF .ebbRestore e 0 6 1 0
  State.buildFrom e (s.fd .ebbRestore e 0 16 48) (s.segments e) s

/-- A write of EBB_RESTORE (R576): in IDLE alone; its fields, then SEND, then BUILD. -/
def State.restoreWrite (s : State) (e : Nat) (fields : W64) (v : W64) : State :=
  if s.ebbState e ≠ 0 then s.writeRefused e
  else
    let s := s.wr .ebbRestore e 0 fields
    let s := if bit v 0 then s.restoreSend e (s.fd .ebbRestore e 0 4 1) else s
    if bit v 1 then s.restoreBuild e else s

/-- The addresses a build reads and writes. -/
def State.buildAddrs (s : State) (e : Nat) : List Nat × List Nat :=
  let gs := ((s.segments e).map Prod.snd).filter (·.wen)
  (gs.flatMap fun g => (List.range (4 * g.n)).map (g.st + ·), gs.flatMap fun g => (List.range g.wtotal).map (g.w + ·))

/-- RESTORE_SEND (R561). -/
def execRestoreSend (a : Agent) (die slot : Nat) (s : State) : Ans :=
  ok (s.gated a .ebbRestore die 0 fun s => s.restoreWrite die (setFld (s.rd .ebbRestore die 0) 4 1 slot) 1#64)

/-- RESTORE_BUILD (R562). -/
def execRestoreBuild (a : Agent) (die : Nat) (s : State) : Ans :=
  ok (s.gated a .ebbRestore die 0 fun s =>
    if s.ebbState die ≠ 0 then s.writeRefused die
    else s.accessing (s.buildAddrs die).1 (s.buildAddrs die).2 fun s => s.restoreWrite die (s.rd .ebbRestore die 0) 2#64)

/-- RESTORE_RECEIVE (R561): a restore stream from the buddy. -/
def execRestoreReceive (die src step len crc : Nat) (data : List Byte) (s : State) : Ans :=
  if 2 ≤ die then ok s
  else if !s.flag .ebbRestore die 0 5 || s.ebbState die != 0 || s.fd .ebbStgcnt die 0 0 40 != 0 || src != s.mirBuddy die ||
      decide (s.mirTxLen die < len) || s.isStranded then
    ok (s.restoreErr die 0 0 0)
  else
    let base := s.mirTxBase die
    let body := data.take len
    let _ := step
    ok (s.accessing [] ((List.range body.length).map (base + ·)) fun s =>
      let r := (s.setF .ebbRestore die 0 6 1 0).land (wholeWrites base body)
      let s := r.1.reportUnits { src := 0x104 + die } r.2
      if body.length = len ∧ (crc32 body).toNat = crc ∧ r.2.isEmpty then
        (s.setF .ebbRestore die 0 6 1 1).setF .ebbRestore die 0 5 1 0
      else s.restoreErr die 0 0 base)

/-! ### Other writes of the Ebb block -/

/-- EBB_RULECHK (R297). -/
def State.rulechk (s : State) (e p : Nat) : State := s.setF .ebbRuleval e 0 p 1 (b2n (s.ruleOk e p))

/-- RULECHK (R297). -/
def execRulechk (a : Agent) (die v : Nat) (s : State) : Ans := ok (s.gated a .ebbRulechk die 0 fun s => s.rulechk die (v % 8))

/-- A write of TIDE_LSCFG (R279). -/
def State.lscfgWrite (s : State) (e : Nat) (v : W64) : State :=
  let emax := toSigned 8 (fld v 24 8)
  let emin := toSigned 8 (fld v 16 8)
  if emax < emin ∨ emin < -126 ∨ 126 < emax then s.raise .tideLsevt e 0 2 else s.wr .tideLscfg e 0 (BitVec.ofNat 64 (fld v 0 32))

/-- TIDE_LSCFG (R279). -/
def execTideLscfg (a : Agent) (die v : Nat) (s : State) : Ans :=
  ok (s.gated a .tideLscfg die 0 fun s => s.lscfgWrite die (BitVec.ofNat 64 v))

/-- A write of TIDE_LSCALE.ENEXT: the nearest value within EMIN to EMAX; SNEXT is its power of two (R279). -/
def State.enextWrite (s : State) (e : Nat) (v : W64) : State :=
  let cfg := s.rd .tideLscfg e 0
  let en := max (toSigned 8 (fld cfg 16 8)) (min (toSigned 8 (fld cfg 24 8)) (toSigned 8 (fld v 0 8)))
  (s.setF .tideLscale e 0 0 8 (en + 256).toNat).setF .tideLscale e 0 32 32 (pow2 en).toNat

/-- Is an FP32 value from 0 to just below 1.0. -/
def unit32 (v : Nat) : Bool := decide (v < 0x3F800000) || v == 0x80000000

/-- Would a value of a schedule register be refused (R301). -/
def scheduleBad (r : Reg) (v : W64) : Bool :=
  match r with
  | .tideCfg => decide (3 < fld v 0 3)
  | .tideLen => fld v 0 32 == 0
  | .tideLr => fld v 23 8 == 255 || fld v 55 8 == 255
  | .tideBeta => !unit32 (fld v 0 32) || !unit32 (fld v 32 32)
  | _ => false

/-- The registers that R289 guards. -/
def ebbGuarded (r : Reg) : Bool :=
  [Reg.ebbSeg, .ebbSegcnt, .ebbRule, .ebbHset, .ebbStgbase, .ebbStglen, .ebbStep, .ebbMircfg, .ebbSnapcfg, .ebbHeadroom,
   .tideCfg, .tideWarm, .tideLen, .tideLr, .tideBeta].contains r

/-- A write of an agent that may reach it to a word of the Ebb block (R279, R289, R297, R301, R308, R312, R313,
R315, R318, R561, R562, R576). -/
def State.ebbWrite (s : State) (a : Agent) (h : Hit) (size : Nat) (v : W64) : State :=
  let e := h.n
  let s' := (s.plainWrite a h size v).1
  let w := (s.wordAfter a h size v).1
  let guarded := (s.ebb e).checked && ebbGuarded h.r
  let old := s.rd h.r e h.i
  match h.r with
  | .ebbMircfg =>
    let clears := h.i == 3 && bit old 24 && !bit w 24
    if guarded && !(clears && w ==  setBit old 24 false) then s.writeRefused e
    else if clears then s'.mirrorOff e else s'
  | .ebbSnapcfg =>
    if guarded then
      let s := if h.i = 2 then s.setF .ebbSnapcfg e 2 8 1 (fld w 8 1) else s
      if h.i = 2 ∧ w = setFld old 8 1 (fld w 8 1) then s else s.writeRefused e
    else s'
  | .ebbRule => if guarded then s.writeRefused e else s'.setF .ebbRuleval e 0 (h.i / 64) 1 0
  | .ebbCtl => if bit v 0 then s.clearFault e else s
  | .ebbRulechk => s.rulechk e (fld v 0 3)
  | .ebbExpctl => s.expctlWrite e v
  | .ebbRestore =>
    if bit v 1 ∧ s.ebbState e = 0 then s.accessing (s.buildAddrs e).1 (s.buildAddrs e).2 fun s => s.restoreWrite e w v
    else s.restoreWrite e w v
  | .tideLscfg => s.lscfgWrite e v
  | .tideLscale => if h.byte = 0 then s.enextWrite e v else s
  | _ =>
    if guarded then s.writeRefused e
    else if scheduleBad h.r w then s.raise .tideLsevt e 0 2
    else s'

/-- TIDE_SCHEDULE_WRITE (R289, R301): an access to the block of a die whose offset falls on a schedule register. -/
def execTideScheduleWrite (a : Agent) (die off size : Nat) (v : W64) (s : State) : Ans :=
  match [Reg.tideCfg, .tideWarm, .tideLen, .tideLr, .tideBeta].findSome? fun r => r.hit (0x2600000 + die * 0x20000 + off) with
  | none => ok s
  | some h => ok (s.gated a h.r die h.i fun s => s.ebbWrite a h size (v <<< (8 * h.byte)))

/-- EABORT (R558): dies in IDLE or STAGED are in IDLE, with nothing staged and nothing latched. -/
def State.eabort (s : State) : State :=
  [0, 1].foldl (fun s e =>
    if s.ebbState e < 2 then ((s.ebbIdle e).setF .ebbStgcnt e 0 0 40 0).modEbb e fun x => { x with latch := 0#64 } else s) s

/-- What a severance ends at a die (R566). -/
def State.ebbSever (s : State) (e : Nat) : State :=
  let s := (s.setF .ebbMirstat e 0 49 1 0).modEbb e fun x => { x with mirDue := none, mirror := none, snap := none, commit := false }
  if s.ebbState e = 3 then (s.endHold e).ebbIdle e else s

end Sys2Proof.Machine
end

