-- ==== Sys2Proof/Machine/Gate.lean ====
section
/-! DEFINITION. The slack-water gate (R396 to R407) and the recovery commands BABORT, GABORT and EABORT
(R558). -/

namespace Sys2Proof.Machine

/-! ### Gate words (Table 11.6) -/

/-- Two gate words combined: MIN and MAX fields, STAGED by MIN, the rest by OR. -/
def gateMeet (a b : W64) : W64 :=
  let f (lo : Nat) (g : Nat → Nat → Nat) : Nat := g (fld a lo 8) (fld b lo 8) * 2 ^ lo
  BitVec.ofNat 64 (f 56 min + f 48 min + f 40 max + f 32 max) ||| ((a &&& b) &&& 0x1000000#64) |||
    ((a ||| b) &&& 0xFEFFFFFF#64)

/-- The word of a core: operand, latch, STAGED (R397). -/
def coreWord (v lat : W64) : W64 := (v &&& 0xFFFFFFFF00F0E0E0#64) ||| (lat &&& 0xF0F#64) ||| 0x1000000#64

/-- The job step counter of the chip (R402). -/
def State.jobStep (s : State) : Nat := s.fd .coreStep 0 0 0 48

/-- The collector accepts a core's word (R397): the latch is taken and cleared. -/
def State.gateAccept (s : State) (n : Nat) (v : W64) : State :=
  let w := coreWord v (s.core n).gateLat
  let s := s.modCore n fun c => { c with gateLat := 0#64 }
  let s : State := { s with gate := { s.gate with words := Sparse.set 0#64 s.gate.words n w } }
  let s := s.setF .gateStat 0 0 16 9 (s.fd .gateStat 0 0 16 9 + 1)
  if s.fd .gateStat 0 0 0 2 = 0 then s.setF .gateStat 0 0 0 2 1 else s

/-- Has the collector accepted the core's word of this step. -/
def State.gateHas (s : State) (n : Nat) : Bool := Sparse.get 0#64 s.gate.words n != 0#64

/-- GCONT (R219, R397 to R399). -/
def execGcont (n : Nat) (s : State) : Ans :=
  ok (startOp s n 8 0x75 fun s f =>
    if !s.flag .gateCfg 0 0 0 then (s, some (refuse s 1))
    else if s.gateHas n then (s, none)
    else (s, some (refuse (s.gateAccept n (vAt f.slots 0)) 0)))

/-- The GCONT of a core that waits for the collector. -/
def State.gcontWaiting (s : State) (n : Nat) : Option Flight :=
  (s.core n).flights.find? fun f => f.ecls == 8 && f.opcode == 0x75 && f.phase == .started

/-! ### Phases (R401, R402) -/

/-- Hops a member sends its input in a direction. -/
def gateHops (d m p l : Nat) : Nat := if p = l then spanOf p d else if d = 0 then p - 1 - m else m

/-- The gate message of a member in a direction. -/
def State.gatePacket (s : State) (a d m : Nat) : Packet :=
  { route := BitVec.ofNat 64 (2 + 4 + d * 256 + a * 512), addr := m * 2 ^ 35 + d * 2 ^ 41 + a * 2 ^ 42, tlen := 16, plen := 16,
    xid := 0, src := s.coord, sagt := 0x100 + a, dom := s.domain, gen := s.genNow, kind := 8, last := false, rmv := false,
    rcore := 0, rmark := 0, status := 0, hop := 0, segi := 0, dl := false,
    data := leBytes 8 s.gate.input.toNat ++ leBytes 6 s.jobStep ++ leBytes 2 0 }

/-- Queue a gate message ahead of data (R402) and send what credits allow. -/
def State.gateSend (s : State) (a d : Nat) (k : Packet) : State :=
  let s := s.modBore a fun b =>
    let g := b.held.takeWhile fun (e : Nat × Packet) => e.2.kind == 8
    { b with held := g ++ (d, k) :: b.held.drop g.length }
  s.borePump a ((s.bore a).backlog + 1)

/-- Start the phase of an axis; one whose axis breaks R374 does not start. -/
def State.gateStart (s : State) (a : Nat) : State :=
  let s := s.setF .gateStat 0 0 2 2 a
  match s.member a with
  | none => s.raise .gateStat 0 0 10
  | some (m, p, l) =>
    [0, 1].foldl (fun s d => if gateHops d m p l = 0 then s else s.gateSend a d (s.gatePacket a d m)) s

/-- The inputs that have reached a member in a phase of this step. -/
def State.gateInputs (s : State) (a : Nat) : List GateMsg :=
  s.gate.msgs.filter fun g => g.phase == a && g.step == s.jobStep

/-- Complete every phase whose inputs are all there: at most `k`. -/
def State.gateSettle (s : State) : Nat → State
  | 0 => s
  | k + 1 =>
    if s.fd .gateStat 0 0 0 2 ≠ 2 ∨ s.gate.complete then s
    else
      let a := s.fd .gateStat 0 0 2 2
      match s.member a with
      | none => s
      | some (m, p, _) =>
        let ms := s.gateInputs a
        if ((List.range p).filter (· != m)).all fun o => ms.any fun g => g.origin == o then
          let w := ms.foldl (fun (w : W64) g => gateMeet w g.word) s.gate.input
          let s : State := { s with gate := { s.gate with input := w, msgs := s.gate.msgs.filter fun g => !(g.phase == a && g.step == s.jobStep) } }
          if a = 3 then { s with gate := { s.gate with complete := true } } else (s.gateStart (a + 1)).gateSettle k
        else s

/-- Is any HBM stack at a throttle level above 0: HTHR is set in every such cc (R435). -/
def State.throttled (s : State) : Bool := (List.range 8).any fun k => s.fd .hbmTemp k 0 16 2 != 0

/-- CHIP_CONTRIBUTION (R35, R400). -/
def execChipContribution (s : State) : Ans :=
  let g := s.gate
  if s.flag .gateCfg 0 0 0 && s.fd .gateStat 0 0 0 2 == 1 && !s.isStranded && (List.range 256).all s.gateHas &&
      [0, 1].all (fun e => Sparse.get 0#64 g.ebb e != 0#64) then
    let chip : W64 := BitVec.ofNat 64 (b2n g.hlink * 2 ^ 19 + b2n (g.hthr || s.throttled) * 2 ^ 18)
    let w := ((g.words ++ g.ebb).map Prod.snd).foldl gateMeet (0xFFFF000001000000#64 ||| chip)
    let s : State := { s with gate := { g with hlink := false, hthr := s.throttled, input := w } }
    let s := (s.wr .gateContrib 0 0 w).setF .gateStat 0 0 0 2 2
    ok ((s.gateStart 0).gateSettle 8)
  else ok s

/-- GATE_MESSAGE (R401 to R403, R376, R399, R558): packet `i` of those that wait. -/
def execGateMessage (i : Nat) (s : State) : Ans :=
  match s.takeInbox i [8] with
  | none => ok s
  | some (k, s1) =>
    let phase := k.addr / 2 ^ 42 % 4
    let d := k.addr / 2 ^ 41 % 2
    let o := k.addr / 2 ^ 35 % 64
    let step := natAt k.data 8 6
    let s1 := s1.returnCredit phase d 256
    if (s.gate.filter && k.gen != s.genNow) || !s.flag .gateCfg 0 0 0 then ok s1
    else match s.member phase with
      | none => ok s
      | some (m, p, l) =>
        let now := s.jobStep
        let dist := if d = 0 then (m + p - o) % p else (o + p - m) % p
        let onward (s : State) : State := if dist < gateHops d o p l then s.gateSend phase d k else s
        let seen := s.gate.msgs.any fun g => g.phase == phase && g.origin == o && g.step == step
        let keep (s : State) : State :=
          if seen then s else { s with gate := { s.gate with msgs := s.gate.msgs ++ [⟨phase, o, step, BitVec.ofNat 64 (natAt k.data 0 8)⟩] } }
        if step = now then ok ((onward (keep s1)).gateSettle 8)
        else if step = (now + 1) % 2 ^ 48 then ok (onward (keep s1))
        else if (step + 1) % 2 ^ 48 = now then ok (onward s1)
        else
          ok ((s1.raise .gateStat 0 0 9).fault (boreRec 0x89 (0x100 + phase) 0 0 0 0 (2 ^ o) phase))

/-- The collector starts a new step. -/
def State.gateClear (s : State) (step : Nat) : State :=
  let s : State := { s with gate := { s.gate with words := [], ebb := [], input := 0#64, complete := false, reported := false,
                                                  msgs := s.gate.msgs.filter fun g => g.step == step } }
  (s.setF .gateStat 0 0 0 4 0).setF .gateStat 0 0 14 11 0

/-- JOB_WIDE_GATE_WORD (R168, R303, R392, R398, R406). -/
def execJobWideGateWord (s : State) : Ans :=
  if !s.gate.complete then ok s
  else
    let w := s.gate.input
    let step := s.jobStep
    let s := (s.wr .gateWord 0 0 w).setF .gateStep 0 0 0 48 step
    let s := (List.range 256).foldl (fun s n => s.setF .coreStep n 0 0 48 (s.fd .coreStep n 0 0 48 + 1)) s
    let s := (s.ebbWord 0 step w).ebbWord 1 step w
    let s := (List.range 4).foldl (fun s a => s.noiseRecord a step) s
    let s := s.gateClear ((step + 1) % 2 ^ 48)
    ok ((List.range 256).foldl (fun s n =>
      match s.gcontWaiting n with
      | some f => (s.gateAccept n (vAt f.slots 0)).doneFlight n f.fid
      | none => s) s)

/-! ### Watchdog, disable, abort -/

/-- The origin members whose messages a phase lacks, as a bit mask. -/
def State.gateAwaited (s : State) : Nat :=
  if s.fd .gateStat 0 0 0 2 ≠ 2 then 0
  else
    let a := s.fd .gateStat 0 0 2 2
    match s.member a with
    | none => 0
    | some (m, p, _) =>
      (((List.range p).filter fun o => o != m && !(s.gateInputs a).any fun g => g.origin == o).map (2 ^ ·)).sum

/-- GATE_WATCHDOG (R407): `us` since the first contribution of the step; reported once for a step. -/
def execGateWatchdog (us : Nat) (s : State) : Ans :=
  let lim := s.fd .gateWdog 0 0 0 32
  if s.fd .gateStat 0 0 0 2 ≠ 0 ∧ !s.gate.reported ∧ lim ≠ 0 ∧ lim < us then
    let ph := s.fd .gateStat 0 0 2 2
    let m := s.gateAwaited
    let s : State := { s with gate := { s.gate with reported := true } }
    ok (((s.raise .gateStat 0 0 8).fault (boreRec 0x88 (0x100 + ph) 0 0 0 0 m ph)).emit (.mgmt 8 [ph, m]))
  else ok s

/-- The collector is reset (R399, R558): contributions and held messages are discarded, those that wait for a credit too, the
cores' and the chip's latches cleared, waiting GCONTs end with ADDR. -/
def State.gateReset (s : State) : State :=
  let s := (List.range 4).foldl (fun s a => s.modBore a fun b => { b with held := b.held.filter fun (e : Nat × Packet) => e.2.kind != 8 }) s
  let s : State := { s with gate := { s.gate with hlink := false, hthr := s.throttled, msgs := [] } }
  let s := s.gateClear 0
  (List.range 256).foldl (fun s n =>
    let s := s.modCore n fun c => { c with gateLat := 0#64 }
    match s.gcontWaiting n with
    | some f => (s.noteFlight n f.fid 1 0).doneFlight n f.fid
    | none => s) s

/-- GATE_CFG.EN becomes 0 (R399). -/
def State.gateOff (s : State) : State :=
  if s.flag .gateCfg 0 0 0 then (s.setF .gateCfg 0 0 0 1 0).gateReset else s

/-- GATE_DISABLE (R399). -/
def execGateDisable (a : Agent) (s : State) : Ans := ok (s.gated a .gateCfg 0 0 fun s => s.gateOff)

/-- Is every core in STOP or IDLE (R558). -/
def State.quiet (s : State) : Bool :=
  (List.range 256).all fun n => s.fd .coreStat n 0 0 3 == 0 || s.fd .coreStat n 0 0 3 == 4

/-- A write of RCV_CTL (R558). -/
def State.rcvWrite (s : State) (v : Nat) : State :=
  if !s.quiet then s.raise .rcvStat 0 0 0
  else
    let s := if v.testBit 1 then s.babort else s
    let s := if v.testBit 2 then { s with gate := { s.gate with filter := true } }.gateReset else s
    if v.testBit 3 then s.eabort else s

/-- BABORT (R558). -/
def execBabort (a : Agent) (s : State) : Ans := ok (s.gated a .rcvCtl 0 0 fun s => s.rcvWrite 2)
/-- GABORT (R558). -/
def execGabort (a : Agent) (s : State) : Ans := ok (s.gated a .rcvCtl 0 0 fun s => s.rcvWrite 4)
/-- EABORT (R558). -/
def execEabort (a : Agent) (s : State) : Ans := ok (s.gated a .rcvCtl 0 0 fun s => s.rcvWrite 8)

end Sys2Proof.Machine
end

