-- ==== Sys2Proof/Machine/Rings.lean ====
section
/-! DEFINITION. Command rings and completion queues (R459 to R474, R477, R478): enables, doorbells, the
ring engine, patches and replay starts (R29, R143, R144, R174), and completions. -/

namespace Sys2Proof.Machine

/-! ### The host port's status -/

/-- SAGT of the CXL port (Table 10.6). -/
def hostAgt : Nat := 0x106

/-- Change the CXL port's configuration space and BAR4. -/
def State.modCxl (s : State) (f : CxlSt → CxlSt) : State := { s with cxl := f s.cxl }

/-- Send an MSI-X vector; one that the table masks becomes pending (Table 14.1). -/
def State.vector (s : State) (v : Nat) : State :=
  if s.cxl.conf.masked.contains v then s.modCxl fun c => { c with pba := (c.pba.erase v) ++ [v] } else s.emit (.msix v)

/-- Set a bit of CXL_STAT; vector 0 is sent when it changes from 0 to 1 (R473). -/
def State.cxlRaise (s : State) (k : Nat) : State :=
  if s.flag .cxlStat 0 0 k then s else (s.raise .cxlStat 0 0 k).vector 0

/-- A fault record of class 0x07: a ring or queue and an address (Table 18.6). -/
def State.cxlFault (s : State) (evt num addr : Nat) (status : Nat := 0) : State :=
  s.fault { cls := 7, evt := evt, src := hostAgt, status := status, detail := num % 2 ^ 16 + (addr % 2 ^ 48) * 2 ^ 16 }

/-- Do snoops and CXL.cache exist: 256 B flit mode (R451, R457). -/
def State.snooping (s : State) : Bool := decide (2 ≤ s.fd .cxlLinkstat 0 0 6 2)

/-- Are CXL.mem requests and BAR2 writes held until the scrubs of a power-up complete (R535). -/
def State.portHeld (s : State) : Bool := decide (s.sec < 4)

/-! ### Rings -/

/-- STATE of a ring: 0 OFF, 1 ACTIVE, 2 ERR. -/
def State.ringState (s : State) (r : Nat) : Nat := s.fd .cxlRingstat 0 r 32 2
/-- HEAD of a ring. -/
def State.ringHead (s : State) (r : Nat) : Nat := s.fd .cxlRingstat 0 r 0 16
/-- TAIL of a ring. -/
def State.ringTail (s : State) (r : Nat) : Nat := s.fd .cxlRingstat 0 r 16 16
/-- The context of a ring. -/
def State.ring (s : State) (r : Nat) : RingSt := Sparse.get {} s.rings r
/-- Replace the context of a ring. -/
def State.setRing (s : State) (r : Nat) (g : RingSt) : State := { s with rings := Sparse.set {} s.rings r g }

/-- Slots in a ring. -/
def RingSt.size (g : RingSt) : Nat := 2 ^ g.log2
/-- The address of the slot `k` after a position. -/
def RingSt.slotAddr (g : RingSt) (head k : Nat) : Nat := g.base + 64 * ((head + k) % g.size)
/-- The phase expected in the slot `k` after HEAD (R464). -/
def RingSt.slotPhase (g : RingSt) (head k : Nat) : Bool := if head + k < g.size then g.phase else !g.phase

/-- Pass HEAD over `k` slots. -/
def State.advanceHead (s : State) (r k : Nat) : State :=
  let g := s.ring r
  let h := s.ringHead r
  (s.setRing r { g with phase := g.slotPhase h k, taken := 0 }).setF .cxlRingstat 0 r 0 16 ((h + k) % g.size)

/-- Does a context's memory lie 4 KiB aligned in the general HBM region. -/
def ctxFits (base log2 : Nat) : Bool := decide (base % 4096 = 0 ∧ base + 64 * 2 ^ log2 ≤ 0x7FFF000000)

/-- The 256 bits of a context entry, if it can be read. -/
def State.ctxEntry (s : State) (a : Nat) : Option Nat :=
  if (regionOf a == .hbm || regionOf a == .strandline) && s.cellStatus a == 0 then some (leNat (s.bytes a 32)) else none

/-- A write of CXL_RINGCTL (R460, R461). -/
def State.ringCtl (s : State) (v : W64) : State :=
  let r := fld v 0 15
  if !bit v 31 then s.setF .cxlRingstat 0 r 32 2 0
  else if s.ringState r = 1 then s.cxlRaise 3
  else
    let a := s.fd .cxlRingbase 0 0 0 44 + 32 * r
    s.accessing [a] [] fun s =>
      let s := s.reportUnits { src := hostAgt } (s.failsAt [a])
      let good (x : Nat) : Bool :=
        x / 2 ^ 53 == 0 && x / 2 ^ 44 % 16 == 0 && decide (4 ≤ x / 2 ^ 48 % 32 ∧ x / 2 ^ 48 % 32 ≤ 16) &&
          ctxFits (x % 2 ^ 44) (x / 2 ^ 48 % 32)
      match s.ctxEntry a with
      | some x =>
        if good x then (s.setRing r { base := x % 2 ^ 44, log2 := x / 2 ^ 48 % 32 }).wr .cxlRingstat 0 r (BitVec.ofNat 64 (2 ^ 32))
        else ((s.setRing r {}).wr .cxlRingstat 0 r (BitVec.ofNat 64 (2 * 2 ^ 32))).cxlRaise 3
      | none => ((s.setRing r {}).wr .cxlRingstat 0 r (BitVec.ofNat 64 (2 * 2 ^ 32))).cxlRaise 3

/-- RING_ENABLE (R460). -/
def execRingEnable (a : Agent) (num : Nat) (s : State) : Ans :=
  ok (s.gated a .cxlRingctl 0 0 fun s => s.ringCtl (BitVec.ofNat 64 (2 ^ 31 + num % 2 ^ 15)))

/-- RING_DISABLE (R461). -/
def execRingDisable (a : Agent) (num : Nat) (s : State) : Ans :=
  ok (s.gated a .cxlRingctl 0 0 fun s => s.ringCtl (BitVec.ofNat 64 (num % 2 ^ 15)))

/-! ### Completion queues -/

/-- STATE of a queue: as a ring's, 3 ACTIVE and FULL. -/
def State.cqState (s : State) (q : Nat) : Nat := s.fd .cxlCqstat 0 q 32 2
/-- HEAD of a queue. -/
def State.cqHead (s : State) (q : Nat) : Nat := s.fd .cxlCqstat 0 q 16 16
/-- TAIL of a queue. -/
def State.cqTail (s : State) (q : Nat) : Nat := s.fd .cxlCqstat 0 q 0 16
/-- The context of a queue. -/
def State.cq (s : State) (q : Nat) : CqSt := Sparse.get {} s.cqs q
/-- Replace the context of a queue. -/
def State.setCq (s : State) (q : Nat) (c : CqSt) : State := { s with cqs := Sparse.set {} s.cqs q c }

/-- HEAD and TAIL of an ACTIVE queue; it is FULL when TAIL + 1 equals HEAD modulo its size (R472). -/
def State.setCqPtrs (s : State) (q head tail : Nat) : State :=
  let full := decide ((tail + 1) % 2 ^ (s.cq q).log2 = head)
  s.wr .cxlCqstat 0 q (BitVec.ofNat 64 ((if full then 3 else 1) * 2 ^ 32 + (head % 2 ^ 16) * 2 ^ 16 + tail % 2 ^ 16))

/-- A write of CXL_CQCTL (R460, R461). -/
def State.cqCtl (s : State) (v : W64) : State :=
  let q := fld v 0 12
  if !bit v 31 then s.setF .cxlCqstat 0 q 32 2 0
  else if s.cqState q % 2 = 1 then s.cxlRaise 3
  else
    let a := s.fd .cxlCqbase 0 0 0 44 + 32 * q
    s.accessing [a] [] fun s =>
      let s := s.reportUnits { src := hostAgt } (s.failsAt [a])
      let f (x lo len : Nat) : Nat := x / 2 ^ lo % 2 ^ len
      let good (x : Nat) : Bool :=
        f x 91 165 == 0 && f x 73 7 == 0 && f x 69 3 == 0 && f x 80 11 != 0 &&
          decide (4 ≤ f x 64 5 ∧ f x 64 5 ≤ 16 ∧ f x 0 64 % 4096 = 0) && (f x 72 1 == 1 || ctxFits (f x 0 64) (f x 64 5))
      let refused : State :=
        ((s.setCq q { intr := (s.cq q).intr, unseen := (s.cq q).unseen }).wr .cxlCqstat 0 q (BitVec.ofNat 64 (2 * 2 ^ 32))).cxlRaise 3
      match s.ctxEntry a with
      | some x =>
        if good x then
          (s.setCq q { (s.cq q) with base := f x 0 64, log2 := f x 64 5, host := f x 72 1 == 1, vec := f x 80 11,
                                     phase := true }).setCqPtrs q 0 0
        else refused
      | none => refused

/-- CQ_ENABLE (R460). -/
def execCqEnable (a : Agent) (num : Nat) (s : State) : Ans :=
  ok (s.gated a .cxlCqctl 0 0 fun s => s.cqCtl (BitVec.ofNat 64 (2 ^ 31 + num % 2 ^ 12)))

/-- CQ_DISABLE (R461). -/
def execCqDisable (a : Agent) (num : Nat) (s : State) : Ans :=
  ok (s.gated a .cxlCqctl 0 0 fun s => s.cqCtl (BitVec.ofNat 64 (num % 2 ^ 12)))

/-! ### Doorbells -/

/-- A ring doorbell (R463, R478): a TAIL behind the slots of the record that is taken leaves too many
slots pending. -/
def State.ringDoorbell (s : State) (r : Nat) (v : W64) : State :=
  if s.isStranded then s.count .cxlDbstr 0 0 0 32 1
  else
    let g := s.ring r
    let pend := (v.toNat + g.size - s.ringHead r) % g.size
    if s.ringState r ≠ 1 ∨ g.size ≤ v.toNat ∨ pend < g.taken then s.cxlRaise 0
    else s.setF .cxlRingstat 0 r 16 16 v.toNat

/-- A queue doorbell (R472). -/
def State.cqDoorbell (s : State) (q : Nat) (v : W64) : State :=
  if s.cqState q % 2 = 0 ∨ 2 ^ (s.cq q).log2 ≤ v.toNat then s.cxlRaise 0 else s.setCqPtrs q v.toNat (s.cqTail q)

/-- A write of CXL_DB by Shingle (R463): 8 B, bits [63:31] 0. -/
def State.cxlDbWrite (s : State) (size : Nat) (v : W64) : State :=
  if size ≠ 8 then s
  else if fld v 31 33 ≠ 0 then s.cxlRaise 0
  else s.ringDoorbell (fld v 16 15) (BitVec.ofNat 64 (fld v 0 16))

/-- A host write into BAR2 (Table 14.2, R452, R463, R535), which command `c` makes: lost while the link is down, held during
a power-up. -/
def State.bar2Write (s : State) (c : Instr) (off size : Nat) (v : W64) : State :=
  if !s.cxlUp then s
  else if s.portHeld then s.hold c
  else if s.ideMissing then s.cxlRaise 7
  else if size ≠ 8 ∨ off % 8 ≠ 0 then s.cxlRaise 1
  else if off < 0x40000 then s.ringDoorbell (off / 8) v
  else if off < 0x48000 then s.cqDoorbell ((off - 0x40000) / 8) v
  else s.cxlRaise 0

/-- DOORBELL (R463). -/
def execDoorbell (a : Agent) (off size : Nat) (v : W64) (s : State) : Ans :=
  match a with
  | .host => ok (s.bar2Write (.doorbell a off size v) off size v)
  | _ => ok (s.gated a .cxlDb 0 0 fun s => s.cxlDbWrite size v)

/-- CQ_HEAD_DOORBELL (R472). -/
def execCqHeadDoorbell (off size : Nat) (v : W64) (s : State) : Ans :=
  ok (s.bar2Write (.cqHeadDoorbell off size v) off size v)

/-! ### The ring engine -/

/-- What the ring engine finds at HEAD (R464). -/
inductive RingLook where
  | nothing
  | check (addr : Nat)
  | phase (addr : Nat)
  | slots (l : List (List Byte))
  deriving DecidableEq, Repr

/-- Slots of a record with this header (R462). -/
def slotsOf (hdr : List Byte) : Nat :=
  let w := natAt hdr 8 8
  1 + cdiv (w / 2 ^ 16 % 256 - 2) 3 + 2 * (w / 2 ^ 26 % 2)

/-- Read `k` slots from slot `i` after HEAD, each with its check and phase. -/
def State.readSlots (s : State) (g : RingSt) (head : Nat) : Nat → Nat → RingLook
  | _, 0 => .slots []
  | i, k + 1 =>
    let a := g.slotAddr head i
    let b := s.bytes a 64
    if s.cellStatus a ≠ 0 then .check a
    else if decide (128 ≤ natAt b 63 1) != g.slotPhase head i then .phase a
    else match s.readSlots g head (i + 1) k with
      | .slots l => .slots (b :: l)
      | x => x

/-- The record at HEAD of a ring: its slots, once the doorbells cover it and every phase matches. Every pending slot is read
and checked, of a record not yet covered too (R464). -/
def State.ringLook (s : State) (r : Nat) : RingLook :=
  let g := s.ring r
  let h := s.ringHead r
  let pend := (s.ringTail r + g.size - h) % g.size
  if s.ringState r ≠ 1 ∨ pend = 0 then .nothing
  else match s.readSlots g h 0 1 with
    | .slots [hdr] =>
      if pend < slotsOf hdr then
        match s.readSlots g h 0 pend with
        | .slots _ => .nothing
        | x => x
      else s.readSlots g h 0 (slotsOf hdr)
    | x => x

/-- The addresses that the ring engine reads to look at a ring: the pending slots of the record at HEAD. -/
def State.ringReads (s : State) (r : Nat) : List Nat :=
  let g := s.ring r
  let h := s.ringHead r
  let pend := (s.ringTail r + g.size - h) % g.size
  if s.ringState r ≠ 1 ∨ pend = 0 then []
  else (List.range (min pend (slotsOf (s.bytes (g.slotAddr h 0) 64)))).map (g.slotAddr h)

/-- The patches of a record: the header's two, then three in each continuation slot. -/
def patchBytes (npatch : Nat) (l : List (List Byte)) : List (List Byte) :=
  let area := sliceB (l.headD []) 16 32 ++ (l.drop 1).flatMap fun b => sliceB b 0 48
  (List.range npatch).map fun k => sliceB area (16 * k) 16

/-- Is a reserved field of a record not 0 (R466). -/
def recordBad (l : List (List Byte)) : Bool :=
  let w := natAt (l.headD []) 8 8
  w / 2 ^ 44 != 0 || w / 2 ^ 27 % 32 != 0 || w / 2 ^ 10 % 64 != 0 ||
    l.any (fun b => natAt b 48 15 != 0 || natAt b 63 1 % 128 != 0) ||
    (patchBytes (w / 2 ^ 16 % 256) l).any fun p => natAt p 9 7 != 0

/-- The record as taken. -/
def dispatchOf (r head : Nat) (l : List (List Byte)) : Dispatch :=
  let w := natAt (l.headD []) 8 8
  { ring := r, seq := natAt (l.headD []) 0 8, head := head, entry := w % 1024, cq := w / 2 ^ 32 % 4096,
    cmpl := w.testBit 24, intr := w.testBit 25,
    patches := (patchBytes (w / 2 ^ 16 % 256) l).map fun p => (natAt p 8 1, BitVec.ofNat 64 (natAt p 0 8)) }

/-- The 96 B step record of a record's last two slots, if it has one (R468). -/
def stepRecOf (l : List (List Byte)) : Option (List Byte) :=
  if (natAt (l.headD []) 8 8).testBit 26 then some ((l.drop (l.length - 2)).flatMap fun b => sliceB b 0 48) else none

/-- The ring engine takes an accepted record (R466 to R468). -/
def State.takeRecord (s : State) (r : Nat) (l : List (List Byte)) : State :=
  let n := r / 128
  let g := s.ring r
  let h := s.ringHead r
  let d := dispatchOf r ((h + l.length) % g.size) l
  if recordBad l then
    let (e, s) := s.free
    let (x, s) := s.free
    let s := s.cxlFault (fld e 0 8) r (g.slotAddr h 0) 12
    let s := s.advanceHead r l.length
    if d.cmpl then
      s.modCore n fun c =>
        { c with replays := c.replays ++ [⟨c.nextOrd, d, fld x 0 8, true, false, some (12, 0), false, true⟩],
                 nextOrd := c.nextOrd + 1 }
    else s
  else
    let srb := s.fd .cxlSteprec 0 0 0 44
    let s := match stepRecOf l with
      | some b =>
        if (regionOf srb == Region.hbm && regionOf (srb + 95) == Region.hbm) = true then
          let (s, fs) := s.writeAll (wholeWrites srb b)
          s.reportUnits { src := n } fs
        else s.refusedAt hostAgt srb
      | none => s
    (s.setRing r { g with taken := l.length }).updCore n fun c => { c with disp := some d, resumed := false }

/-- Has the core's wave left reset (R498). -/
def State.coreUp (s : State) (n : Nat) : Bool := decide (n % 8 < s.chip.waves)

/-- DISPATCH_RECORD (R143, R464 to R468, R478): the engine takes the record at HEAD of the ring for its
core, which has none waiting, if no lower ring of the core has one. A slot that fails its check makes the
ring ERR. -/
def execDispatchRecord (r : Nat) (s : State) : Ans :=
  let n := r / 128
  let c := s.core n
  let has (s : State) (q : Nat) : Bool := match s.ringLook q with
    | .slots _ => true
    | _ => false
  if s.isStranded || !s.coreUp n || c.disp.isSome || c.halted || s.flag .coreCtl n 0 0 || s.ringState r != 1 then ok s
  else
    let g := s.ring r
    let h := s.ringHead r
    if s.ringTail r = h then ok s
    else ok (s.accessing ((List.range (r % 128 + 1)).flatMap fun k => s.ringReads (n * 128 + k)) [] fun s =>
      if (List.range (r % 128)).any fun k => has s (n * 128 + k) then s
      else match s.ringLook r with
      | .slots l =>
        let srb := s.fd .cxlSteprec 0 0 0 44
        s.accessing ((List.range l.length).map (g.slotAddr h))
          (if (stepRecOf l).isSome && !recordBad l then (List.range 96).map (srb + ·) else []) fun s => s.takeRecord r l
      | .check a => (s.reportUnits { src := hostAgt } (s.failsAt [a])).setF .cxlRingstat 0 r 32 2 2
      | _ => s)

/-- PHASE_RETRY (R464): a slot whose phase still does not match after PHTO µs makes the ring ERR. -/
def execPhaseRetry (r waited : Nat) (s : State) : Ans :=
  let lim := s.fd .cxlRcfg 0 0 0 32
  if s.isStranded then ok s
  else ok (s.accessing (s.ringReads r) [] fun s =>
    match s.ringLook r with
    | .phase a =>
      if lim ≠ 0 ∧ lim ≤ waited then ((s.setF .cxlRingstat 0 r 32 2 2).cxlRaise 2).cxlFault 2 r a else s
    | _ => s)

/-- May the core of a record act on it: at a program boundary, not stopped, not in HALT (R143). -/
def State.atBoundary (s : State) (n : Nat) : Bool :=
  s.coreUp n && !(s.core n).running && !(s.core n).halted && !s.flag .coreCtl n 0 0

/-- PATCH_APPLY (R29, R143): the next patch of the record. -/
def execPatchApply (n : Nat) (s : State) : Ans :=
  match (s.core n).disp with
  | some d =>
    match d.patches with
    | p :: t =>
      if s.atBoundary n then
        ok ((s.wr .coreParam n p.1 p.2).updCore n fun c => { c with disp := some { d with patches := t }, resumed := false })
      else ok s
    | [] => ok s
  | none => ok s

/-- REPLAY_START (R143, R144, R174, R468): once the patches are applied. -/
def execReplayStart (n cc : Nat) (s : State) : Ans :=
  match (s.core n).disp with
  | some d =>
    if s.atBoundary n ∧ d.patches = [] then
      let idx := (s.rplIdx n + 1) % 256
      let s := s.setF .coreStat n 0 24 8 idx
      let s := s.advanceHead d.ring (s.ring d.ring).taken
      let hzw := s.flag .coreDbg n 0 0
      let s := s.updCore n fun c =>
        { c with running := true, half := s.fd .coreImstat n 0 0 1, pc := d.entry, base := cc, prevData := false,
                 prevCls := 0, prevCo := false, prevCc := cc, waiting := false, resumed := false,
                 waitReported := false, hzw := hzw, disp := none, cur := c.nextOrd, nextOrd := c.nextOrd + 1,
                 replays := c.replays ++ [⟨c.nextOrd, d, idx, false, false, none, false, false⟩] }
      ok (s.trace n .replay 0 0 0 0xFF 0 d.entry)
    else ok s
  | none => ok s

/-! ### Completions -/

/-- Is a replay finished (R145, R469). -/
def CoreSt.finished (c : CoreSt) (r : Replay) : Bool :=
  let own := c.flights.any fun f => f.replay == r.ord
  if r.refused then true
  else if r.halted then !own && (!c.halted || c.flights.isEmpty)
  else (r.stopped || r.ended) && !own

/-- Status and tag of a completion (R469). -/
def State.verdict (s : State) (n : Nat) (r : Replay) : Nat × Nat :=
  match r.fail with
  | some f => f
  | none =>
    if r.halted then (s.fd .coreHalt n 0 16 4, s.fd .coreHalt n 0 32 32) else if r.stopped then (14, 0) else (0, 0)

/-- The completion record of Table 14.6. -/
def State.cqRecord (s : State) (n : Nat) (r : Replay) : List Byte :=
  let v := s.verdict n r
  let ph := (s.cq r.disp.cq).phase
  leBytes 8 r.disp.seq ++ leBytes 2 (r.disp.ring % 2 ^ 15) ++ leBytes 2 r.disp.head ++
    leBytes 1 (v.1 % 16 + 128 * b2n ph) ++ leBytes 1 r.idx ++ leBytes 2 0 ++ leBytes 4 v.2 ++ leBytes 4 0 ++
    leBytes 6 (s.rd .clkTick 0 0).toNat ++ leBytes 2 0 ++ leBytes 6 (s.fd .coreStep n 0 0 48) ++ leBytes 26 0

/-- Forget a replay. -/
def State.dropReplay (s : State) (n : Nat) (r : Replay) : State :=
  s.modCore n fun c => { c with replays := c.replays.erase r }

/-- TAIL passes the record written, the phase inverts at a wrap, and a vector falls due (R473): with a write into host memory
once that is globally observed. -/
def State.cqWritten (s : State) (q : Nat) (intr : Bool) : State :=
  let c := s.cq q
  let t := (s.cqTail q + 1) % 2 ^ c.log2
  let s := s.setCq q { c with phase := if t = 0 then !c.phase else c.phase,
                              intr := if intr && !c.host then c.intr ++ [c.vec] else c.intr,
                              unseen := if intr && c.host then c.unseen ++ [c.vec] else c.unseen }
  s.setCqPtrs q (s.cqHead q) t

/-- Write the completion of replay `r` of core `n` (R461, R469 to R474). While CXL.cache does not exist, with the link down or
in 68 B flit mode (R451), one due in host memory is lost and counted (log entry 72). -/
def State.complete (s : State) (n : Nat) (r : Replay) : State :=
  let q := r.disp.cq
  let c := s.cq q
  let a := c.base + 64 * s.cqTail q
  match s.cqState q with
  | 1 =>
    if c.host then
      if s.cxlUp && s.snooping then (((s.emit (.hostWrite a (s.cqRecord n r))).cqWritten q r.disp.intr)).dropReplay n r
      else (s.count .cxlCqlost 0 0 0 32 1).dropReplay n r
    else s.accessing [] [a] fun s =>
      (((s.writeAll (wholeWrites a (s.cqRecord n r))).1).cqWritten q r.disp.intr).dropReplay n r
  | 3 => s
  | _ => ((s.cxlRaise 4).cxlFault 4 q 0).dropReplay n r

/-- COMPLETION_RECORD (R469 to R474): the completion of the earliest replay of core `n` that has one due,
once that replay is finished. -/
def execCompletionRecord (n : Nat) (s : State) : Ans :=
  let s := s.modCore n fun c => { c with replays := c.replays.filter fun r => r.disp.cmpl || !c.finished r }
  match (s.core n).replays.find? fun r => r.disp.cmpl with
  | some r => if (s.core n).finished r then ok (s.complete n r) else ok s
  | none => ok s

/-- The vectors of a queue whose completion write is acknowledged, once `acked` more writes into host memory are globally
observed (R473). -/
def CqSt.observed (c : CqSt) (acked : Nat) : CqSt :=
  { c with intr := c.intr ++ c.unseen.take acked, unseen := c.unseen.drop acked }

/-- MSI_X_INTERRUPT (R473): the oldest vector due for a queue. -/
def execMsix (q : Nat) (s : State) (acked : Nat := 0) : Ans :=
  let c := (s.cq q).observed acked
  match c.intr with
  | v :: t => ok ((s.setCq q { c with intr := t }).vector v)
  | [] => ok s

/-- Every ring and queue OFF, with its status cleared; nothing is taken any more (R477). -/
def State.ringsOff (s : State) : State :=
  let clear (r : Reg) (k : Nat) : Bool := (Nat.unpair k).1 == r.ctorIdx
  { s with rings := [], cqs := [],
           regs := Sparse.drop (fun k => clear .cxlRingstat k || clear .cxlCqstat k) s.regs }

end Sys2Proof.Machine
end

