-- ==== Sys2Proof/Machine/HostPort.lean ====
section
/-! DEFINITION. The host's memory accesses and the CXL port (R450 to R458, R474 to R476, R514, R535, R546). -/

namespace Sys2Proof.Machine

/-- The device address of a host physical address (R453): its distance from the base of the committed decoder. -/
def State.dpa (s : State) (hpa : Nat) : Option Nat :=
  match s.cxl.conf.hdm with
  | some b => if b ≤ hpa then some (hpa - b) else none
  | none => none

/-- What the link's FEC, CRC and retry make of a message from the host (Tables 14.1, 18.1): an error that is corrected is an AER
correctable error, but in 68 B flit mode is not reported; a message that is lost is an AER uncorrectable error and has no
effect. -/
def State.received (s : State) (e : LinkError) (act : State → State) : State :=
  match e with
  | .clean => act s
  | .corrected =>
    act (if s.snooping then (s.modCxl fun c => { c with aerCor := true }).emit (.cxl (.aer true)) else s)
  | .lost => (s.modCxl fun c => { c with aerUnc := true }).emit (.cxl (.aer false))

/-- A CXL.mem request of command `c`, with what the link makes of it: lost while the link is down, held during a power-up and
while its memory is scrubbed or the memories are closed (R448, R523, R535), completed with an error for lack of IDE (R452). -/
def State.memRequest (s : State) (c : Instr) (e : LinkError) (hpa : Nat) (act : State → State) : State :=
  if !s.cxlUp then s
  else s.received e fun s =>
    if s.portHeld || s.chip.closed then s.hold c
    else if s.ideMissing then (s.cxlRaise 7).emit (.cxl (.err hpa))
    else if ((s.dpa hpa).map s.scrubbing).getD false then s.hold c
    else act s

/-- How the host holds the unit from now on: 0 not at all, 1 shared, 2 possibly modified. -/
def State.hostKeeps (s : State) (u keep : Nat) : State :=
  if s.snooping then { s with snoop := Sparse.set 0 s.snoop u keep } else s

/-- Entries of the snoop filter (R457). -/
def snoopSize : Nat := 512 * 1024

/-- Grant the host unit `u` by `act`, which command `c` asks for. A full filter first frees an entry by BISnpInv, in an order the
device does not state; the grant waits for it (R458). -/
def State.granting (s : State) (c : Instr) (u keep : Nat) (act : State → State) : State :=
  if s.snooping && keep != 0 && s.hostHolds u == 0 && decide (snoopSize ≤ s.snoop.length) then
    let s := if s.biOut.isEmpty then
        let (w, s) := s.free
        s.snoopUnit 1 ((s.snoop.map Prod.fst).getD (w.toNat % snoopSize) 0)
      else s
    s.hold c
  else act s

/-- HOST_MEM_READ (R453 to R455, R458, R475): `keep` says how the host will hold the unit. A request that no committed decoder
takes has no device address in HBM (log entry 72). -/
def execHostMemRead (hpa keep : Nat) (s : State) (e : LinkError := .clean) : Ans :=
  ok (s.memRequest (.hostMemRead hpa keep .clean) e hpa fun s =>
    let addr := (s.dpa hpa).getD hpa
    let u := addr / 64 * 64
    if (s.dpa hpa).isSome && (regionOf u == .hbm || regionOf u == .strandline) then
      s.granting (.hostMemRead hpa keep .clean) u keep fun s =>
        let fs := s.failsAt [u]
        let s := s.reportUnits { src := hostAgt } fs
        let s := if fs.isEmpty then s else (s.cxlRaise 6).modCxl fun c => { c with ras := c.ras ++ [u] }
        let s := if keep = 0 then s else s.hostKeeps u keep
        s.emit (.cxl (.memData u (s.bytes u 64) (!fs.isEmpty)))
    else
      let s := ((s.cxlRaise 5).cxlRaise 6).cxlFault 5 0 addr
      let (bs, s) := s.freeBytes 8
      s.emit (.cxl (.memData u bs true)))

/-- A host write of some bytes of a unit (R423, R427, R453, R454, R456, R458); `c` is the command, to be repeated if it must
wait for a snoop. -/
def State.hostWrite (s : State) (c : Instr) (hpa : Nat) (mask : W64) (data : List Byte) (keep : Nat) : State :=
  let addr := (s.dpa hpa).getD hpa
  let u := addr / 64 * 64
  if (s.dpa hpa).isSome && regionOf u == Region.hbm then
    s.granting c u keep fun s =>
      let ws := ((List.range 64).filter fun i => bit mask i).map fun i => MWrite.whole (u + i) (data.getD i 0#8)
      let (s, fs) := s.writeAll ws
      ((s.reportUnits { src := hostAgt } fs).hostKeeps u keep).emit (.cxl (.cmp u))
  else ((s.cxlRaise 5).cxlFault 5 0 addr).emit (.cxl (.cmp u))

/-- HOST_MEM_WRITE (R453, R454): the whole unit; `keep` says how the host holds it afterwards. -/
def execHostMemWrite (hpa : Nat) (data : List Byte) (keep : Nat) (s : State) (e : LinkError := .clean) : Ans :=
  ok (s.memRequest (.hostMemWrite hpa data keep .clean) e hpa fun s =>
    s.hostWrite (.hostMemWrite hpa data keep .clean) hpa (BitVec.allOnes 64) data keep)

/-- MEMWRPTL (R456): the bytes the mask selects. -/
def execMemWrPtl (hpa : Nat) (mask : W64) (data : List Byte) (keep : Nat) (s : State) (e : LinkError := .clean) : Ans :=
  ok (s.memRequest (.memWrPtl hpa mask data keep .clean) e hpa fun s =>
    s.hostWrite (.memWrPtl hpa mask data keep .clean) hpa mask data keep)

/-- H2D_SNOOP (R450): the device holds no host lines. CXL.cache exists in 256 B flit mode alone (R451). -/
def execH2dSnoop (addr : Nat) (s : State) (e : LinkError := .clean) : Ans :=
  if s.cxlUp && s.snooping then ok (s.received e fun s => s.emit (.cxl (.rspIHitI addr))) else ok s

/-- Is a command a request of the host over the link. -/
def fromHost : Instr → Bool
  | .hostMemRead _ _ _ | .hostMemWrite _ _ _ _ | .memWrPtl _ _ _ _ _ | .cqHeadDoorbell _ _ _ => true
  | .doorbell a _ _ _ => a == .host
  | _ => false

/-- The link is down: nothing is trained and IDE is not active (Table 14.8, R546). What was asked of the
host, what it held and the requests of it that were held are gone with it. -/
def State.cxlDown (s : State) : State :=
  let was := s.cxlUp
  let s := { (s.wr .cxlLinkstat 0 0 0#64) with
    snoop := [], biOut := [], held := s.held.filter fun c => !fromHost c, chip := { s.chip with ideSess := none } }
  if was then s.cxlRaise 8 else s

/-- CXL_LINK_DOWN (R474). -/
def execCxlLinkDown (s : State) : Ans := ok s.cxlDown

/-- CXL_PORT_RESET (R546): only the port, with its configuration space and BAR4. -/
def execCxlPortReset (s : State) : Ans := ok { s.cxlDown with cxl := {} }

/-- What the host configures takes effect: pending vectors that the table no longer masks are sent. -/
def State.configure (s : State) (conf : CxlConf) : State :=
  let go := s.cxl.pba.filter fun v => !conf.masked.contains v
  let s := s.modCxl fun c => { c with conf := conf, pba := c.pba.filter fun v => conf.masked.contains v }
  go.foldl (fun s v => s.emit (.msix v)) s

/-- CXL_LINK_UP (R450, R451, R535): the port trains once the fabric domain has power, at a mode, rate and
width of Table 14.1; `conf` is what the host then configures (log entry 72). -/
def execCxlLinkUp (flit rate width : Nat) (s : State) (conf : CxlConf := {}) : Ans :=
  if s.chip.domains = 0 ∨ flit = 0 ∨ 3 < flit ∨ rate = 0 ∨ 2 < rate ∨ (width ≠ 8 ∧ width ≠ 15) ∨
      (flit = 1 ∧ rate ≠ 1) then ok s
  else ok ((s.wr .cxlLinkstat 0 0 (BitVec.ofNat 64 (flit * 64 + rate * 16 + width))).configure conf)

/-- IDE is not active any more: its keys are destroyed (R523, R546, Table 16.3). -/
def State.ideEnd (s : State) : State :=
  { (s.setF .cxlLinkstat 0 0 8 2 0) with chip := { s.chip with ideSess := none } }

/-- IDE_KM (Table 14.1, R514): keys installed in an open SPDM session, for CXL.io (stream 0) or
CXL.cachemem (stream 1); that IDE is active from then on. -/
def execIdeKm (sess stream : Nat) (s : State) : Ans :=
  if s.cxlUp ∧ s.chip.sessions.contains (true, sess) then
    ok { (s.raise .cxlLinkstat 0 0 (8 + stream % 2)) with chip := { s.chip with ideSess := some sess } }
  else ok s

end Sys2Proof.Machine
end

