-- ==== Sys2Proof/Machine/Crypt.lean ====
section
/-! DEFINITION. HBM and the slow tier as they are stored (R429, R438, R444 to R446): keys, ciphertext and check codes.
`State.mem` holds what the stored bytes decrypt to. -/

namespace Sys2Proof.Machine

/-- The die that holds an address of HBM or the slow tier: base die 0 to 7, Ebb die 8 or 9 (R425, R445). -/
def dieOf (a : Nat) : Nat :=
  match regionOf a with
  | .slow e => 8 + e
  | _ => stackOf a

/-- The index of a unit among those of its die. -/
def unitIndex (a : Nat) : Nat :=
  match regionOf a with
  | .slow e => (a - (0x10000000000 + e * 0x4000000000)) / 64
  | _ => a / 2 ^ 15 * 64 + a / 64 % 64

/-- The XTS tweak of a unit: a[43:6] in 128 bits (R444). -/
def xtsTweak (a : Nat) : List Byte := leBytes 16 (a / 64 % 2 ^ 38)

/-- The key pair of a die. -/
def State.memKey (s : State) (d : Nat) : List Byte × List Byte := Sparse.get ([], []) s.chip.memKeys d

/-- The ciphertext that a unit stores (R444). -/
def State.ciphertext (s : State) (u : Nat) : List Byte :=
  let k := s.memKey (dieOf u)
  Config.xtsEncrypt k.1 k.2 (xtsTweak u) (s.bytes u 64)

/-- The 32-bit check code over a unit's ciphertext and local address (R429). R429 gives the code's properties and not the code;
DESIGN CHOICE: CRC-32 of the ciphertext, XOR the unit's index in its die (log entry 70). -/
def unitCode (ct : List Byte) (u : Nat) : W32 := crc32 ct ^^^ BitVec.ofNat 32 (unitIndex u)

/-- The check code stored with a unit. -/
def State.storedCode (s : State) (u : Nat) : W32 := unitCode (s.ciphertext u) u ^^^ BitVec.ofNat 32 (Sparse.get 0 s.bad u)

/-- New key pairs for the ten dies, from the random source (R445). -/
def State.newKeys (s : State) : State :=
  (List.range 10).foldl (fun s d =>
    let (a, s) := s.freeBytes 4
    let (b, s) := s.freeBytes 4
    { s with chip := { s.chip with memKeys := Sparse.set ([], []) s.chip.memKeys d (a, b) } }) s

/-- The memory keys are destroyed (Table 16.3). -/
def State.dropKeys (s : State) : State := { s with chip := { s.chip with memKeys := [] } }

end Sys2Proof.Machine
end

