-- ==== Sys2Proof/Machine/LinkEvents.lean ====
section
/-! DEFINITION. The link layer's events (R326 to R335, R364 to R370): codewords, flits as they arrive, frames,
and the states of a port. -/

namespace Sys2Proof.Machine

/-! ### Leaving UP (R370, R395, R317) -/

/-- The directions and exports that a lost port ends. -/
def State.afterLoss (s : State) (p : Nat) : State :=
  if p < 16 then
    if s.flag .lnkStat p 0 7 || !(s.portUp p || s.portUp (p / 2 * 2 + (1 - p % 2))) then s.boreLinkLost (p / 4) else s
  else if p < 18 then
    [0, 1].foldl (fun s e => if s.flag .ebbExpstat e 0 49 && s.fd .ebbExpstat e 0 52 1 == p - 16 then s.exportFail e else s) s
  else s

/-- A port takes a state in which it holds nothing to send: its packets are lost (R342, R370), and what it held
of the link is gone, but packets already received stay. -/
def State.portLeave (s : State) (p st : Nat) : State :=
  let was := s.linkState p == 5
  let lost := ((s.port p).packets.map fun (e : Nat × Nat × Packet) => e.2.2) ++ (s.port p).later.map Prod.snd
  let s := (s.setF .lnkStat p 0 0 3 st).modPort p fun t => { arrived := t.arrived }
  let s := lost.foldl (fun s k => s.dropPacket p k) s
  if was then s.latchHlink.afterLoss p else s

/-- A port fails (R370). -/
def State.portFail (s : State) (p : Nat) : State := s.portLeave p 6

/-! ### Receiving flits (R328 to R332) -/

/-- The link header of a flit. -/
structure LinkHdr where
  vc : Nat
  ft : Nat
  head : Bool
  tail : Bool
  seq : Nat
  ackVc : Nat
  ackV : Bool
  ackSeq : Nat
  crVc : Nat
  crCnt : Nat
  deriving DecidableEq, Repr

/-- Table 10.3. -/
def linkHdr (bs : List Byte) : LinkHdr :=
  let h := natAt bs 0 6
  let f (lo len : Nat) : Nat := h / 2 ^ lo % 2 ^ len
  ⟨f 0 3, f 3 2, f 5 1 == 1, f 6 1 == 1, f 7 12, f 19 3, f 22 1 == 1, f 23 12, f 35 3, f 38 5⟩

/-- Is the CRC of a flit correct (R328). -/
def flitCrcOk (bs : List Byte) : Bool := (crc32 (sliceB bs 0 60)).toNat == natAt bs 60 4

/-- Is sequence number `a` before `b` (modulo 4,096). -/
def seqBefore (a b : Nat) : Bool := decide (0 < (b + 4096 - a) % 4096 ∧ (b + 4096 - a) % 4096 ≤ 2048)

/-- Send a replay request (Table 10.4) and discard until it is answered (R330). -/
def State.askReplay (s : State) (p : Nat) : State :=
  let t := s.port p
  let body := (t.rxNext.zipIdx.map fun (e : Nat × Nat) => e.1 * 2 ^ (12 * e.2)).sum
  (s.modPort p fun t => { t with rxStall := true }).sendControl p 16 (leBytes 12 body)

/-- Flits that fail their CRC or sequence (R330); a stranded chip asks for no replay (R566). -/
def State.badFlits (s : State) (p k : Nat) : State :=
  let s := s.count .lnkCrcf p 0 0 32 k
  if (s.port p).rxStall || s.isStranded then s else s.askReplay p

/-- The acknowledgement and the credits of an accepted flit's header (R329, R332, R334). -/
def State.takeAcks (s : State) (p : Nat) (h : LinkHdr) : State :=
  let s := if h.ackV then s.modPort p fun t =>
      { t with unacked := t.unacked.filter fun f => !(f.vc == h.ackVc && seqBefore f.seq h.ackSeq),
               packets := t.packets.filter fun (e : Nat × Nat × Packet) => !(e.1 == h.ackVc && seqBefore e.2.1 h.ackSeq &&
                 !t.wait.any fun f => f.vc == e.1 && f.seq == e.2.1) }
    else s
  let s := s.modPort p fun t => { t with credits := t.credits.set h.crVc (min 288 (t.credits.getD h.crVc 0 + h.crCnt)) }
  let s := s.pump p
  if p = 16 ∨ p = 17 then
    [0, 1].foldl (fun s e => if s.fd .ebbExpstat e 0 52 1 = p - 16 then s.exportPump e (s.ebb e).exportOut.length else s) s
  else s

/-- Acknowledge what has been accepted on a VC, in a control flit of its own (R332). -/
def State.sendAck (s : State) (p vc : Nat) : State :=
  s.sendFlit p (flitBytes (8 + vc * 2 ^ 19 + 2 ^ 22 + ((s.port p).rxNext.getD vc 0) * 2 ^ 23) [])

/-- A data flit's body in order: packets are assembled. A buddy port's bytes belong to its Ebb die's streams, whose credits go
back at once; what reads there as a packet of KIND 0x9 or 0xA goes to the router, which discards it (R324). -/
def State.takeBody (s : State) (p : Nat) (f : TFlit) : State :=
  let s := if 18 ≤ p then s.sendControl p (8 + f.vc * 2 ^ 35 + 2 ^ 38) [] else s
  let old := if f.head then [] else (((s.port p).rxBody.find? fun (e : Nat × List Byte) => e.1 == f.vc).map Prod.snd).getD []
  let bs := old ++ f.body
  s.modPort p fun t =>
    let rest := t.rxBody.filter fun (e : Nat × List Byte) => e.1 != f.vc
    let k := pktOfBytes bs
    if !f.tail then { t with rxBody := rest ++ [(f.vc, bs)] }
    else if decide (p < 18) || k.kind == 9 || k.kind == 10 then { t with rxBody := rest, arrived := t.arrived ++ [(f.vc, k)] }
    else { t with rxBody := rest }

/-- A data or tag flit that passes CRC and sequence, to be treated by `act`; one that does not is discarded. A
stranded chip discards every one (R566). -/
def State.inOrder (s : State) (p : Nat) (bs : List Byte) (first : Bool) (act : State → LinkHdr → State) : State :=
  if s.isStranded || s.linkState p != 5 || ((s.port p).rxStall && !first) then s
  else
    let s := s.modPort p fun t => { t with rxStall := false, rxFlits := t.rxFlits.erase bs }
    let h := linkHdr bs
    let next := (s.port p).rxNext.getD h.vc 0
    if !flitCrcOk bs then s.badFlits p 1
    else if h.seq ≠ next then if seqBefore h.seq next then s else s.badFlits p 1
    else
      let s := s.modPort p fun t =>
        { t with rxNext := t.rxNext.set h.vc ((next + 1) % 4096),
                 rxSeen := if t.rxSeen.contains h.vc then t.rxSeen else t.rxSeen ++ [h.vc] }
      (act s h).takeAcks p h

/-- A data flit as received. -/
def rxFlit (h : LinkHdr) (bytes : List Byte) : TFlit :=
  ⟨h.vc, h.seq, h.ft, h.head, h.tail, natAt bytes 0 6 / 2 ^ 19, sliceB (bytes.drop 6) 0 54⟩

/-- DATA_FLIT (R328 to R332, R368): `first` says that it is the first flit replayed in answer to a request. -/
def execDataFlit (p : Nat) (bytes : List Byte) (first : Bool) (s : State) : Ans :=
  ok (s.inOrder p bytes first fun s h =>
    let f := rxFlit h bytes
    if s.linkEnc p then s.modPort p fun t => { t with rxFrame := t.rxFrame ++ [f] } else (s.takeBody p f).sendAck p h.vc)

/-- The flits of the open frame of a VC. -/
def PortSt.frame (t : PortSt) (vc : Nat) : List TFlit := t.rxFrame.filter fun f => f.vc == vc

/-- Does a tag verify the open frame of its VC (R368). -/
def PortSt.tagGood (t : PortSt) (vc : Nat) (bytes : List Byte) : Bool :=
  frameTag t.rxKey (frameIv t.rxSalt vc (t.rxCtr.getD vc 0)) (t.frame vc) == sliceB (bytes.drop 6) 0 16

/-- TAG_FLIT (R334, R368, R369): a tag that verifies passes its frame on and frees the slot of its own flit. -/
def execTagFlit (p : Nat) (head rest : List Byte) (first : Bool) (s : State) : Ans :=
  let bytes := head ++ rest
  ok (s.inOrder p bytes first fun s h =>
    let t := s.port p
    let fs := t.frame h.vc
    let c := t.rxCtr.getD h.vc 0
    let s := s.modPort p fun t => { t with rxFrame := t.rxFrame.filter fun f => f.vc != h.vc }
    if t.tagGood h.vc bytes then
      let s := s.modPort p fun t => { t with tagFails := 0, rxCtr := t.rxCtr.set h.vc (c + 1) }
      let s := s.sendControl p (8 + h.vc * 2 ^ 35 + 2 ^ 38) []
      (fs.zipIdx.foldl (fun s (e : TFlit × Nat) =>
        s.takeBody p { e.1 with body := sliceB (Config.gcmOpen t.rxKey (frameIv t.rxSalt h.vc c) (54 * e.2) e.1.body) 0 54 })
        s).sendAck p h.vc
    else
      let k := t.tagFails + 1
      let s := (s.count .lnkAuthf p 0 0 32 1).modPort p fun t =>
        { t with tagFails := k, rxNext := t.rxNext.set h.vc ((fs.head?.map (·.seq)).getD h.seq) }
      if k = 4 then (s.raise .lnkStat p 0 6).portFail p else s.askReplay p)

/-- CONTROL_FLIT (R332, R334, R370, R493, R566): acknowledgement, credits, and what the message says: the
neighbour's stranded flag, or the tick of a child, which is answered with its receipt and reply. -/
def execControlFlit (p : Nat) (bytes : List Byte) (note : LinkNote) (s : State) : Ans :=
  let st := s.linkState p
  if st < 2 ∨ 5 < st then ok s
  else if !flitCrcOk bytes then ok (if st = 5 then s.badFlits p 1 else s)
  else
    let s := s.modPort p fun t => { t with rxFlits := t.rxFlits.erase bytes }
    let s := match note with
      | .nothing => s
      | .tick t1 =>
        let now := (s.rd .clkTick 0 0).toNat
        if st = 5 then s.emit (.control p 4 [t1, now, now]) else s
      | .stranded b =>
        let was := s.portUp p
        let s := (s.setF .lnkStat p 0 7 1 (b2n b)).setF .lnkNbr p 0 48 1 (b2n b)
        if was && b then (s.shedPort p).afterLoss p else s
    ok (if st = 5 then s.takeAcks p (linkHdr bytes) else s)

/-- REPLAY_REQUEST (R331): `recent` counts the requests received within the last 1 ms, this one included. -/
def execReplayRequest (p : Nat) (bytes : List Byte) (recent : Nat) (s : State) : Ans :=
  if s.linkState p ≠ 5 ∨ s.isStranded then ok s
  else if !flitCrcOk bytes then ok (s.badFlits p 1)
  else
    let s := (s.count .lnkReplay p 0 0 32 1).modPort p fun t => { t with rxFlits := t.rxFlits.erase bytes }
    if s.fd .lnkCfg p 0 16 16 < recent then ok (s.portFail p)
    else
      let named (vc : Nat) : Nat := natAt bytes 6 12 / 2 ^ (12 * vc) % 4096
      let fs := (s.port p).unacked.filter fun f => !seqBefore f.seq (named f.vc)
      ok ((fs.foldl (fun s f => s.sendFlit p f.wire) s).takeAcks p (linkHdr bytes))

/-- CODEWORD (R326, R327): the symbols of the eight lanes, and the codeword that the decoder finds for them. If it is one, and
differs in at most 15 symbols (then no other does), its flits are passed on; else the ten flits fail. -/
def execCodeword (p : Nat) (lanes : List (List Nat)) (s : State) (found : List Nat := []) : Ans :=
  if s.linkState p = 0 ∨ s.linkState p = 6 then ok s
  else
    let errs := symbolErrors (ofLanes lanes) found
    if isCodeword found && decide (errs ≤ 15) then
      ok ((s.count .lnkFecsym p 0 0 32 errs).modPort p fun t => { t with rxCw := cwCounter found, rxFlits := cwFlits found })
    else
      let s := s.count .lnkUncor p 0 0 32 1
      ok (if s.linkState p = 5 then s.badFlits p 10 else s.count .lnkCrcf p 0 0 32 10)

/-- FRAME_CLOSE (R368): nothing to send on the VC for 16 flit times. -/
def execFrameClose (p vc : Nat) (s : State) : Ans :=
  if (s.port p).wait.any fun f => f.vc == vc then ok s else ok ((s.modPort p fun t => t.closeFrame vc).pump p)

/-! ### The states of a port (R364 to R370) -/

/-- LNK_CFG.EN as written. After a thermal trip the link PHY has no power (R501), and no port trains. -/
def State.linkEn (s : State) (p : Nat) (on : Bool) : State :=
  let s := s.setF .lnkCfg p 0 0 1 (b2n on)
  if on then if s.linkState p = 0 ∧ !s.chip.cut then s.setF .lnkStat p 0 0 3 1 else s
  else if s.linkState p = 0 then s else s.portLeave p 0

/-- LINK_ENABLE (R364, Table 10.11). -/
def execLinkEnable (a : Agent) (p : Nat) (on : Bool) (s : State) : Ans := ok (s.gated a .lnkCfg p 0 fun s => s.linkEn p on)

/-- May ports of these numbers face each other (R19, R322, R366). -/
def portsFace (p q : Nat) : Bool :=
  if p < 16 then q == p / 4 * 4 + (p % 4 + 2) % 4 else if p < 18 then true else q == p

/-- The identity comparison (R366). -/
def State.identCheck (s : State) (p : Nat) : State :=
  let nc := s.fd .lnkNbr p 0 0 24
  let np := s.fd .lnkNbr p 0 24 5
  if s.flag .lnkExpect p 0 63 && s.fd .lnkExpect p 0 24 24 == nc && s.fd .lnkExpect p 0 48 5 == np && portsFace p np then
    s.setF .lnkStat p 0 0 3 3
  else (s.raise .lnkStat p 0 4).setF .lnkStat p 0 0 3 4

/-- IDENT (R364 to R366): what the neighbour sends once the port has trained. -/
def execIdent (p coord port vmin vmax : Nat) (str : Bool) (s : State) : Ans :=
  if s.linkState p ≠ 1 ∧ s.linkState p ≠ 2 then ok s
  else
    let lo := s.fd .lnkVer p 0 0 8
    let hi := s.fd .lnkVer p 0 8 8
    let s := s.setF .lnkStat p 0 0 3 2
    let s := s.emit (.control p 1 [s.coord, p, lo, hi, b2n s.isStranded])
    let s := s.wr .lnkNbr p 0 (BitVec.ofNat 64 (coord % 2 ^ 24 + port % 32 * 2 ^ 24 + vmin % 256 * 2 ^ 32 + vmax % 256 * 2 ^ 40 + b2n str * 2 ^ 48))
    let s := s.setF .lnkStat p 0 7 1 (b2n str)
    let v := min hi (vmax % 256)
    if max lo (vmin % 256) ≤ v then ok ((s.setF .lnkVer p 0 16 8 v).identCheck p)
    else ok (((s.raise .lnkStat p 0 3).portLeave p 6).emit (.mgmt 10 [p]))

/-- The order of R367: x, y, z, w, port. -/
def keyxRank (coord port : Nat) : Nat :=
  ((((coord % 64) * 64 + coord / 64 % 64) * 64 + coord / 4096 % 64) * 64 + coord / 262144 % 64) * 32 + port % 32

/-- The identity message of an end (R364). -/
def identBytes (coord port vmin vmax str : Nat) : List Byte :=
  leBytes 8 (coord % 2 ^ 24 + port % 32 * 2 ^ 24 + vmin % 256 * 2 ^ 32 + vmax % 256 * 2 ^ 40 + str % 2 * 2 ^ 48)

/-- This end's part of a key agreement: is it the initiator, its public key and encapsulation key or ciphertext, the transcript
hash, its signature, and the secret both ends share (R367). -/
structure KeyxOut where
  initiator : Bool
  sent : List Byte
  hash : List Byte
  sig : List Byte
  secret : List Byte
  deriving DecidableEq, Repr

/-- The key agreement of port `p` with secrets `a` and `b` and the neighbour's public key and encapsulation key or ciphertext. -/
def State.keyAgreement (s : State) (p : Nat) (a b : W64) (pub kem : List Byte) : KeyxOut :=
  let nbr := (s.rd .lnkNbr p 0).toNat
  let own := identBytes s.coord p (s.fd .lnkVer p 0 0 8) (s.fd .lnkVer p 0 8 8) (b2n s.isStranded)
  let init := decide (keyxRank s.coord p < keyxRank (s.fd .lnkNbr p 0 0 24) (s.fd .lnkNbr p 0 24 5))
  let sent := Config.ecdhPublic a ++ if init then Config.kemPublic b else Config.kemCipher b kem
  let th := Config.sha384 (if init then own ++ leBytes 8 nbr ++ sent ++ pub ++ kem else leBytes 8 nbr ++ own ++ pub ++ kem ++ sent)
  ⟨init, sent, th, Config.linkSign th,
    Config.ecdhSecret a pub ++ if init then Config.kemDecaps b kem else Config.kemEncaps b kem⟩

/-- KEYX (R367, R513, R515): the neighbour's public key, its encapsulation key or ciphertext, its signature and its static
identity keys. The end with the lower coordinate and port initiates; each direction gets a key and a salt. Packets that waited
for new keys follow (R369). -/
def execKeyx (p : Nat) (pub kem : List Byte) (s : State) (sig idKey : List Byte := []) : Ans :=
  if s.linkState p ≠ 3 ∨ s.chip.rngBad then ok s
  else
    let (a, s) := s.free
    let (b, s) := s.free
    let k := s.keyAgreement p a b pub kem
    let s := (s.emit (.linkKey p k.sent)).emit (.linkKey p k.sig)
    let known := s.chip.fingers.find? fun (e : Nat × List Byte) => e.1 == s.fd .lnkExpect p 0 0 24
    if known.map Prod.snd == some (Config.sha384 idKey) && Config.linkVerify idKey k.hash sig then
      let ks := Config.hkdf384 k.hash k.secret
      let one := (sliceB ks 0 32, natAt ks 32 4)
      let two := (sliceB ks 36 32, natAt ks 68 4)
      let tx := if k.initiator then one else two
      let rx := if k.initiator then two else one
      let later := (s.port p).later
      let s := (s.setF .lnkStat p 0 0 3 5).modPort p fun t =>
        { arrived := t.arrived, txKey := tx.1, txSalt := tx.2, rxKey := rx.1, rxSalt := rx.2 }
      ok (later.foldl (fun s e => s.sendPacket p e.1 e.2) s)
    else ok ((s.raise .lnkStat p 0 5).portLeave p 6)

/-- LNK_EXPECT as written: in QUAR the comparison is made again (R366). -/
def State.expectWrite (s : State) (p : Nat) (w : W64) : State :=
  let s := s.wr .lnkExpect p 0 w
  if s.linkState p = 4 then s.identCheck p else s

/-- LINK_FAIL (R370): the port loses its link, to DOWN or to FAIL. -/
def execLinkFail (p : Nat) (down : Bool) (s : State) : Ans :=
  if s.linkState p = 0 then ok s else ok (s.portLeave p (if down then 0 else 6))

/-- LINK_RETRAIN (Table 10.11): 10 ms after a failure, while enabled. -/
def execLinkRetrain (p : Nat) (s : State) : Ans :=
  if s.linkState p = 6 ∧ s.flag .lnkCfg p 0 0 then ok (s.setF .lnkStat p 0 0 3 1) else ok s

end Sys2Proof.Machine
end

