-- ==== Sys2Proof/Machine/Power.lean ====
section
/-! DEFINITION. Clocks, the global tick, set points, power and temperature limits (chapter 15). -/

namespace Sys2Proof.Machine

/-- CLK_TICK. -/
def State.tick (s : State) : Nat := (s.rd .clkTick 0 0).toNat

/-! ### Set points (R484 to R488, R498, R500) -/

/-- The set point becomes 16 with no change pending (R498, R500). -/
def State.slowest (s : State) : State :=
  ((s.setF .clkSetpt 0 0 0 5 16).setF .clkSetpt 0 0 8 5 16).setF .clkSetpt 0 0 22 1 0

/-- SETPOINT_CHANGE (R484, R485, R500): a frame boundary, at which `settled` says that the voltage has reached what
a higher clock needs. -/
def execSetpointChange (settled : Bool) (s : State) : Ans :=
  let kreq := s.fd .clkSetpt 0 0 0 5
  let kcur := s.fd .clkSetpt 0 0 8 5
  let due := (s.rd .clkSetat 0 0).toNat
  let up := decide (kreq < kcur)
  if s.flag .clkSetpt 0 0 22 && decide (s.tick % 16 = 0 ∧ due ≤ s.tick) && (!up || settled) then
    let s := ((s.setF .clkSetpt 0 0 8 5 kreq).setF .clkSetpt 0 0 22 1 0).setF .clkSetpt 0 0 23 1 0
    ok (if up && decide (due < s.tick) then s.raise .clkSetpt 0 0 21 else s)
  else ok s

/-- A condition of the emergency set point: k becomes 16, a request accepted earlier is withdrawn, and management is alerted
(R499, R500). -/
def State.emergency (s : State) : State := ((s.slowest.raise .clkSetpt 0 0 23).raise .pwrStat 0 0 3).report 7 [3]

/-! ### Reference and stretching (R482, R489 to R491) -/

/-- REFCLK_LOSS (R482): holdover. -/
def execRefclkLoss (s : State) : Ans :=
  if s.flag .clkStat 0 0 0 then ok (((s.raise .clkStat 0 0 3).raise .clkStat 0 0 2).report 2 []) else ok s

/-- REFCLK_RETURN (R482): the PLL relocks. -/
def execRefclkReturn (s : State) : Ans := ok (s.setF .clkStat 0 0 2 1 0)

/-- CLOCK_STRETCH (R489): a detector sees the supply `mv` mV below nominal. -/
def execClockStretch (mv : Nat) (s : State) : Ans :=
  if s.chip.coreOn ∧ s.fd .clkDroop 0 0 0 8 ≤ mv then ok (s.count .clkStretch 0 0 0 32 1) else ok s

/-- STRETCH_WINDOW (R491): of the core cycles of a 1 ms window, how many were stretched. -/
def execStretchWindow (stretched cycles : Nat) (s : State) : Ans :=
  let s := s.setF .clkStrwin 0 0 0 16 (max (min stretched 0xFFFF) (s.fd .clkStrwin 0 0 0 16))
  ok (if cycles < 200 * stretched then (s.raise .clkStat 0 0 4).report 3 [] else s)

/-! ### The global tick (R492 to R496) -/

/-- The offset of an exchange in ticks; `up` rounds half a tick up. -/
def tickOffset (t1 t2 t3 t4 : Nat) (up : Bool) : Int :=
  (((t2 : Int) - t1) - ((t4 : Int) - t3) + (if up then 1 else 0)).fdiv 2

/-- The part of an exchange that follows from its offset (R494, R495). -/
def State.tickOutcome (s : State) (t4 : Nat) (off : Int) : State :=
  let ever := s.flag .clkTickstat 0 0 30
  let held : Int := max (-32767) (min 32767 off)
  let s := s.setF .clkTickstat 0 0 0 16 (BitVec.ofInt 16 held).toNat
  let good := if off.natAbs ≤ 1 then s.chip.goodEx + 1 else 0
  let s := s.modChip fun c => { c with goodEx := good, slew := if ever then off else 0 }
  let s := if ever then s else s.wr .clkTick 0 0 (BitVec.ofInt 64 (t4 + off))
  let s := if 4 ≤ good then (s.raise .clkTickstat 0 0 31).raise .clkTickstat 0 0 30 else s
  if ever && decide (64 < off.natAbs) then ((s.setF .clkTickstat 0 0 31 1 0).raise .clkTickstat 0 0 29).report 4 [] else s

/-- TICK_EXCHANGE (R493 to R495): a child with EN set sends its tick t1 on its parent port, or receives there the reply with
the parent's t2 and t3 to the tick it sent, at its own tick t4. -/
def execTickExchange (reply : Bool) (p t2 t3 : Nat) (s : State) : Ans :=
  if s.flag .clkTickcfg 0 0 31 && !s.flag .clkTickcfg 0 0 30 && p == s.fd .clkTickcfg 0 0 0 4 && s.portUp p then
    match reply, s.chip.tickSent with
    | false, _ => ok ((s.modChip fun c => { c with tickSent := some s.tick }).emit (.control p 4 [s.tick]))
    | true, some t1 =>
      let (w, s) := s.free
      let s := s.modChip fun c => { c with tickSent := none }
      ok (s.tickOutcome s.tick (tickOffset t1 t2 t3 s.tick (bit w 0)))
    | true, none => ok s
  else ok s

/-- TICK_SLEW (R494): one correction, at most one in 1,024 ticks. -/
def execTickSlew (s : State) : Ans :=
  let c := s.chip
  if s.flag .clkTickstat 0 0 30 && c.slew != 0 && decide (c.slewAt = 0 ∨ c.slewAt + 1024 ≤ s.tick) then
    let s := s.modChip fun c => { c with slewAt := s.tick, slew := c.slew - c.slew.sign, tickHold := decide (c.slew < 0) }
    ok (if 0 < c.slew then s.wr .clkTick 0 0 (s.rd .clkTick 0 0 + 1#64) else s)
  else ok s

/-! ### Power and temperature (R499 to R501) -/

/-- A condition of Table 15.5 holds: its PWR_STAT bit and an alert. -/
def State.limitHit (s : State) (k : Nat) (hit : Bool) : State := if hit then (s.raise .pwrStat 0 0 k).report 7 [k] else s

/-- POWER_SAMPLE (R499): the input power of the last 10 µs. Averages exist once enough samples do. -/
def execPowerSample (watts : Nat) (s : State) : Ans :=
  let ws := (watts :: s.chip.watts).take 100
  let s := s.modChip fun c => { c with watts := ws }
  let fast := (ws.take 10).sum
  let slow := ws.sum
  let s := if ws.length < 10 then s
    else s.setF .pwrMeas 0 0 16 16 (max (min (fast / 10) 0xFFFF) (s.fd .pwrMeas 0 0 16 16))
  let s := if ws.length < 100 then s else s.setF .pwrMeas 0 0 0 16 (min (slow / 100) 0xFFFF)
  let s := s.limitHit 0 (decide (ws.length = 100 ∧ 100 * s.fd .pwrCap 0 0 0 16 < slow))
  let peak := decide (10 ≤ ws.length ∧ 43000 < fast)
  let s := s.limitHit 1 peak
  ok (if peak then s.emergency else s)

/-- What the core domain holds is lost with its power (R111, R126, R225, R524). -/
def State.loseCore (s : State) : State :=
  let s : State := { s with
      mem := Sparse.drop inScratch s.mem, bad := Sparse.drop inScratch s.bad, acc := [], accBad := [],
      imBad := [], kern := [], kernBad := [], kernHdr := [], lanes := [], laneF := [], cores := [],
      chip := { s.chip with coreOn := false, waves := 0 } }
  let s := s.dropRegs fun r => r == .coreIm0 || r == .coreIm1 || r == .coreDesc || r == .coreParam || r == .trcMem
  (List.range 256).foldl (fun s n => s.sync n) s

/-- A thermal trip (R501): core, HBM, Ebb and link PHY domains lose power, the standby domain and the fabric do
not; a tenant switch in progress ends. -/
def State.thermalTrip (s : State) : State :=
  if s.chip.cut then s
  else
    let s := ((s.raise .pwrStat 0 0 4).report 7 [4]).loseCore
    let s := (List.range 20).foldl (fun s p => if s.linkState p = 0 then s else s.portLeave p 0) s
    let s : State := { s with
      mem := [], bad := [], cores := [], ebbs := [],
      chip := { s.chip with cut := true, trip := true, closed := true, keysWait := false, domains := min s.chip.domains 1 } }
    let s := s.dropKeys.wr .memScrub 0 0 0#64
    if s.sec = 6 then s.setF .secState 0 0 0 4 2 else s

/-- JUNCTION_SAMPLE (R499 to R501): the highest of the 64 junction sensors in this 10 µs. -/
def execJunctionSample (temp : Nat) (s : State) : Ans :=
  let t := min temp 255
  let s := (s.setF .pwrTemp 0 0 0 8 t).setF .pwrTemp 0 0 16 8 (max t (s.fd .pwrTemp 0 0 16 8))
  let s := s.limitHit 2 (decide (s.fd .pwrTemp 0 0 8 8 ≤ t))
  let hot := if s.flag .clkSetpt 0 0 23 ∧ 105 ≤ t then s.chip.hot + 1 else 0
  let s := s.modChip fun c => { c with hot := hot }
  let s := if 105 ≤ t then s.emergency else s
  ok (if 115 ≤ t ∨ 1000 ≤ hot then s.thermalTrip else s)

end Sys2Proof.Machine
end

