-- ==== Sys2Proof/Machine/Bringup.lean ====
section
/-! DEFINITION. Power-up and reset (chapter 17), the firmware image as the boot ROM checks it (R507 to R509), the
tenant switch (R523, R524), severance as an action (R566) and the self-test (R539 to R541). -/

namespace Sys2Proof.Machine

/-- Set SEC_STATE.STATE (Table 16.8). -/
def State.setSec (s : State) (x : Nat) : State := s.setF .secState 0 0 0 4 x

/-- A management request that is refused for the state it comes in, or because the chip has no owner. -/
def State.refuseReq (s : State) (code : Nat) : State := (s.raise .secEvt 0 0 5).report 1 [code]

/-- The chip's owner: a record that fails its HMAC is treated as absent (R521). -/
def Chip.anchor (c : Chip) : Option (List Byte) := if c.ownerDiff = 0 then c.owner else none

/-- A management request accepted in the listed states (Table 16.5), from an owner (R521). -/
def State.request (s : State) (code : Nat) (states : List Nat) (act : State → State) : State :=
  if s.chip.anchor.isSome && states.contains s.sec then act s else s.refuseReq code

/-! ### Severance (R565, R566) -/

/-- The stranded flag goes to every neighbour (R566, R568). -/
def State.announce (s : State) (flag : Nat) : State :=
  (List.range 20).foldl (fun s p => if s.linkState p = 5 then s.emit (.control p 3 [flag]) else s) s

/-- What Headland does on a severance request. -/
def State.sever (s : State) : State :=
  let s := (s.modChip fun c => { c with stranded := true }).setSec 7
  let s := (List.range 256).foldl (fun s n => s.stopSet n) s
  let s := ((s.announce 1).ebbSever 0).ebbSever 1
  s.gateOff.fault { cls := 9, evt := 0, src := 0x107 }

/-! ### What resets clear (Tables 16.6, 17.4) -/

/-- The registers that a tenant switch sets to their reset values (Table 16.6). -/
def switchResets (r : Reg) : Bool :=
  match r.info.blk with
  | .core | .trace | .ebb | .bore | .gate => true
  | .cxl => r != .cxlLinkstat && r != .cxlIdepol
  | .rte => r != .rteCoord && r != .rteDomain && r != .rteTransit
  | _ => r == .csrRefcnt || r == .csrRefaddr

/-- The registers that a main-power reset sets to their reset values (Table 17.4). -/
def mainResets (r : Reg) : Bool :=
  switchResets r ||
    match r.info.blk with
    | .rte => r != .rteCoord
    | .lnk => r != .lnkExpect
    | .hbm => r != .hbmThr
    | .slt | .scrub => true
    | .cxl => r == .cxlLinkstat
    | .cc => r == .tstCtl || r == .tstStat || r == .tstFailcore
    | _ => false

/-- The registers that a firmware reset sets to their reset values (Table 17.4). -/
def firmwareResets (r : Reg) : Bool :=
  mainResets r ||
    match r.info.blk with
    | .rte | .lnk | .hbm | .cxl => true
    | .clk => r != .clkTick && r != .clkTickcfg && r != .clkTickstat && r != .clkStat
    | _ => r == .csrLock

/-- Everything of the main domains that is not a register, without power (R524, R536). -/
def State.loseMain (s : State) : State :=
  let s : State := { s with
    mem := [], bad := [], acc := [], accBad := [], imBad := [], kern := [], kernBad := [], kernHdr := [], lanes := [],
    laneF := [], cores := [], rings := [], cqs := [], snoop := [], biOut := [], cxl := {}, held := [], ports := [], inbox := [], xfers := [],
    sources := [], bores := [], gate := {}, ebbs := [] }
  s.modChip fun c => { c with
    started := false, domains := 0, trained := false, cut := false, coreOn := false, waves := 0, closed := false,
    keysWait := false, sessions := [], handshakes := [], ideSess := none, signable := [], dbgNext := false,
    resetNext := false, readmit := false, cool := [], memKeys := [], tickSent := none }

/-- What survives a loss of standby power: fuses, flash and owner record. -/
def State.cold (s : State) : State :=
  { State.reset with
    chip := { toNonVolatile := s.chip.toNonVolatile },
    outbox := s.outbox, freeCtr := s.freeCtr, pending := s.pending }

/-- POWER_ON_RESET (R543, Table 17.4). -/
def execPowerOnReset (s : State) : Ans := ok s.cold

/-- STANDBY_POWER_LOSS (R595): nothing has power. -/
def execStandbyPowerLoss (s : State) : Ans := ok s.cold

/-- MAIN_POWER_RESET (R543, R545, Table 17.4): `pgFell` says that MAIN_PG fell, rather than the input leaving its
limits. -/
def execMainPowerReset (pgFell : Bool) (s : State) : Ans :=
  let ran := s.chip.started
  let s := (s.loseMain.dropRegs mainResets).modChip fun c => { c with mainPg := c.mainPg && !pgFell }
  let s := if 2 < s.sec then s.setSec 2 else s
  let s := ((s.setF .clkSetpt 0 0 0 5 16).setF .clkSetpt 0 0 8 5 16).setF .csrLock 0 0 1 1 0
  let s := (s.setF .rstStat 0 0 0 4 2).count .rstStat 0 0 8 8 1
  ok (if pgFell && ran then s.raise .rstStat 0 0 5 else s)

/-- A firmware reset (R544, Table 17.4). It is no recovery from a thermal trip (Table 17.3). -/
def State.firmwareReset (s : State) : State :=
  let cut := s.chip.cut
  let s := (s.loseMain.dropRegs firmwareResets).modChip fun c =>
    { c with cut := cut, dtls := 0, anchors := [], fingers := [], measured := ([], []), loaded := ([], []) }
  let s := s.wr .clkStat 0 0 (s.rd .clkStat 0 0 &&& 0x5#64)
  (s.wr .secState 0 0 (s.rd .secState 0 0 &&& 0xFF0100#64)).setF .rstStat 0 0 0 4 3

/-- FIRMWARE_RESET (R544): not in ROM; during a tenant switch it waits. -/
def execFirmwareReset (s : State) : Ans :=
  ok (s.request 1 [1, 2, 3, 4, 5, 6, 7] fun s =>
    if s.sec = 6 then s.modChip fun c => { c with resetNext := true } else s.firmwareReset)

/-! ### The standby domain and the image (R507 to R509, R529 to R531) -/

/-- STANDBY_RESET_RELEASE (R529, R597, R598): the strapped index is sampled and the fuses are read. -/
def execStandbyResetRelease (bidx : Nat) (parityFail : Bool) (s : State) : Ans :=
  if s.chip.released then ok s
  else
    let s := s.modChip fun c => { c with released := true, bidx := bidx % 16 }
    let s := s.setF .secState 0 0 16 8 s.chip.fuseSvn
    ok (if parityFail then (s.raise .rstStat 0 0 7).report 11 [] else s)

/-- PLL_LOCK (R530): the tick starts at 0. -/
def execPllLock (s : State) : Ans :=
  if s.chip.released ∧ !s.flag .clkStat 0 0 0 then ok ((s.raise .clkStat 0 0 0).wr .clkTick 0 0 0#64) else ok s

/-- Does a slot hold these public keys, unrevoked (R508, R512, R526). -/
def State.slotHolds (s : State) (slot : Nat) (rsaPub slhPub : List Byte) : Bool :=
  decide (slot < 4) && (Config.sha384 (rsaPub ++ slhPub) == Config.slotHash slot) && !s.chip.revoked.testBit slot

/-- The manifest is well formed (R507, R508). -/
def manifestOk (m : List Byte) : Bool :=
  natAt m 0 4 == 0x44574D46 && natAt m 4 2 == 1 && natAt m 114 14 == 0 && natAt m 512 4 == 0 &&
    decide (natAt m 112 1 ≤ natAt m 113 1) && decide (natAt m 8 4 ≤ 2 ^ 20) &&
    decide (natAt m 8 4 + natAt m 12 4 ≤ 40 * 2 ^ 20)

/-- The first check of R508 on the manifest that fails, as its bit of SEC_EVT. -/
def State.manifestFails (s : State) (m : List Byte) : Option Nat :=
  let body := sliceB m 0 564
  if !manifestOk m then some 0
  else if !s.slotHolds (natAt m 7 1) (sliceB m 128 384) (sliceB m 516 48) then some 1
  else if natAt m 6 1 < s.chip.fuseSvn then some 2
  else if !Config.rsaVerify (sliceB m 128 384) body (sliceB m 564 384) then some 3
  else if !Config.slhVerify (sliceB m 516 48) body (sliceB m 948 16224) then some 3
  else none

/-- Bytes of the manifest (Table 16.2). -/
def manifestSize : Nat := 17172

/-- The first check of R508 that a whole image fails. -/
def State.imageFails (s : State) (m : List Byte) : Option Nat :=
  match s.manifestFails m with
  | some k => some k
  | none =>
    let h := natAt m 8 4
    if Config.sha384 (sliceB m manifestSize h) == sliceB m 16 48 &&
        Config.sha384 (sliceB m (manifestSize + h) (natAt m 12 4)) == sliceB m 64 48 then none
    else some 4

/-- MGT_CRED from the owner record (R521, Table 16.11). -/
def State.showOwner (s : State) : State :=
  match s.chip.anchor with
  | some h => s.wr .mgtCred 0 0 (BitVec.ofNat 64 (2 ^ 48 + natAt h 0 6))
  | none => s.wr .mgtCred 0 0 0#64

/-- The image in flash runs (R531). -/
def State.loadImage (s : State) : State :=
  let m := s.chip.flash
  let s := (List.range 20).foldl (fun s p => (s.setF .lnkVer p 0 0 8 (natAt m 112 1)).setF .lnkVer p 0 8 8 (natAt m 113 1)) s
  let s := ((s.setSec 2).setF .secState 0 0 24 8 (natAt m 6 1)).setF .secState 0 0 12 2 (natAt m 7 1)
  let h := natAt m 8 4
  let s := s.modChip fun c => { c with
    measured := (sliceB m 16 48, sliceB m 64 48), aliasGone := false,
    loaded := (sliceB m manifestSize h, sliceB m (manifestSize + h) (natAt m 12 4)) }
  (s.raise .csrLock 0 0 0).showOwner

/-- IMAGE_VERIFIED (R508, R509, R531): the boot ROM ends its verification of the image in flash. -/
def execImageVerified (s : State) : Ans :=
  if s.sec = 0 ∧ s.chip.released ∧ s.flag .clkStat 0 0 0 ∧ !s.flag .rstStat 0 0 7 then
    match s.imageFails s.chip.flash with
    | some k => ok (((s.setSec 1).raise .secEvt 0 0 k).report 12 [k])
    | none => ok s.loadImage
  else ok s

/-! ### Main domains (R532 to R537) -/

/-- MAIN_PG (R532, R599): it rises after `lowMs` ms low. -/
def execMainPg (lowMs : Nat) (s : State) : Ans :=
  if s.chip.mainPg then ok s
  else ok (s.modChip fun c => { c with mainPg := true, trip := c.trip && decide (lowMs < 10) })

/-- MAIN_DOMAIN_START (R532): `ms` after the main domains may start. -/
def execMainDomainStart (ms : Nat) (s : State) : Ans :=
  let b := s.chip.bidx
  if s.chip.mainPg ∧ !s.chip.started ∧ s.sec = 2 ∧ b ≤ ms ∧ ms % 16 = b then
    let s := s.modChip fun c => { c with started := true }
    ok (if ms = b then s else s.raise .rstStat 0 0 4)
  else ok s

/-- DOMAIN_POWER_UP (R533): fabric, HBM, Ebb die 0, Ebb die 1, link PHY. -/
def execDomainPowerUp (s : State) : Ans :=
  if s.chip.started ∧ !s.chip.cut ∧ s.chip.domains < 5 then ok (s.modChip fun c => { c with domains := c.domains + 1 }) else ok s

/-- New memory keys, and every scrub starts (R445 to R447); a failed entropy source makes both wait (R513). -/
def State.startScrubs (s : State) : State :=
  if s.chip.rngBad then s.modChip fun c => { c with keysWait := true } else s.newKeys.wr .memScrub 0 0 0x6FF#64

/-- The core domain has power (R498). -/
def State.corePower (s : State) : State := s.slowest.modChip fun c => { c with coreOn := true, waves := 0 }

/-- MEMORY_TRAINING_COMPLETE (R534, R536). -/
def execMemoryTrainingComplete (failed : Bool) (s : State) : Ans :=
  if s.sec ≠ 2 ∨ s.chip.domains < 4 ∨ s.chip.trained then ok s
  else
    let s := s.modChip fun c => { c with trained := true }
    if failed then ok ((s.raise .rstStat 0 0 6).report 13 [])
    else
      let s := (s.setSec 3).count .secSession 0 0 0 32 1
      ok s.startScrubs.corePower

/-- The chip reaches READY, or STRANDED (R537), with the bank group unlocked (R588); a severance and a firmware reset that waited follow (R525, R544). -/
def State.enterReady (s : State) : State :=
  let s := (s.setSec (if s.chip.stranded then 7 else 4)).setF .csrLock 0 0 1 1 0
  let c := s.chip
  let s := s.modChip fun c => { c with severNext := false, resetNext := false }
  let s := if c.severNext then s.sever else s
  if c.resetNext then s.firmwareReset else s

/-! ### Tenant switch (R523, R524) and self-test results (R541, R568) -/

/-- Packets of the domain that is left do not wait at a port for new keys: only other domains' stay (R524). -/
def State.dropOld (s : State) (dom : Nat) : State :=
  (List.range 20).foldl (fun s p => s.modPort p fun t => { t with later := t.later.filter fun e => e.2.dom != dom }) s

/-- Step 1 of R523; every SPDM session ends (Table 17.4). -/
def State.tenantSwitch (s : State) : State :=
  let s := ((s.dropOld s.domain).setSec 6).setF .rteDomain 0 0 0 16 0
  let s := ((List.range 256).foldl (fun s n => s.stopSet n) s).ringsOff.ideEnd
  s.modChip fun c => { c with sessions := [], handshakes := [] }

/-- TENANT_SWITCH (R523, Table 16.5). -/
def execTenantSwitch (s : State) : Ans := ok (s.request 2 [4, 5, 7] State.tenantSwitch)

/-- Step 2 of R523: cores, Bores and Ebb dies are quiet. -/
def State.drained (s : State) : Bool :=
  (List.range 256).all (fun n => s.fd .coreStat n 0 16 5 == 0) && (List.range 4).all (fun a => s.fd .boreStat a 0 16 9 == 0) &&
    [0, 1].all fun e => s.ebbState e != 3

/-- Every bank of every core in a state (Table 4.5), as Headland writes it. -/
def State.allBanks (s : State) (v : W64) : State :=
  (List.range 256).foldl (fun s n => (s.wr .spdBankpwr n 0 v).wr .spdBankst n 0 v) s

/-- The requests that are discarded when the memories close (step 3 of R523): packets that wait to be performed and accesses
held, but not the host's, which go on waiting (R448). -/
def State.dropRequests (s : State) : State :=
  let lost := s.held.filter fun c => !fromHost c
  { (s.count .secSwdrop 0 0 0 32 (s.inbox.length + lost.length)) with inbox := [], held := s.held.filter fromHost }

/-- MEMORY_CLOSE (steps 2 to 5 of R523, R524): `late` says that 10 ms have passed. -/
def execMemoryClose (late : Bool) (s : State) : Ans :=
  if s.sec = 6 ∧ !s.chip.closed ∧ (late ∨ s.drained) then
    let s := s.dropRequests
    let s := ((s.modChip fun c => { c with closed := true }).startScrubs).raise .csrLock 0 0 1
    let s := (s.allBanks 0xAAAAAAAAAAAAAAAA#64).loseCore
    let s := s.dropRegs fun r => r == .ebbSeg || r == .ebbRule
    ok { s with xfers := [], sources := [], bores := [], ebbs := [], snoop := [], biOut := [], gate := {} }
  else ok s

/-- The result of a self-test whose closing switch ends (R541, R568). -/
def State.testResult (s : State) : State :=
  if s.fd .tstStat 0 0 0 2 = 1 ∧ s.fd .tstStat 0 0 4 4 = 7 then
    let fails := s.fd .tstStat 0 0 24 7
    let n := s.fd .tstStat 0 0 8 9
    let good := fails == 0 && n == 0
    let s := ((s.setF .tstStat 0 0 0 2 (if good then 2 else 3)).setF .tstStat 0 0 4 4 0).setF .tstCtl 0 0 0 1 0
    let s := s.report 14 [fails, n]
    if good && s.chip.readmit then
      ((s.modChip fun c => { c with stranded := false, readmit := false }).announce 0).fault { cls := 9, evt := 1, src := 0x107 }
    else s.modChip fun c => { c with readmit := false }
  else s

/-- Step 6 of R523, once every scrub is complete and the core domain has power again. -/
def State.switchEnds (s : State) : State :=
  let s := { (s.dropRegs switchResets) with cores := [], gate := {} }
  let s := (s.setF .rstStat 0 0 0 4 4).count .secSession 0 0 0 32 1
  let dbg := s.chip.dbgNext
  let s := s.modChip fun c => { c with closed := false, dbgNext := false, aliasGone := c.aliasGone || dbg }
  let s := if dbg then s.raise .secState 0 0 8 else s
  s.testResult.enterReady

/-- Does the tenant switch end now: the scrubs are complete and the cores have started in their waves. -/
def State.settleSwitch (s : State) : State :=
  if s.sec = 6 ∧ s.chip.closed ∧ s.chip.coreOn ∧ s.chip.waves = 8 ∧ !s.chip.keysWait ∧ s.rd .memScrub 0 0 = 0#64 then s.switchEnds else s

/-- SWITCH_POWER_RESTORE (step 5 of R523): at least 1 ms later. -/
def execSwitchPowerRestore (s : State) : Ans :=
  if s.sec = 6 ∧ s.chip.closed ∧ !s.chip.coreOn ∧ !s.chip.cut then ok (s.allBanks 0#64).corePower else ok s

/-- CORE_WAVE (R497, R498): the next 32 cores leave reset. -/
def execCoreWave (s : State) : Ans :=
  if s.chip.coreOn ∧ s.chip.waves < 8 then ok (s.modChip fun c => { c with waves := c.waves + 1 }).settleSwitch else ok s

/-- Is an address in memory `which`: stack 0 to 7, Ebb die 8 or 9. -/
def inMemory (which a : Nat) : Bool :=
  match regionOf a with
  | .hbm | .strandline => stackOf a == which
  | .slow e => 8 + e == which
  | _ => false

/-- SCRUB_COMPLETE (R446 to R448, R537): memory `which`, a stack 0 to 7 or an Ebb die 8 or 9, reads 0 and passes its
checks. -/
def execScrubComplete (which : Nat) (s : State) : Ans :=
  let k := if which < 8 then which else which + 1
  if !s.flag .memScrub 0 0 k then ok s
  else
    let s := s.setF .memScrub 0 0 k 1 0
    let s : State := { s with mem := Sparse.drop (inMemory which) s.mem, bad := Sparse.drop (inMemory which) s.bad }
    if s.sec = 3 ∧ s.rd .memScrub 0 0 = 0#64 then ok s.enterReady else ok s.settleSwitch

/-! ### Self-test (R539, R540) -/

/-- The phases start. -/
def State.testStart (s : State) : State :=
  let s := s.dropRegs fun r => r == .tstFailcore
  (s.raise .tstCtl 0 0 0).wr .tstStat 0 0 0x11#64

/-- A self-test request (R539): READY or STRANDED with RTE_DOMAIN 0, none running. -/
def State.testRequest (s : State) : State :=
  if (s.sec = 4 ∨ s.sec = 7) ∧ s.fd .rteDomain 0 0 0 16 = 0 ∧ s.fd .tstStat 0 0 0 2 ≠ 1 then s.testStart else s.refuseReq 3

/-- SELF_TEST (R539). -/
def execSelfTest (s : State) : Ans := ok (s.request 3 [4, 7] State.testRequest)

/-- Cores with a bit in TST_FAILCORE. -/
def State.failedCores (s : State) : Nat := ((List.range 256).filter fun n => s.flag .tstFailcore 0 (n / 64) (n % 64)).length

/-- SELF_TEST_PHASE (R539 to R541): the phase in progress ends. What a phase runs comes as the commands of its records; `cores`
have results that differ from what is expected, and `unit` says that a chip-level unit has (log entry 71). After phase 6 the closing switch begins. -/
def execSelfTestPhase (cores : List Nat) (unit : Bool) (s : State) : Ans :=
  let p := s.fd .tstStat 0 0 4 4
  if s.fd .tstStat 0 0 0 2 ≠ 1 ∨ p = 0 ∨ 6 < p ∨ s.sec = 6 then ok s
  else
    let bad := cores.filter (· < 256)
    let s := bad.foldl (fun s n => s.raise .tstFailcore 0 (n / 64) (n % 64)) s
    let s := if bad.isEmpty && !unit then s else s.raise .tstStat 0 0 (23 + p)
    let s := (s.setF .tstStat 0 0 8 9 s.failedCores).setF .tstStat 0 0 4 4 (p + 1)
    ok (if p = 6 then s.tenantSwitch else s)

end Sys2Proof.Machine
end

