-- ==== Sys2Proof/Machine/CtlRecords.lean ====
section
/-! DEFINITION. Control records (Table 6.6): each executes in its issue cc. -/

namespace Sys2Proof.Machine

/-- NOP: waits and signals alone. -/
def execNop (n cc : Nat) (s : State) : Ans := ok (ctlRow s n cc 0x00 [0, 0, 0, 0] fun _ _ => .go [] id)

/-- END: the replay ends and the core is at a program boundary (R142). -/
def execEndRec (n cc : Nat) (s : State) : Ans := ok (ctlRow s n cc 0x01 [0, 0, 0, 0] fun _ _ => .stop)

/-- BR: the target is the next record (R196). -/
def execBr (n cc : Nat) (s : State) : Ans :=
  ok (ctlRow s n cc 0x02 [0x3FF, 0, 0, 0] fun _ v => .branch (v.getD 0 0).toNat)

/-- The condition of comparator `i` (R166, Table 5.2). -/
def State.cmpTrue (s : State) (n i : Nat) : Bool :=
  let w := s.rd .coreCmp n i
  let lim : W32 := BitVec.ofNat 32 (fld w 32 32)
  let x : W32 := (s.rd .coreCtr n (fld w 0 4)).setWidth 32
  match fld w 8 3 with
  | 0 => x == lim
  | 1 => x != lim
  | 2 => x.ult lim
  | 3 => lim.ule x
  | 4 => x.slt lim
  | 5 => lim.sle x
  | _ => false

/-- BRC: taken when the comparator's condition equals SENSE (R196). -/
def execBrc (n cc : Nat) (s : State) : Ans :=
  ok (ctlRow s n cc 0x03 [0x3FF, 0xF, 0, 0] fun s v =>
    if s.cmpTrue n (fld (v.getD 1 0) 0 3) = bit (v.getD 1 0) 3 then .branch (v.getD 0 0).toNat else .go [] id)

/-- MTHR: the mark's threshold. -/
def execMthr (n cc : Nat) (s : State) : Ans :=
  ok (ctlRow s n cc 0x05 [0x3F, 0xFF, 0, 0] fun _ v =>
    .go [] (fun s => s.setF .mark n (v.getD 0 0).toNat 16 8 (v.getD 1 0).toNat))

/-- MADD: a signed delta on the mark's count (R161, R197). -/
def execMadd (n cc : Nat) (s : State) : Ans :=
  ok (ctlRow s n cc 0x06 [0x3F, 0xFFFF, 0, 0] fun _ v =>
    .go [((v.getD 0 0).toNat, toSigned 16 (v.getD 1 0).toNat)] id)

/-- CSET: counter := value. -/
def execCset (n cc : Nat) (s : State) : Ans :=
  ok (ctlRow s n cc 0x08 [0xF, 0xFFFFFFFF, 0, 0] fun _ v => .go [] (fun s => s.wr .coreCtr n (v.getD 0 0).toNat (v.getD 1 0)))

/-- CADD: counter := counter + value, modulo 2^32 (R166). -/
def execCadd (n cc : Nat) (s : State) : Ans :=
  ok (ctlRow s n cc 0x09 [0xF, 0xFFFFFFFF, 0, 0] fun _ v =>
    let i := (v.getD 0 0).toNat
    .go [] (fun s => s.wr .coreCtr n i (BitVec.ofNat 64 (((s.rd .coreCtr n i).toNat + (v.getD 1 0).toNat) % 2 ^ 32))))

/-- CMPS: CTR, REL and LIMIT of the comparator (Table 5.19). -/
def execCmps (n cc : Nat) (s : State) : Ans :=
  ok (ctlRow s n cc 0x0A [0x7, 0xFFFFFFFF0000070F, 0, 0] fun _ v =>
    .go [] (fun s => s.wr .coreCmp n (v.getD 0 0).toNat (v.getD 1 0)))

/-- PSET: register := value. -/
def execPset (n cc : Nat) (s : State) : Ans :=
  ok (ctlRow s n cc 0x0C [0xFF, 2 ^ 64 - 1, 0, 0] fun _ v => .go [] (fun s => s.wr .coreParam n (v.getD 0 0).toNat (v.getD 1 0)))

/-- PADD: register := register + value, modulo 2^64. -/
def execPadd (n cc : Nat) (s : State) : Ans :=
  ok (ctlRow s n cc 0x0D [0xFF, 2 ^ 64 - 1, 0, 0] fun _ v =>
    .go [] (fun s => s.wr .coreParam n (v.getD 0 0).toNat (s.param n (v.getD 0 0).toNat + v.getD 1 0)))

/-- PSTEP: register := CORE_STEP, zero-extended (R169). -/
def execPstep (n cc : Nat) (s : State) : Ans :=
  ok (ctlRow s n cc 0x0E [0xFF, 0, 0, 0] fun _ v =>
    .go [] (fun s => s.wr .coreParam n (v.getD 0 0).toNat (BitVec.ofNat 64 (s.fd .coreStep n 0 0 48))))

/-- PMAD: register := base + counter × stride, modulo 2^64. -/
def execPmad (n cc : Nat) (s : State) : Ans :=
  ok (ctlRow s n cc 0x0F [0xFF, 2 ^ 64 - 1, 0xF, 2 ^ 64 - 1] fun _ v =>
    .go [] (fun s => s.wr .coreParam n (v.getD 0 0).toNat
      (v.getD 1 0 + BitVec.ofNat 64 (s.fd .coreCtr n (v.getD 2 0).toNat 0 32) * v.getD 3 0)))

/-- DPATCH: one 64-bit word of a descriptor slot. -/
def execDpatch (n cc : Nat) (s : State) : Ans :=
  ok (ctlRow s n cc 0x10 [0x7FF, 2 ^ 64 - 1, 0, 0] fun _ v =>
    .go [] (fun s => s.wr .coreDesc n (8 * fld (v.getD 0 0) 0 8 + fld (v.getD 0 0) 8 3) (v.getD 1 0)))

/-- The scratchpad request of DSLD, PLD or PST: what happens to it beside its data. -/
structure CtlReq where
  op : Nat
  off : Nat
  size : Nat
  write : Bool
  deriving DecidableEq, Repr

/-- DSLD, PLD and PST (R198): alignment, hazard watch, the request, and the halt a failed check, a bank
not on or a lost word brings after the record has issued. `done` applies the access itself. -/
def ctlAccess (s : State) (n cc waits op align : Nat) (mask0 : Nat) (write lost : Bool)
    (done : State → Nat → Nat → State) : State :=
  let s0 := s
  let r := s.nextRec n
  let tag := r.fullTag (s.rplIdx n)
  let vs := (List.range 4).map (vAt (s.operands n r))
  let off := (vs.getD 1 0).toNat
  let line := spadAddr n (off / 64 * 64)
  let rng : Ranges := if write then { wrLines := [line / 64] } else { rdLines := [line / 64] }
  let as := (List.range align).map fun i => spadAddr n off + i
  let fails := s.failsAt as
  let loses := write && lost && s.portOf n 10 (bankOf off) == 1
  let stat := if write && (fails.all fun f => f.2 == 5) then (if loses then 7 else 0)
    else match fails with
      | [] => 0
      | f :: _ => f.2
  let s := ctlRow s n cc op [mask0, 0x3FFFFF, 0, 0] fun s v =>
    if off % align ≠ 0 then .refuse 4
    else match s.hazard n 0 (s.core n).flights rng with
      | some _ => .refuse 9
      | none => .go [] (fun s => if stat = 0 then done s (v.getD 0 0).toNat off else s)
  if s0.issuing n ∧ (s0.core n).pc < (s.core n).pc then
    let s := s.waited n 10 waits
    if stat = 0 then s
    else
      let s := if stat = 7 then s.raise .spdStat n 0 0
        else s.reportUnits { src := n, tag := tag, opcode := op } fails
      (s.fault (statusRecord n tag op 0 stat ((fails.headD (spadAddr n off, 0)).1) 0xFF)).halt
        n tag op 0 stat (some (s.core n).cur) true
  else if (s.core n).halted ∧ !(s0.core n).halted ∧ s.fd .coreHalt n 0 16 4 = 9 then
    match s0.hazard n 0 (s0.core n).flights rng with
    | some g => s.reportHazard n tag op 0 g.tag
    | none => s
  else s

/-- DSLD: descriptor slot := the 64 B line at the offset (R198). -/
def execDsld (n cc waits : Nat) (s : State) : Ans :=
  ok (ctlAccess s n cc waits 0x11 64 0xFF false false fun s slot off =>
    (List.range 8).foldl (fun s k =>
      s.wr .coreDesc n (8 * slot + k) (BitVec.ofNat 64 (leNat (s.bytes (spadAddr n (off + 8 * k)) 8)))) s)

/-- PLD: register := the 8 B at the offset (R198). -/
def execPld (n cc waits : Nat) (s : State) : Ans :=
  ok (ctlAccess s n cc waits 0x12 8 0xFF false false fun s p off =>
    s.wr .coreParam n p (BitVec.ofNat 64 (leNat (s.bytes (spadAddr n off) 8))))

/-- PST: the 8 B at the offset := register (R198). -/
def execPst (n cc waits : Nat) (lost : Bool) (s : State) : Ans :=
  ok (ctlAccess s n cc waits 0x13 8 0xFF true lost fun s p off =>
    (s.writeAll (wholeWrites (spadAddr n off) (leBytes 8 (s.param n p).toNat))).1)

end Sys2Proof.Machine
end

