-- ==== Sys2Proof/Machine/MemSys.lean ====
section
/-! DEFINITION. The memory system's own events: accesses at a stack and at a slow-tier controller (R426, R427,
R281), refresh, and temperature with throttling (R431 to R436). Refresh and throttling affect timing alone. -/

namespace Sys2Proof.Machine

/-- An access to bytes of HBM or of the slow tier for an agent: what it answers is its status and, for a read,
the bytes of units that pass their check (R423, R427, R430, R438). Command `c` asked for it: an access that is held is
performed later (R448). -/
def State.memAccess (s : State) (c : Instr) (src a n : Nat) (ws : Option (List MWrite)) : State :=
  match ws with
  | none =>
    let as := (List.range n).map (a + ·)
    s.holding c as [] fun s =>
      let fs := s.failsAt as
      let got := as.map fun x => if fs.any fun f => f.1 == granule x then 0#8 else s.byte x
      (s.reportUnits { src := src } fs).emit (.memory a (if fs.isEmpty then 0 else 5) got)
  | some ws =>
    s.holding c [] (ws.map (·.addr)) fun s =>
      let (s, fs) := s.land ws
      (s.reportUnits { src := src } fs).emit (.memory a (if fs.isEmpty then 0 else 5) [])

/-- An access that is refused answers ADDR, with a record (R26, R27, R423). -/
def State.memRefuse (s : State) (src a : Nat) : State := (s.refusedAt src a).emit (.memory a 1 [])

/-- HBM_ACCESS (R426): one 64 B unit. `mask` selects the bytes of a write; only Ebb die 0 (code 0x104) writes
the strandline region (R423). -/
def execHbmAccess (a : Agent) (addr : Nat) (write : Bool) (mask : W64) (data : List Byte) (s : State) : Ans :=
  let u := addr / 64 * 64
  let ws := ((List.range 64).filter fun i => bit mask i).map fun i => MWrite.whole (u + i) (data.getD i 0#8)
  let c : Instr := .hbmAccess a addr write mask data
  match regionOf u with
  | .hbm => ok (s.memAccess c (agentCode a) u 64 (if write then some ws else none))
  | .strandline =>
    if write && agentCode a != 0x104 then ok (s.memRefuse (agentCode a) u)
    else ok (s.memAccess c (agentCode a) u 64 (if write then some ws else none))
  | _ => ok (s.memRefuse (agentCode a) u)

/-- The request a slow-tier controller grants: the oldest of the highest class (R281, Table 9.2). -/
def grantOf (reqs : List SlowReq) : Option SlowReq :=
  reqs.foldl (fun b q => match b with
    | none => some q
    | some x => if q.cls < x.cls then some q else b) none

/-- SLOW_TIER_ACCESS (R281): of the requests that wait, in order of arrival, one is performed. -/
def execSlowTierAccess (die : Nat) (reqs : List SlowReq) (s : State) : Ans :=
  match grantOf reqs with
  | none => ok s
  | some q =>
    let n := match q.write with
      | some bs => bs.length
      | none => q.len
    if n = 0 then ok s
    else if regionOf q.addr == Region.slow die && regionOf (q.addr + n - 1) == Region.slow die then
      ok (s.memAccess (.slowTierAccess die [q]) (0x104 + die) q.addr n (q.write.map (wholeWrites q.addr)))
    else ok (s.memRefuse (0x104 + die) q.addr)

/-- HBM_REFRESH (R431): takes stack time only. -/
def execHbmRefresh (_stack : Nat) (s : State) : Ans := ok s
/-- SLOW_TIER_REFRESH (R439): takes channel time only. -/
def execSlowTierRefresh (_die : Nat) (s : State) : Ans := ok s

/-- Readings that lie within 1 ms, at one every 32 µs. -/
def coolReadings : Nat := 32

/-- The level a stack has after a reading, and the readings in a row below the leaving edge (Table 13.3, R432). -/
def throttleStep (thr hyst band level cool t : Nat) : Nat × Nat :=
  let met := if thr + 2 * band ≤ t then 3 else if thr + band ≤ t then 2 else if thr ≤ t then 1 else 0
  if level < met then (met, 0)
  else if level ≠ 0 ∧ t + hyst < thr + (level - 1) * band then
    if coolReadings ≤ cool + 1 then (level - 1, 0) else (level, cool + 1)
  else (level, 0)

/-- HBM_TEMP_READING (R432, R434, R435): `temp` is the stack's reading, taken every 32 µs. -/
def execHbmTempReading (stack temp : Nat) (s : State) : Ans :=
  let t := min temp 255
  let thr := s.fd .hbmThr stack 0 0 8
  let hyst := s.fd .hbmThr stack 0 8 4
  let band := s.fd .hbmThr stack 0 12 4
  let level := s.fd .hbmTemp stack 0 16 2
  let (lv, cool) := throttleStep thr hyst band level (Sparse.get 0 s.chip.cool stack) t
  let s := if level = 0 then s else s.count .hbmThrtime stack 0 0 32 32
  let s := (s.setF .hbmTemp stack 0 0 8 t).setF .hbmTemp stack 0 8 8 (max t (s.fd .hbmTemp stack 0 8 8))
  let s := (s.setF .hbmTemp stack 0 16 2 lv).modChip fun c => { c with cool := Sparse.set 0 c.cool stack cool }
  let s := if lv = level then s
    else ((s.raise .hbmStat stack 0 1).report 5 [stack, lv]).modChip fun c =>
      { c with log := c.log ++ [((s.rd .clkTick 0 0).toNat, stack, lv)] }
  let s := if lv = 0 then s else { s with gate := { s.gate with hthr := true } }
  ok (if thr + 3 * band ≤ t then (s.raise .hbmStat stack 0 2).report 6 [stack] else s)

end Sys2Proof.Machine
end

