-- ==== Sys2Proof/Machine/Security.lean ====
section
/-! DEFINITION. Requests to Headland: the firmware image, fuses and owner (R510 to R512, R521), identity and
domains (R411, R413, R516, R538, R598), set point and limits (R484 to R488, R499, R500, R436), IDE policy,
severance and re-admission (R566 to R568), debug (R526), Shingle's mailbox (R557, R564), DTLS (R520, R522) and the
entropy source (R513). -/

namespace Sys2Proof.Machine

/-- Every SEC_STATE but SWITCH. -/
def exceptSwitch : List Nat := [0, 1, 2, 3, 4, 5, 7]
/-- Every SEC_STATE after BOOT. -/
def afterBoot : List Nat := [3, 4, 5, 6, 7]

/-- A request that its own rule refuses, and that is reported. -/
def State.declined (s : State) (code : Nat) : State := s.report 1 [code]

/-! ### Image, fuses, owner -/

/-- IMAGE_DELIVERY (R510): `image` as delivered, `stored` as the flash reads back. -/
def execImageDelivery (image stored : List Byte) (s : State) : Ans :=
  ok (s.request 4 exceptSwitch fun s =>
    match s.manifestFails image with
    | some k => s.report 15 [1 + k]
    | none =>
      let s := s.modChip fun c => { c with flash := stored }
      s.report 15 [match s.imageFails stored with
        | some k => 1 + k
        | none => 0])

/-- SVN_COMMIT (R511): the fused version never falls. -/
def execSvnCommit (s : State) : Ans :=
  ok (s.request 5 exceptSwitch fun s =>
    let v := max s.chip.fuseSvn (s.fd .secState 0 0 24 8)
    (s.modChip fun c => { c with fuseSvn := v }).setF .secState 0 0 16 8 v)

/-- Both signatures of an unrevoked slot over a message (R512, R526). -/
def State.slotSigned (s : State) (slot : Nat) (rsaPub slhPub msg rsa slh : List Byte) : Bool :=
  s.slotHolds slot rsaPub slhPub && Config.rsaVerify rsaPub msg rsa && Config.slhVerify slhPub msg slh

/-- REVOKE_SLOT (R512): signed with the keys of slot `signer`. -/
def execRevokeSlot (slot signer : Nat) (rsaPub slhPub rsa slh : List Byte) (s : State) : Ans :=
  ok (s.request 6 exceptSwitch fun s =>
    let running := decide (2 ≤ s.sec) && s.fd .secState 0 0 12 2 == slot
    if decide (slot < 4 ∧ slot ≠ signer) && !running &&
        s.slotSigned signer rsaPub slhPub (BitVec.ofNat 8 slot :: Config.identityHash) rsa slh then
      s.modChip fun c => { c with revoked := c.revoked ||| 2 ^ slot }
    else s.declined 6)

/-- Headland writes an owner record, with its HMAC. -/
def State.setOwner (s : State) (hash : List Byte) : State :=
  (s.modChip fun c => { c with owner := some hash, ownerDiff := 0 }).showOwner

/-- OWNER_INSTALL (R521): the hash of the key of a certificate that the client of an open DTLS session has presented. -/
def execOwnerInstall (hash : List Byte) (s : State) : Ans :=
  if s.chip.anchor.isSome || !s.chip.anchors.contains hash then ok (s.refuseReq 7) else ok (s.setOwner hash)

/-- OWNER_CHANGE (R521): `chains` says that the request is signed by a key that chains to the anchor. -/
def execOwnerChange (hash : List Byte) (chains : Bool) (s : State) : Ans :=
  if s.chip.anchor.isSome ∧ chains then ok (s.setOwner hash)
  else ok (s.refuseReq 8)

/-- DEBUG_UNLOCK (R526): a tenant switch first. -/
def execDebugUnlock (slot : Nat) (rsaPub slhPub nonce rsa slh : List Byte) (s : State) : Ans :=
  ok (s.request 9 [4] fun s =>
    if Config.nonceIssued nonce && s.slotSigned slot rsaPub slhPub (Config.identityHash ++ nonce) rsa slh then
      (s.modChip fun c => { c with dbgNext := true }).tenantSwitch
    else s.declined 9)

/-! ### Identity and domains -/

/-- The chip-on-board index of a coordinate (R440). -/
def boardOf (v : Nat) : Nat := v % 2 + 2 * (v / 2 ^ 6 % 2) + 4 * (v / 2 ^ 12 % 2) + 8 * (v / 2 ^ 18 % 2)

/-- RTE_COORD as Headland writes it on request (R411, R598). -/
def State.setCoord (s : State) (v : Nat) : State :=
  let down := (List.range 20).all fun p => s.linkState p == 0 || s.linkState p == 6
  if down && boardOf v == s.chip.bidx then s.setF .rteCoord 0 0 0 24 v else s.declined 10

/-- SET_COORDINATES (R411, R598, Table 16.5). -/
def execSetCoordinates (v : Nat) (s : State) : Ans := ok (s.request 10 [4, 5] fun s => s.setCoord v)

/-- INSTALL_FINGERPRINTS (R516): entry `i` of 64; an empty one removes it. -/
def execInstallFingerprints (i : Nat) (fp : List Byte) (s : State) : Ans :=
  ok (s.request 11 [4, 5] fun s =>
    if i < 64 then s.modChip fun c => { c with fingers := Sparse.set [] c.fingers i fp } else s.declined 11)

/-- RTE_DOMAIN as Headland writes it: a tag other than 0 in READY makes the chip a job's (R538). -/
def State.setDomain (s : State) (v : Nat) : State :=
  let s' := s.setF .rteDomain 0 0 0 16 v
  if s.sec = 4 ∧ v % 2 ^ 16 ≠ 0 then s'.setSec 5 else s'

/-- SET_RTE_DOMAIN (R363, R538, Table 16.5): from 0 only. -/
def execSetRteDomain (v : Nat) (s : State) : Ans :=
  ok (s.request 12 [4] fun s => if s.fd .rteDomain 0 0 0 16 = 0 then s.setDomain v else s.refuseReq 12)

/-- SET_RTE_TRANSIT (R363, R413). -/
def execSetRteTransit (v : W64) (s : State) : Ans := ok (s.request 13 [4, 5] fun s => s.wr .rteTransit 0 0 v)

/-! ### Set point and limits -/

/-- May the emergency set point end (R500). -/
def State.calm (s : State) : Bool :=
  decide (s.fd .pwrTemp 0 0 0 8 < s.fd .pwrTemp 0 0 8 8 ∧ s.fd .pwrMeas 0 0 0 16 < s.fd .pwrCap 0 0 0 16)

/-- A set-point request (R2, R484, R486, R487, R500). -/
def State.askSetpoint (s : State) (k : Nat) (due : W64) : State :=
  if 16 < k ∨ (k < 4 ∧ s.fd .csrId 0 0 16 8 = 1) ∨ (s.flag .clkSetpt 0 0 23 ∧ !s.calm) then
    (s.raise .clkSetpt 0 0 20).report 9 [k]
  else ((s.setF .clkSetpt 0 0 0 5 k).raise .clkSetpt 0 0 22).wr .clkSetat 0 0 due

/-- SETPOINT_REQUEST (R484, Table 16.5). -/
def execSetpointRequest (k : Nat) (due : W64) (s : State) : Ans := ok (s.request 14 afterBoot fun s => s.askSetpoint k due)

/-- SET_PWR_CAP (Table 16.5). -/
def execSetPwrCap (v : Nat) (s : State) : Ans := ok (s.request 15 afterBoot fun s => s.setF .pwrCap 0 0 0 16 v)

/-- HBM_THR as stored (R436, Table 13.4). -/
def thrStored (w : W64) : W64 :=
  let w := setFld w 0 8 (max 70 (min 95 (fld w 0 8)))
  if fld w 12 4 = 0 then setFld w 12 4 1 else w

/-- SET_HBM_THR (R436, Table 16.5): BAND, HYST and THR of a stack. -/
def execSetHbmThr (stack thr hyst band : Nat) (s : State) : Ans :=
  ok (s.request 16 afterBoot fun s =>
    s.wr .hbmThr (stack % 8) 0 (thrStored (BitVec.ofNat 64 (min thr 255 + hyst % 16 * 2 ^ 8 + band % 16 * 2 ^ 12))))

/-- SET_IDE_POLICY (R452, Table 16.5). -/
def execSetIdePolicy (req : Bool) (s : State) : Ans := ok (s.request 17 [4] fun s => s.setF .cxlIdepol 0 0 0 1 (b2n req))

/-- LNK_EXPECT (R366, R522): Headland writes it on a management request. -/
def execLnkExpect (a : Agent) (p : Nat) (v : W64) (s : State) : Ans :=
  let w := v &&& 0x801FFFFFFFFFFFFF#64
  match a with
  | .headland => ok (s.request 20 [4, 5] fun s => s.expectWrite p w)
  | _ => ok (s.gatedLock a .lnkExpect p 0 (s.rd .lnkExpect p 0 != w) fun s => s.expectWrite p w)

/-! ### Severance and re-admission -/

/-- SEVER (R525, R566): during a tenant switch it waits. -/
def execSever (s : State) : Ans :=
  ok (s.request 18 [4, 5, 6, 7] fun s =>
    if s.sec = 6 then s.modChip fun c => { c with severNext := true } else s.sever)

/-- STRANDED_ANNOUNCE (R566). -/
def execStrandedAnnounce (s : State) : Ans := if s.isStranded then ok (s.announce 1) else ok s

/-- RE_ADMIT (R568). -/
def execReAdmit (s : State) : Ans :=
  ok (s.request 19 [7] fun s =>
    if s.fd .tstStat 0 0 0 2 = 1 then s.declined 19 else (s.modChip fun c => { c with readmit := true }).testStart)

/-! ### Shingle's mailbox (R505, R557, R564) -/

/-- Headland sets or clears STOP on the cores named. -/
def State.mailStop (s : State) (cores : List Nat) (on : Bool) : State :=
  if s.sec ≠ 5 then s
  else
    let ns := (cores.filter (· < 256)).eraseDups
    let s := ns.foldl (fun s n => if on then s.stopSet n else s.stopClear n) s
    s.fault { cls := 9, evt := if on then 2 else 3, src := 0x107, detail := ns.length }

/-- STOP_SET_REQUEST (R557). -/
def execStopSetRequest (cores : List Nat) (s : State) : Ans := ok (s.mailStop cores true)
/-- STOP_CLEAR_REQUEST (R557). -/
def execStopClearRequest (cores : List Nat) (s : State) : Ans := ok (s.mailStop cores false)

/-- LIVENESS_REQUEST (R564). -/
def execLivenessRequest (s : State) : Ans := ok (s.modChip fun c => { c with live := s.tick })

/-- SHINGLE_TIMEOUT (R564): a second, 1.2 × 10⁹ ticks, without a request. -/
def execShingleTimeout (s : State) : Ans :=
  if s.chip.live + 1200000000 ≤ s.tick then ok (s.raise .mgtHbt 0 0 16) else ok s

/-- HEARTBEAT (R564, Table 18.11): what it carries, in the rule's order; a PERIOD of 0 sends none. -/
def execHeartbeat (s : State) : Ans :=
  let up := ((List.range 20).map fun p => if s.linkState p = 5 then 2 ^ p else 0).sum
  let reg (r : Reg) : Nat := (s.rd r 0 0).toNat
  if s.chip.dtls = 0 ∨ s.fd .mgtHbt 0 0 0 16 = 0 then ok s
  else ok (s.report 16 [reg .clkTick, reg .secState, reg .gateStep, reg .fltHead, reg .fltSeq, reg .fltLost, reg .pwrStat,
    reg .rstStat, up, s.fd .mgtHbt 0 0 16 1])

/-! ### The management network and the entropy source -/

/-- A signature of the alias RSA key; once the alias keys are destroyed (R526) its bytes are of no stated value. -/
def State.aliasSigns (s : State) (key : List Byte → Nat → List Byte → List Byte) (msg : List Byte) : List Byte × State :=
  if s.chip.aliasGone then s.freeBytes 48 else (key s.chip.measured.1 (s.fd .secState 0 0 24 8) msg, s)

/-- The chain of slot 0. -/
def State.chain (s : State) : List Byte := Config.certChain s.chip.measured.1 (s.fd .secState 0 0 24 8)

/-- DTLS_CONNECTION (R513, R515, R520, R522): `offers` says that the client offers the one suite and group, `chains` that the
certificate it presents, with key hash `cert`, chains to the anchor; a chip without an owner takes the certificate to be anchored
(R521). The device's side of the handshake is signed with the alias pair, over the client's part `hello` and its own chain; keys
need the entropy source. -/
def execDtlsConnection (offers chains : Bool) (s : State) (cert hello : List Byte := []) : Ans :=
  if !offers || s.chip.rngBad then ok (s.report 18 [0])
  else if chains || s.chip.anchor.isNone then
    let (share, s) := s.freeBytes 12
    let (sig, s) := s.aliasSigns Config.aliasRsa (Config.sha384 (hello ++ share ++ s.chain))
    let s := s.modChip fun c => { c with dtls := c.dtls + 1, anchors := c.anchors ++ [cert] }
    ok ((s.emit (.dtls (share ++ s.chain ++ sig))).report 18 [1])
  else ok ((s.count .mgtAuthf 0 0 0 32 1).report 18 [0])

/-- RNG_HEALTH_FAIL (R513). -/
def execRngHealthFail (s : State) : Ans :=
  ok (((s.modChip fun c => { c with rngBad := true }).raise .secEvt 0 0 6).report 17 [])

/-- ENTROPY_HEALTH_PASS (R513): a session start that waited for keys goes on. -/
def execEntropyHealthPass (s : State) : Ans :=
  let wait := s.chip.keysWait
  let s := s.modChip fun c => { c with rngBad := false, keysWait := false }
  ok (if wait then s.startScrubs else s)

/-! ### The fault log -/

/-- FLT_CTL.CLR (R571): the sections are empty; FLT_SEQ goes on. -/
def State.fltClear (s : State) : State := { (s.wr .fltHead 0 0 0#64) with fltSince := 0, fltHeld := 0 }

/-- FLT_CLR (R571). -/
def execFltClr (a : Agent) (s : State) : Ans := ok (s.gated a .fltCtl 0 0 State.fltClear)

end Sys2Proof.Machine
end

