-- ==== Sys2Proof/Machine/RegWrite.lean ====
section
/-! DEFINITION. REGISTER_WRITE (R577 to R590): a write of an agent to control and status space, with every refusal
of R579 and R589 and the action each register's own rule gives a write. -/

namespace Sys2Proof.Machine

/-- RTE_COORD, RTE_DOMAIN and set point as a write leaves them: their own rules (R411, R538, R484). -/
def State.ruledWrite (s : State) (a : Agent) (h : Hit) (size : Nat) (v : W64) : State × Option Cause :=
  let (w, lk) := s.wordAfter a h size v
  let plain := s.plainWrite a h size v
  if lk then plain
  else match h.r with
    | .rteCoord => (if agentBound a && s.rd .rteCoord 0 0 == w then s else s.setCoord (fld w 0 24), none)
    | .rteDomain => (s.setDomain (fld w 0 16), none)
    | .clkSetpt =>
      let s' := s.wr .clkSetpt 0 0 (setFld w 0 5 (s.fd .clkSetpt 0 0 0 5))
      (if fld w 0 5 = s.fd .clkSetpt 0 0 0 5 then s' else s'.askSetpoint (fld w 0 5) (s.rd .clkSetat 0 0), none)
    | .tstCtl => (if bit w 0 && !s.flag .tstCtl 0 0 0 then s.testRequest else plain.1, none)
    | .hbmThr => (s.wr .hbmThr h.n 0 (thrStored w), none)
    | .lnkExpect => (s.expectWrite h.n w, none)
    | _ => plain

/-- A write of LNK_CFG (R336, R364, R589): EN acts, LSW 0 is stored as 1. -/
def State.lnkCfgWrite (s : State) (a : Agent) (h : Hit) (size : Nat) (v : W64) : State × Option Cause :=
  let (w, lk) := s.wordAfter a h size v
  let w := if fld w 8 4 = 0 then setFld w 8 4 1 else w
  let was := s.flag .lnkCfg h.n 0 0
  let s := s.wr .lnkCfg h.n 0 (setBit w 0 was)
  (if bit w 0 = was then s else s.linkEn h.n (bit w 0), if lk then some .lock else none)

/-- A write that the agent may make: what the register's rule does with it. -/
def State.regAction (s : State) (a : Agent) (h : Hit) (size : Nat) (v : W64) : State × Option Cause :=
  let does (c : Bool) (f : State → State) : State × Option Cause := (if c then f s else s, none)
  match h.r with
  | .boreAxcfg => (s.axcfgWrite h.n v.toNat, none)
  | .gateCfg => if bit v 0 then s.plainWrite a h size v else does true State.gateOff
  | .rcvCtl => does (v &&& 0xE#64 != 0#64) fun s => s.rcvWrite v.toNat
  | .fltCtl => does (bit v 0) State.fltClear
  | .rteCtl => does (bit v 0) State.advance
  | .rteFence => does (bit v 0) fun s => s.setF .rteFence 0 0 1 1 0
  | .cxlRingctl => does true fun s => s.ringCtl v
  | .cxlCqctl => does true fun s => s.cqCtl v
  | .cxlDb => does true fun s => s.cxlDbWrite size v
  | .lnkCfg => s.lnkCfgWrite a h size v
  | r =>
    match r.info.blk with
    | .core => s.coreWrite a h size v
    | .ebb => does true fun s => s.ebbWrite a h size v
    | _ => s.ruledWrite a h size v

/-- One aligned write that falls on one register, or on none. -/
def State.oneWrite (s : State) (a : Agent) (off size : Nat) (v : W64) : State :=
  match locate off with
  | none => s.refuseAccess a off .unassigned
  | some h =>
    match s.reachCause a true h.r with
    | some c => s.refuseAccess a off c
    | none =>
      let v := v &&& maskOf 64 0 (8 * size)
      let (s, c) := s.regAction a h size (v <<< (8 * h.byte))
      match c with
      | some c => s.refuseAccess a off c
      | none => s

/-- Is an offset that of a 64-bit register word. -/
def wideAt (off : Nat) : Bool :=
  match locate off with
  | some h => h.r.info.width == 64
  | none => false

/-- A write to control and status space: IDE before all else for the host, then size and alignment (R580); 8 B on
two 32-bit registers are two writes, the lower first. -/
def State.regWrite (s : State) (a : Agent) (off size : Nat) (v : W64) : State :=
  if !s.arrives a then s
  else if a = .host ∧ s.ideMissing then s.refuseAccess a off .ide
  else if (size ≠ 4 ∧ size ≠ 8) ∨ off % size ≠ 0 then s.refuseAccess a off .size
  else if size = 4 ∨ wideAt off ∨ (locate off = none ∧ locate (off + 4) = none) then s.oneWrite a off size v
  else (s.oneWrite a off 4 v).oneWrite a (off + 4) 4 (v >>> 32)

/-- A host write of up to 64 B is performed as 8 B writes in ascending order (R580). -/
def State.regWrites (s : State) (a : Agent) (off : Nat) : List W64 → State
  | [] => s
  | v :: t => (s.regWrite a off 8 v).regWrites a (off + 8) t

/-- One aligned read that falls on one register, or on none: refused, it returns 0. -/
def State.oneRead (s : State) (a : Agent) (off size : Nat) : W64 × State :=
  match locate off with
  | none => (0#64, s.refuseAccess a off (if a = .host ∧ s.ideMissing then .ide else .unassigned))
  | some h =>
    match s.reachCause a false h.r with
    | some c => (0#64, s.refuseAccess a off c)
    | none => ((s.csrWord h >>> (8 * h.byte)) &&& maskOf 64 0 (8 * size), s)

/-- What a read of control and status space returns to the host or Shingle (R577 to R580); a refused one returns 0, is counted
and captured. No command of the table is such a read (log entry 29). -/
def State.regRead (s : State) (a : Agent) (off size : Nat) : W64 × State :=
  if !s.arrives a then (0#64, s)
  else if (size ≠ 4 ∧ size ≠ 8) ∨ off % size ≠ 0 then (0#64, s.refuseAccess a off .size)
  else if size = 4 ∨ wideAt off ∨ (locate off = none ∧ locate (off + 4) = none) then s.oneRead a off size
  else
    let (x, s) := s.oneRead a off 4
    let (y, s) := s.oneRead a (off + 4) 4
    (x ||| y <<< 32, s)

/-- REGISTER_WRITE (R580, R585): `more` is what a host write of 16 to 64 B holds after its first 8 B. -/
def execRegisterWrite (a : Agent) (off size : Nat) (v : W64) (s : State) (more : List W64 := []) : Ans :=
  if more = [] then ok (s.regWrite a off size v)
  else if a = .host ∧ size = 8 * (more.length + 1) ∧ size ≤ 64 ∧ off % 8 = 0 then ok (s.regWrites a off (v :: more))
  else ok (s.regWrite a off 0 v)

end Sys2Proof.Machine
end

