-- ==== Sys2Proof/Machine/Spdm.lean ====
section
/-! DEFINITION. The SPDM responder (Attestation, R517 to R519): the eleven requests, over the DOE mailbox or the
management port. A request's `doe` says which; its messages carry what the spec gives, in the spec's order, and the
parts the SPDM standard and the device choose as values of Config. -/

namespace Sys2Proof.Machine

/-- Does the responder answer on a transport (R535, R520). -/
def State.spdmUp (s : State) (doe : Bool) : Bool := if doe then s.cxlUp else decide (2 ≤ s.sec)

/-- Send the response to the request with this code; code 0 is ERROR. -/
def State.spdmSay (s : State) (code : Nat) (bytes : List Byte) : State := s.emit (.spdm code bytes)

/-- Answer a request that the transport serves. -/
def State.spdm (s : State) (doe : Bool) (act : State → State) : Ans := if s.spdmUp doe then ok (act s) else ok s

/-! ### Measurements (Table 16.4) -/

/-- The bytes of a 32-bit register. -/
def State.regBytes (s : State) (r : Reg) (n i : Nat) : List Byte := leBytes 4 (s.rd r n i).toNat

/-- Measurement block `k`, 1 to 8. -/
def State.measurement (s : State) (k : Nat) : List Byte :=
  match k with
  | 1 => Config.romHash
  | 2 => s.chip.measured.1
  | 3 => s.chip.measured.2
  | 4 => [BitVec.ofNat 8 (s.fd .secState 0 0 24 8), BitVec.ofNat 8 (s.fd .secState 0 0 16 8), BitVec.ofNat 8 (s.fd .secState 0 0 12 2),
          BitVec.ofNat 8 (s.chip.revoked % 16)]
  | 5 =>
    let maps := ((List.range 16).map fun i => s.regBytes .fuseRowmap 0 i).flatten ++
      ((List.range 8192).map fun i => s.regBytes .spdColrep (i / 32) (i % 32)).flatten
    [BitVec.ofNat 8 (s.fd .csrId 0 0 16 8), BitVec.ofNat 8 (s.fd .csrId 0 0 8 8), BitVec.ofNat 8 (s.fd .csrId 0 0 0 8), 0#8] ++
      Config.sha384 maps
  | 6 =>
    let enc := ((List.range 20).map fun p => s.fd .lnkCfg p 0 1 1 * 2 ^ p).sum
    leBytes 16 (s.fd .rteCoord 0 0 0 24 + s.fd .rteDomain 0 0 0 16 * 2 ^ 24 + (s.rd .rteTransit 0 0).toNat * 2 ^ 40 +
      s.fd .cxlIdepol 0 0 0 1 * 2 ^ 104 + enc * 2 ^ 105)
  | 7 => Config.linkFingerprint
  | 8 => s.regBytes .secState 0 0 ++ leBytes 4 (s.fd .secSession 0 0 0 32)
  | _ => []

/-- A signed response (R518): the last eight are kept under their nonce. -/
def State.spdmSigned (s : State) (code : Nat) (nonce msg : List Byte) : State :=
  let (sig, s) := s.aliasSigns Config.aliasRsa msg
  (s.modChip fun c => { c with signable := ((nonce, msg) :: c.signable).take 8 }).spdmSay code (msg ++ sig)

/-! ### The requests -/

/-- GET_VERSION: 1.3. -/
def execGetVersion (doe : Bool) (s : State) : Ans := s.spdm doe fun s => s.spdmSay 1 [0x13#8]

/-- GET_CAPABILITIES. -/
def execGetCapabilities (doe : Bool) (s : State) : Ans := s.spdm doe fun s => s.spdmSay 2 (Config.spdmBody 2 0)

/-- NEGOTIATE_ALGORITHMS: RSASSA-PSS-3072 and SHA-384 if the requester offers both. -/
def execNegotiateAlgorithms (doe rsa3072 sha384 : Bool) (s : State) : Ans :=
  s.spdm doe fun s => if rsa3072 && sha384 then s.spdmSay 3 (Config.spdmBody 3 0) else s.spdmSay 0 [3#8]

/-- GET_DIGESTS: the digest of slot 0. -/
def execGetDigests (doe : Bool) (s : State) : Ans := s.spdm doe fun s => s.spdmSay 4 (Config.sha384 s.chain)

/-- GET_CERTIFICATE: a part of the chain of slot 0. -/
def execGetCertificate (doe : Bool) (slot off len : Nat) (s : State) : Ans :=
  s.spdm doe fun s => if slot = 0 then s.spdmSay 5 ((s.chain.drop off).take len) else s.spdmSay 0 [5#8]

/-- CHALLENGE: a signed response over the digest of the chain and the measurements, with a nonce of the device. -/
def execChallenge (doe : Bool) (slot : Nat) (theirs : List Byte) (s : State) : Ans :=
  s.spdm doe fun s =>
    if slot ≠ 0 then s.spdmSay 0 [6#8]
    else
      let (nonce, s) := s.freeBytes 4
      s.spdmSigned 6 nonce (Config.sha384 s.chain ++ nonce ++ Config.sha384 ((List.range 8).map fun k => s.measurement (k + 1)).flatten ++ theirs)

/-- GET_MEASUREMENTS (R517): block `k`, or with 0xFF all of them; signed on request. -/
def execGetMeasurements (doe : Bool) (k : Nat) (signed : Bool) (theirs : List Byte) (s : State) : Ans :=
  s.spdm doe fun s =>
    if k ≠ 0xFF ∧ (k = 0 ∨ 8 < k) then s.spdmSay 0 [7#8]
    else
      let body := if k = 0xFF then ((List.range 8).map fun j => s.measurement (j + 1)).flatten else s.measurement k
      if signed then
        let (nonce, s) := s.freeBytes 4
        s.spdmSigned 7 nonce (body ++ nonce ++ theirs)
      else s.spdmSay 7 body

/-- KEY_EXCHANGE: session `sess` is begun; keys need the entropy source (R513). -/
def execKeyExchange (doe : Bool) (sess : Nat) (s : State) : Ans :=
  s.spdm doe fun s =>
    if s.chip.rngBad || (s.chip.sessions ++ s.chip.handshakes).contains (doe, sess) then s.spdmSay 0 [8#8]
    else
      let (share, s) := s.freeBytes 12
      (s.modChip fun c => { c with handshakes := c.handshakes ++ [(doe, sess)] }).spdmSay 8 share

/-- FINISH: the session opens; `good` says that the requester's verification data is right. -/
def execFinish (doe : Bool) (sess : Nat) (good : Bool) (s : State) : Ans :=
  s.spdm doe fun s =>
    if !s.chip.handshakes.contains (doe, sess) then s.spdmSay 0 [9#8]
    else
      let s := s.modChip fun c => { c with handshakes := c.handshakes.erase (doe, sess) }
      if good then (s.modChip fun c => { c with sessions := c.sessions ++ [(doe, sess)] }).spdmSay 9 [] else s.spdmSay 0 [9#8]

/-- END_SESSION: IDE keys installed in the session go with it (Table 16.3). -/
def execEndSession (doe : Bool) (sess : Nat) (s : State) : Ans :=
  s.spdm doe fun s =>
    if !s.chip.sessions.contains (doe, sess) then s.spdmSay 0 [10#8]
    else
      let s := s.modChip fun c => { c with sessions := c.sessions.erase (doe, sess) }
      let s := if doe ∧ s.chip.ideSess = some sess then s.ideEnd else s
      s.spdmSay 10 []

/-- VENDOR_DEFINED_REQUEST (R518): request code 0x01 with the nonce of a signed response, `ms` after it. -/
def execVendorDefined (doe : Bool) (req : Nat) (nonce : List Byte) (ms : Nat) (s : State) : Ans :=
  s.spdm doe fun s =>
    match s.chip.signable.find? fun (e : List Byte × List Byte) => e.1 == nonce with
    | some e =>
      if req = 1 ∧ ms ≤ 10000 then
        let (sig, s) := s.aliasSigns Config.aliasSlh e.2
        s.spdmSay 11 sig
      else s.spdmSay 0 [11#8]
    | none => s.spdmSay 0 [11#8]

end Sys2Proof.Machine
end

