-- ==== Sys2Proof/Machine/Tap.lean ====
section
/-! DEFINITION. The test port (R604, R605): one scan under each instruction. `tdi` are the bits shifted in, the first
one first; what leaves is emitted in the same order. -/

namespace Sys2Proof.Machine

/-- Shift bits through a register whose first element leaves first: what leaves, and what stays. -/
def scan (reg tdi : List Bool) : List Bool × List Bool := ((reg ++ tdi).take tdi.length, (reg ++ tdi).drop tdi.length)

/-- The bypass register: one bit, 0 at the start. The pins are as `pins` says: 0 by their function, 1 by the boundary
register, 2 in high impedance. -/
def State.tapBypass (s : State) (pins : Nat) (tdi : List Bool) : State :=
  (s.modChip fun c => { c with pins := pins }).emit (.tdo (scan [false] tdi).1)

/-- The boundary register: it takes the pins' levels, then shifts. -/
def State.tapBoundary (s : State) (pins : Nat) (levels tdi : List Bool) : State :=
  let r := scan levels tdi
  (s.modChip fun c => { c with pins := pins, boundary := r.2 }).emit (.tdo r.1)

/-- BYPASS. -/
def execBypass (tdi : List Bool) (s : State) : Ans := ok (s.tapBypass 0 tdi)

/-- The identification code of stepping B1 (R605). -/
def idcode : List Bool := (List.range 32).map fun i => (0x1C1A05D3#32).getLsbD i

/-- IDCODE. -/
def execIdcode (tdi : List Bool) (s : State) : Ans :=
  ok ((s.modChip fun c => { c with pins := 0 }).emit (.tdo (scan idcode tdi).1))

/-- SAMPLE/PRELOAD: the pins keep their function. -/
def execSamplePreload (levels tdi : List Bool) (s : State) : Ans := ok (s.tapBoundary 0 levels tdi)

/-- EXTEST: the boundary register drives the pins; as BYPASS while MAIN_PG is high. -/
def execExtest (levels tdi : List Bool) (s : State) : Ans :=
  ok (if s.chip.mainPg then s.tapBypass 0 tdi else s.tapBoundary 1 levels tdi)

/-- CLAMP: the pins hold what the boundary register has. -/
def execClamp (tdi : List Bool) (s : State) : Ans := ok (s.tapBypass (if s.chip.mainPg then 0 else 1) tdi)

/-- HIGHZ. -/
def execHighz (tdi : List Bool) (s : State) : Ans := ok (s.tapBypass (if s.chip.mainPg then 0 else 2) tdi)

end Sys2Proof.Machine
end

