-- ==== Sys2Proof/Machine/Dispatch.lean ====
section
/-! DEFINITION. Dispatch: each command is one call of its meaning. -/

namespace Sys2Proof.Machine

/-- The effect of a command on everything but the queue. -/
def exec (i : Instr) (s : State) : Host.Outcome State Fault Refusal :=
  match i with
  | .nop n cc => Sys2Proof.Machine.execNop n cc s
  | .endRec n cc => Sys2Proof.Machine.execEndRec n cc s
  | .br n cc => Sys2Proof.Machine.execBr n cc s
  | .brc n cc => Sys2Proof.Machine.execBrc n cc s
  | .mthr n cc => Sys2Proof.Machine.execMthr n cc s
  | .madd n cc => Sys2Proof.Machine.execMadd n cc s
  | .cset n cc => Sys2Proof.Machine.execCset n cc s
  | .cadd n cc => Sys2Proof.Machine.execCadd n cc s
  | .cmps n cc => Sys2Proof.Machine.execCmps n cc s
  | .pset n cc => Sys2Proof.Machine.execPset n cc s
  | .padd n cc => Sys2Proof.Machine.execPadd n cc s
  | .pstep n cc => Sys2Proof.Machine.execPstep n cc s
  | .pmad n cc => Sys2Proof.Machine.execPmad n cc s
  | .dpatch n cc => Sys2Proof.Machine.execDpatch n cc s
  | .dsld n cc waits => Sys2Proof.Machine.execDsld n cc waits s
  | .pld n cc waits => Sys2Proof.Machine.execPld n cc waits s
  | .pst n cc waits lost => Sys2Proof.Machine.execPst n cc waits lost s
  | .recordIssue n cc => Sys2Proof.Machine.execRecordIssue n cc s
  | .mma n eng waits early => Sys2Proof.Machine.execMma n eng waits s early
  | .mns n eng waits early => Sys2Proof.Machine.execMns n eng waits s early
  | .skrun n early => Sys2Proof.Machine.execSkrun n s early
  | .skwalk n early => Sys2Proof.Machine.execSkwalk n s early
  | .skcmp n => Sys2Proof.Machine.execSkcmp n s
  | .skexp n => Sys2Proof.Machine.execSkexp n s
  | .ald n waits early => Sys2Proof.Machine.execAld n waits s early
  | .adr n waits early lost => Sys2Proof.Machine.execAdr n waits s early lost
  | .azero n waits => Sys2Proof.Machine.execAzero n waits s
  | .skkld n waits early => Sys2Proof.Machine.execSkkld n waits s early
  | .skipperBeat n rwaits wwaits early lost => Sys2Proof.Machine.execSkipperBeat n rwaits wwaits s early lost
  | .rsum n waits early lost => Sys2Proof.Machine.execRsum n waits s early lost
  | .rmax n waits early lost => Sys2Proof.Machine.execRmax n waits s early lost
  | .ramax n waits early lost => Sys2Proof.Machine.execRamax n waits s early lost
  | .dload n eng waits lost early mesh => Sys2Proof.Machine.execDload n eng waits lost s early mesh
  | .dstore n eng waits lost early mesh => Sys2Proof.Machine.execDstore n eng waits lost s early mesh
  | .dloadt n eng waits lost early mesh => Sys2Proof.Machine.execDloadt n eng waits lost s early mesh
  | .dcopy n eng waits lost early => Sys2Proof.Machine.execDcopy n eng waits lost s early
  | .put n waits early => Sys2Proof.Machine.execPut n waits s early
  | .get n => Sys2Proof.Machine.execGet n s
  | .bld n => Sys2Proof.Machine.execBld n s
  | .bst n waits early => Sys2Proof.Machine.execBst n waits s early
  | .rsig n => Sys2Proof.Machine.execRsig n s
  | .gcont n => Sys2Proof.Machine.execGcont n s
  | .allreduce n lost mesh => Sys2Proof.Machine.execAllreduce n lost s mesh
  | .redscat n lost mesh => Sys2Proof.Machine.execRedscat n lost s mesh
  | .allgather n lost mesh => Sys2Proof.Machine.execAllgather n lost s mesh
  | .bcast n lost mesh => Sys2Proof.Machine.execBcast n lost s mesh
  | .ringpass n lost mesh => Sys2Proof.Machine.execRingpass n lost s mesh
  | .permute n lost mesh => Sys2Proof.Machine.execPermute n lost s mesh
  | .macroOpComplete n eng cc => Sys2Proof.Machine.execMacroOpComplete n eng cc s
  | .checkCycle n => Sys2Proof.Machine.execCheckCycle n s
  | .waitTimeout n held => Sys2Proof.Machine.execWaitTimeout n held s
  | .laneNop x => Sys2Proof.Machine.execLaneNop x s
  | .mov x d a => Sys2Proof.Machine.execLaneMov x d a s
  | .ldi x d imm => Sys2Proof.Machine.execLaneLdi x d imm s
  | .fsel x d a b => Sys2Proof.Machine.execLaneFsel x d a b s
  | .fadd x d a b => Sys2Proof.Machine.execLaneFadd x d a b s
  | .fsub x d a b => Sys2Proof.Machine.execLaneFsub x d a b s
  | .fmul x d a b => Sys2Proof.Machine.execLaneFmul x d a b s
  | .fma x d a b c => Sys2Proof.Machine.execLaneFma x d a b c s
  | .fmin x d a b => Sys2Proof.Machine.execLaneFmin x d a b s
  | .fmax x d a b => Sys2Proof.Machine.execLaneFmax x d a b s
  | .fabs x d a => Sys2Proof.Machine.execLaneFabs x d a s
  | .fneg x d a => Sys2Proof.Machine.execLaneFneg x d a s
  | .fcmp x md a b => Sys2Proof.Machine.execLaneFcmp x md a b s
  | .cvtif x d a => Sys2Proof.Machine.execLaneCvtif x d a s
  | .cvtfi x d a => Sys2Proof.Machine.execLaneCvtfi x d a s
  | .rbf x d a => Sys2Proof.Machine.execLaneRbf x d a s
  | .rcp x d a => Sys2Proof.Machine.execLaneRcp x d a s
  | .div x d a b => Sys2Proof.Machine.execLaneDiv x d a b s
  | .sqrt x d a => Sys2Proof.Machine.execLaneSqrt x d a s
  | .rsqrt x d a => Sys2Proof.Machine.execLaneRsqrt x d a s
  | .exp2 x d a => Sys2Proof.Machine.execLaneExp2 x d a s
  | .exp x d a => Sys2Proof.Machine.execLaneExp x d a s
  | .log2 x d a => Sys2Proof.Machine.execLaneLog2 x d a s
  | .ln x d a => Sys2Proof.Machine.execLaneLn x d a s
  | .tanh x d a => Sys2Proof.Machine.execLaneTanh x d a s
  | .sigm x d a => Sys2Proof.Machine.execLaneSigm x d a s
  | .erf x d a => Sys2Proof.Machine.execLaneErf x d a s
  | .iadd x d a b => Sys2Proof.Machine.execLaneIadd x d a b s
  | .isub x d a b => Sys2Proof.Machine.execLaneIsub x d a b s
  | .imul x d a b => Sys2Proof.Machine.execLaneImul x d a b s
  | .andL x d a b => Sys2Proof.Machine.execLaneAnd x d a b s
  | .orL x d a b => Sys2Proof.Machine.execLaneOr x d a b s
  | .xorL x d a b => Sys2Proof.Machine.execLaneXor x d a b s
  | .shl x d a b => Sys2Proof.Machine.execLaneShl x d a b s
  | .shr x d a b => Sys2Proof.Machine.execLaneShr x d a b s
  | .sar x d a b => Sys2Proof.Machine.execLaneSar x d a b s
  | .imin x d a b => Sys2Proof.Machine.execLaneImin x d a b s
  | .imax x d a b => Sys2Proof.Machine.execLaneImax x d a b s
  | .icmp x md a b => Sys2Proof.Machine.execLaneIcmp x md a b s
  | .rng x d a b c => Sys2Proof.Machine.execLaneRng x d a b c s
  | .dispatchRecord ring => Sys2Proof.Machine.execDispatchRecord ring s
  | .patchApply n => Sys2Proof.Machine.execPatchApply n s
  | .replayStart n cc => Sys2Proof.Machine.execReplayStart n cc s
  | .phaseRetry ring waited => Sys2Proof.Machine.execPhaseRetry ring waited s
  | .completionRecord n => Sys2Proof.Machine.execCompletionRecord n s
  | .msix q acked => Sys2Proof.Machine.execMsix q s acked
  | .doorbell agent off size v => Sys2Proof.Machine.execDoorbell agent off size v s
  | .cqHeadDoorbell off size v => Sys2Proof.Machine.execCqHeadDoorbell off size v s
  | .ringEnable agent num => Sys2Proof.Machine.execRingEnable agent num s
  | .ringDisable agent num => Sys2Proof.Machine.execRingDisable agent num s
  | .cqEnable agent num => Sys2Proof.Machine.execCqEnable agent num s
  | .cqDisable agent num => Sys2Proof.Machine.execCqDisable agent num s
  | .hostMemRead hpa keep e => Sys2Proof.Machine.execHostMemRead hpa keep s e
  | .hostMemWrite hpa data keep e => Sys2Proof.Machine.execHostMemWrite hpa data keep s e
  | .memWrPtl hpa mask data keep e => Sys2Proof.Machine.execMemWrPtl hpa mask data keep s e
  | .h2dSnoop addr e => Sys2Proof.Machine.execH2dSnoop addr s e
  | .birsp addr data => Sys2Proof.Machine.execBirsp addr data s
  | .cxlLinkDown => Sys2Proof.Machine.execCxlLinkDown s
  | .cxlPortReset => Sys2Proof.Machine.execCxlPortReset s
  | .ideKm sess stream => Sys2Proof.Machine.execIdeKm sess stream s
  | .imWrite agent n half word v => Sys2Proof.Machine.execImWrite agent n half word v s
  | .switchHalf agent n => Sys2Proof.Machine.execSwitchHalf agent n s
  | .halfExchange n => Sys2Proof.Machine.execHalfExchange n s
  | .resume agent n => Sys2Proof.Machine.execResume agent n s
  | .stopSet agent n => Sys2Proof.Machine.execStopSet agent n s
  | .stopClear agent n => Sys2Proof.Machine.execStopClear agent n s
  | .coreMsig agent n v => Sys2Proof.Machine.execCoreMsig agent n v s
  | .markWrite agent n k v inc dec => Sys2Proof.Machine.execMarkWrite agent n k v inc dec s
  | .dmaHalt agent n eng on => Sys2Proof.Machine.execDmaHalt agent n eng on s
  | .spdBankpwr agent n v => Sys2Proof.Machine.execSpdBankpwr agent n v s
  | .bankTransition n bank => Sys2Proof.Machine.execBankTransition n bank s
  | .codeword p lanes found => Sys2Proof.Machine.execCodeword p lanes s found
  | .dataFlit p bytes first => Sys2Proof.Machine.execDataFlit p bytes first s
  | .controlFlit p bytes note => Sys2Proof.Machine.execControlFlit p bytes note s
  | .replayRequest p bytes recent => Sys2Proof.Machine.execReplayRequest p bytes recent s
  | .tagFlit p head rest first => Sys2Proof.Machine.execTagFlit p head rest first s
  | .frameClose p vc => Sys2Proof.Machine.execFrameClose p vc s
  | .routerHop p vc => Sys2Proof.Machine.execRouterHop p vc s
  | .putData k waits lost mesh => Sys2Proof.Machine.execPutData k waits lost s mesh
  | .getRequest k waits => Sys2Proof.Machine.execGetRequest k waits s
  | .getData k waits lost => Sys2Proof.Machine.execGetData k waits lost s
  | .boardStoreData k waits lost => Sys2Proof.Machine.execBoardStoreData k waits lost s
  | .completion k => Sys2Proof.Machine.execCompletion k s
  | .markSignal k => Sys2Proof.Machine.execMarkSignal k s
  | .boardLoadRequest k waits => Sys2Proof.Machine.execBoardLoadRequest k waits s
  | .busyResend sagt xid => Sys2Proof.Machine.execBusyResend sagt xid s
  | .transferTimeout src sagt xid idle => Sys2Proof.Machine.execTransferTimeout src sagt xid idle s
  | .sourceTimeout n xid idle => Sys2Proof.Machine.execSourceTimeout n xid idle s
  | .advance agent => Sys2Proof.Machine.execAdvance agent s
  | .fenceReq agent => Sys2Proof.Machine.execFenceReq agent s
  | .fenceDone => Sys2Proof.Machine.execFenceDone s
  | .linkEnable agent p on => Sys2Proof.Machine.execLinkEnable agent p on s
  | .ident p coord port vmin vmax str => Sys2Proof.Machine.execIdent p coord port vmin vmax str s
  | .keyx p pub kem sig idKey => Sys2Proof.Machine.execKeyx p pub kem s sig idKey
  | .lnkExpect agent p v => Sys2Proof.Machine.execLnkExpect agent p v s
  | .linkFail p down => Sys2Proof.Machine.execLinkFail p down s
  | .linkRetrain p => Sys2Proof.Machine.execLinkRetrain p s
  | .boreMessage axis k lost mesh => Sys2Proof.Machine.execBoreMessage axis k lost s mesh
  | .boreCredit axis dir core => Sys2Proof.Machine.execBoreCredit axis dir core s
  | .boreWatchdog axis core idle => Sys2Proof.Machine.execBoreWatchdog axis core idle s
  | .boreAxcfg agent axis v => Sys2Proof.Machine.execBoreAxcfg agent axis v s
  | .gateMessage k => Sys2Proof.Machine.execGateMessage k s
  | .chipContribution => Sys2Proof.Machine.execChipContribution s
  | .jobWideGateWord => Sys2Proof.Machine.execJobWideGateWord s
  | .gateWatchdog us => Sys2Proof.Machine.execGateWatchdog us s
  | .gateDisable agent => Sys2Proof.Machine.execGateDisable agent s
  | .stagingWrite die addr data => Sys2Proof.Machine.execStagingWrite die addr data s
  | .ebbGateWord die => Sys2Proof.Machine.execEbbGateWord die s
  | .strandlineWrite => Sys2Proof.Machine.execStrandlineWrite s
  | .updatePass die => Sys2Proof.Machine.execUpdatePass die s
  | .passComplete die => Sys2Proof.Machine.execPassComplete die s
  | .mirrorStream die => Sys2Proof.Machine.execMirrorStream die s
  | .mirrorReceive die src step len slot data => Sys2Proof.Machine.execMirrorReceive die src step len slot data s
  | .mirrorAck die step slot refused => Sys2Proof.Machine.execMirrorAck die step slot refused s
  | .mirrorTimeout die us => Sys2Proof.Machine.execMirrorTimeout die us s
  | .mirrorDisable agent die => Sys2Proof.Machine.execMirrorDisable agent die s
  | .clrflt agent die => Sys2Proof.Machine.execClrflt agent die s
  | .rulechk agent die v => Sys2Proof.Machine.execRulechk agent die v s
  | .tideLscfg agent die v => Sys2Proof.Machine.execTideLscfg agent die v s
  | .tideScheduleWrite agent die off size v => Sys2Proof.Machine.execTideScheduleWrite agent die off size v s
  | .snapshotRequest agent die => Sys2Proof.Machine.execSnapshotRequest agent die s
  | .snapshotCopy die => Sys2Proof.Machine.execSnapshotCopy die s
  | .snapshotSwap die => Sys2Proof.Machine.execSnapshotSwap die s
  | .exportStart agent die v => Sys2Proof.Machine.execExportStart agent die v s
  | .exportAbort agent die => Sys2Proof.Machine.execExportAbort agent die s
  | .exportAck k => Sys2Proof.Machine.execExportAck k s
  | .exportTimeout die us => Sys2Proof.Machine.execExportTimeout die us s
  | .babort agent => Sys2Proof.Machine.execBabort agent s
  | .gabort agent => Sys2Proof.Machine.execGabort agent s
  | .eabort agent => Sys2Proof.Machine.execEabort agent s
  | .restoreSend agent die slot => Sys2Proof.Machine.execRestoreSend agent die slot s
  | .restoreReceive die src step len crc data => Sys2Proof.Machine.execRestoreReceive die src step len crc data s
  | .restoreBuild agent die => Sys2Proof.Machine.execRestoreBuild agent die s
  | .fltClr agent => Sys2Proof.Machine.execFltClr agent s
  | .hbmAccess agent addr write mask data => Sys2Proof.Machine.execHbmAccess agent addr write mask data s
  | .slowTierAccess die reqs => Sys2Proof.Machine.execSlowTierAccess die reqs s
  | .hbmTempReading stack temp => Sys2Proof.Machine.execHbmTempReading stack temp s
  | .hbmRefresh stack => Sys2Proof.Machine.execHbmRefresh stack s
  | .slowTierRefresh die => Sys2Proof.Machine.execSlowTierRefresh die s
  | .scrubComplete which => Sys2Proof.Machine.execScrubComplete which s
  | .setpointChange settled => Sys2Proof.Machine.execSetpointChange settled s
  | .refclkLoss => Sys2Proof.Machine.execRefclkLoss s
  | .refclkReturn => Sys2Proof.Machine.execRefclkReturn s
  | .clockStretch mv => Sys2Proof.Machine.execClockStretch mv s
  | .stretchWindow stretched cycles => Sys2Proof.Machine.execStretchWindow stretched cycles s
  | .tickExchange reply p t2 t3 => Sys2Proof.Machine.execTickExchange reply p t2 t3 s
  | .tickSlew => Sys2Proof.Machine.execTickSlew s
  | .powerSample watts => Sys2Proof.Machine.execPowerSample watts s
  | .junctionSample temp => Sys2Proof.Machine.execJunctionSample temp s
  | .coreWave => Sys2Proof.Machine.execCoreWave s
  | .powerOnReset => Sys2Proof.Machine.execPowerOnReset s
  | .standbyResetRelease bidx parityFail => Sys2Proof.Machine.execStandbyResetRelease bidx parityFail s
  | .pllLock => Sys2Proof.Machine.execPllLock s
  | .imageVerified => Sys2Proof.Machine.execImageVerified s
  | .mainPg lowMs => Sys2Proof.Machine.execMainPg lowMs s
  | .mainDomainStart ms => Sys2Proof.Machine.execMainDomainStart ms s
  | .domainPowerUp => Sys2Proof.Machine.execDomainPowerUp s
  | .memoryTrainingComplete failed => Sys2Proof.Machine.execMemoryTrainingComplete failed s
  | .mainPowerReset pgFell => Sys2Proof.Machine.execMainPowerReset pgFell s
  | .firmwareReset => Sys2Proof.Machine.execFirmwareReset s
  | .tenantSwitch => Sys2Proof.Machine.execTenantSwitch s
  | .memoryClose late => Sys2Proof.Machine.execMemoryClose late s
  | .switchPowerRestore => Sys2Proof.Machine.execSwitchPowerRestore s
  | .selfTest => Sys2Proof.Machine.execSelfTest s
  | .selfTestPhase cores unit => Sys2Proof.Machine.execSelfTestPhase cores unit s
  | .imageDelivery image stored => Sys2Proof.Machine.execImageDelivery image stored s
  | .svnCommit => Sys2Proof.Machine.execSvnCommit s
  | .revokeSlot slot signer rsaPub slhPub rsa slh => Sys2Proof.Machine.execRevokeSlot slot signer rsaPub slhPub rsa slh s
  | .setCoordinates v => Sys2Proof.Machine.execSetCoordinates v s
  | .installFingerprints k fp => Sys2Proof.Machine.execInstallFingerprints k fp s
  | .setRteDomain v => Sys2Proof.Machine.execSetRteDomain v s
  | .setRteTransit v => Sys2Proof.Machine.execSetRteTransit v s
  | .setpointRequest k due => Sys2Proof.Machine.execSetpointRequest k due s
  | .setPwrCap v => Sys2Proof.Machine.execSetPwrCap v s
  | .setHbmThr stack thr hyst band => Sys2Proof.Machine.execSetHbmThr stack thr hyst band s
  | .setIdePolicy req => Sys2Proof.Machine.execSetIdePolicy req s
  | .sever => Sys2Proof.Machine.execSever s
  | .strandedAnnounce => Sys2Proof.Machine.execStrandedAnnounce s
  | .reAdmit => Sys2Proof.Machine.execReAdmit s
  | .debugUnlock slot rsaPub slhPub nonce rsa slh => Sys2Proof.Machine.execDebugUnlock slot rsaPub slhPub nonce rsa slh s
  | .ownerInstall hash => Sys2Proof.Machine.execOwnerInstall hash s
  | .ownerChange hash chains => Sys2Proof.Machine.execOwnerChange hash chains s
  | .stopSetRequest cores => Sys2Proof.Machine.execStopSetRequest cores s
  | .stopClearRequest cores => Sys2Proof.Machine.execStopClearRequest cores s
  | .livenessRequest => Sys2Proof.Machine.execLivenessRequest s
  | .shingleTimeout => Sys2Proof.Machine.execShingleTimeout s
  | .heartbeat => Sys2Proof.Machine.execHeartbeat s
  | .dtlsConnection offers chains cert hello => Sys2Proof.Machine.execDtlsConnection offers chains s cert hello
  | .rngHealthFail => Sys2Proof.Machine.execRngHealthFail s
  | .getVersion doe => Sys2Proof.Machine.execGetVersion doe s
  | .getCapabilities doe => Sys2Proof.Machine.execGetCapabilities doe s
  | .negotiateAlgorithms doe rsa3072 sha384 => Sys2Proof.Machine.execNegotiateAlgorithms doe rsa3072 sha384 s
  | .getDigests doe => Sys2Proof.Machine.execGetDigests doe s
  | .getCertificate doe slot off len => Sys2Proof.Machine.execGetCertificate doe slot off len s
  | .challenge doe slot theirs => Sys2Proof.Machine.execChallenge doe slot theirs s
  | .getMeasurements doe k signed theirs => Sys2Proof.Machine.execGetMeasurements doe k signed theirs s
  | .keyExchange doe sess => Sys2Proof.Machine.execKeyExchange doe sess s
  | .finish doe sess good => Sys2Proof.Machine.execFinish doe sess good s
  | .endSession doe sess => Sys2Proof.Machine.execEndSession doe sess s
  | .vendorDefined doe req nonce ms => Sys2Proof.Machine.execVendorDefined doe req nonce ms s
  | .bypass tdi => Sys2Proof.Machine.execBypass tdi s
  | .idcode tdi => Sys2Proof.Machine.execIdcode tdi s
  | .samplePreload levels tdi => Sys2Proof.Machine.execSamplePreload levels tdi s
  | .extest levels tdi => Sys2Proof.Machine.execExtest levels tdi s
  | .clamp tdi => Sys2Proof.Machine.execClamp tdi s
  | .highz tdi => Sys2Proof.Machine.execHighz tdi s
  | .registerWrite agent off size v more => Sys2Proof.Machine.execRegisterWrite agent off size v s more
  | .cxlLinkUp flit rate width conf => Sys2Proof.Machine.execCxlLinkUp flit rate width s conf
  | .entropyHealthPass => Sys2Proof.Machine.execEntropyHealthPass s
  | .standbyPowerLoss => Sys2Proof.Machine.execStandbyPowerLoss s

end Sys2Proof.Machine
end

