-- ==== Sys2Proof/Machine/Tick.lean ====
section
/-! DEFINITION. What passes with time: the tick (R492, R494), the core clock's cycles as the performance counters count them
(R483, R573), the accesses held, and the fault log's wait queue (R570). -/

namespace Sys2Proof.Machine

/-- The state once one more tick has passed (R492, R494): CLK_TICK counts while the root PLL runs, and a
correction of −1 leaves one cycle out. -/
def State.tickPasses (s : State) : State :=
  if !s.flag .clkStat 0 0 0 then s
  else if s.chip.tickHold then s.modChip fun c => { c with tickHold := false }
  else s.wr .clkTick 0 0 (s.rd .clkTick 0 0 + 1#64)

/-- Core cycles in a tick: of its two slots in the frame of 32, those whose pulse the set point k does not suppress (R483). -/
def pulses (k t : Nat) : Nat :=
  ((List.range 2).filter fun j => (2 * (t % 16) + j + 1) * k / 32 == (2 * (t % 16) + j) * k / 32).length

/-- One core cycle as core `n` counts it (R573, Table 18.8). Under hazard watch the core's counters hold in one cycle of 16
(R173). -/
def State.ccPasses (s : State) (n : Nat) : State :=
  let c := s.core n
  if c.hzw && c.beat == 15 then s.modCore n fun c => { c with beat := 0 }
  else
    let s := if c.hzw then s.modCore n fun c => { c with beat := c.beat + 1 } else s
    let s := s.perf n 1 1
    if c.waiting && s.issuing n then s.perf n 5 1 else s

/-- The core cycles of one tick on every core that has left reset. -/
def State.coresPass (s : State) : State :=
  let k := pulses (s.fd .clkSetpt 0 0 8 5) s.tick
  (List.range 256).foldl (fun s n => if s.coreUp n then (List.range k).foldl (fun s _ => s.ccPasses n) s else s) s

/-- A step in which no command waits: one tick passes, with its core cycles; a waiting fault record enters the log (R570), and
the accesses held are tried again (R287, R448, R457). -/
def State.idle (s : State) : State :=
  let s := if s.flag .clkStat 0 0 0 then s.coresPass.tickPasses else s
  { s with fltWait := s.fltWait - 1 }.retry

end Sys2Proof.Machine
end

