-- ==== Sys2Proof/Safety.lean ====
section
/-! DEFINITION. What a state of the block must keep: every store is in its canonical form. -/

namespace Sys2Proof.Machine

/-- Memory in its canonical form: addresses strictly rising, no entry equal to the 0 that an unlisted byte reads. -/
abbrev Memory.wf (m : List Host.Cell) : Bool := Sparse.wf 0#8 m

/-- Memory with its check state, and control and status space, in canonical form. -/
def State.canonical (s : State) : Bool :=
  Memory.wf s.mem && Sparse.wf 0 s.bad && Sparse.wf 0#64 s.regs

end Sys2Proof.Machine
end

