-- ==== Sys2Proof/Certificates/Slice0/Obligations.lean ====
section
/-! DEFINITION. The statements of this package about the CN1. Notions they share come first, under Sys2Proof.Claims. -/

namespace Sys2Proof.Claims

open Sys2Proof.Machine

/-- Memory and the state of its check codes are as they were. -/
def SameMem (s t : State) : Prop := (∀ a, t.byte a = s.byte a) ∧ ∀ g, t.isBad g = s.isBad g

/-- Accumulators, kernel memory and lanes are as they were. -/
def SameUnits (s t : State) : Prop :=
  t.acc = s.acc ∧ t.accBad = s.accBad ∧ t.imBad = s.imBad ∧ t.kern = s.kern ∧ t.kernBad = s.kernBad ∧
    t.kernHdr = s.kernHdr ∧ t.lanes = s.lanes ∧ t.laneF = s.laneF

/-- What stands outside the cores is as it was: host interface, fabric, Bores, gate, Ebb dies, control complex, accesses held. -/
def SameOutside (s t : State) : Prop :=
  t.rings = s.rings ∧ t.cqs = s.cqs ∧ t.snoop = s.snoop ∧ t.biOut = s.biOut ∧ t.ports = s.ports ∧
    t.inbox = s.inbox ∧ t.xfers = s.xfers ∧ t.sources = s.sources ∧ t.bores = s.bores ∧ t.gate = s.gate ∧
    t.ebbs = s.ebbs ∧ t.chip = s.chip ∧ t.cxl = s.cxl ∧ t.held = s.held

/-- Every register outside `rs` is as it was. -/
def SameRegs (rs : List Reg) (s t : State) : Prop := ∀ r n i, r ∉ rs → t.rd r n i = s.rd r n i

/-- Registers outside `rs` and every register of another core are as they were. -/
def SameCoreRegs (n : Nat) (rs : List Reg) (s t : State) : Prop :=
  ∀ r m i, r ∉ rs ∨ m ≠ n → t.rd r m i = s.rd r m i

/-- The execution state of every other core is as it was. -/
def SameCores (n : Nat) (s t : State) : Prop := ∀ m, m ≠ n → t.core m = s.core m

/-- Bits of a register word that `m` names are as they were. -/
def SameBits (r : Reg) (n i : Nat) (m : W64) (s t : State) : Prop := t.rd r n i &&& m = s.rd r n i &&& m

/-- Word `i` of a register takes a value; its other words are as they were. -/
def OneWord (r : Reg) (n i : Nat) (v : W64) (s t : State) : Prop :=
  t.rd r n i = v ∧ ∀ j, j ≠ i → t.rd r n j = s.rd r n j

/-- Bytes from an address take values; every other byte is as it was. -/
def OnlyBytes (a : Nat) (bs : List Byte) (s t : State) : Prop :=
  ∀ x, t.byte x = if a ≤ x ∧ x < a + bs.length then bs.getD (x - a) 0 else s.byte x

/-- Everything but the registers is as it was. -/
def OnlyRegs (s t : State) : Prop := ∃ rs, t = { s with regs := rs }

/-- Everything but registers, fault-log bookkeeping and what the chip has sent is as it was. -/
def OnlyRegsAndReports (s t : State) : Prop :=
  ∃ rs a b w o, t = { s with regs := rs, fltSince := a, fltHeld := b, fltWait := w, outbox := o }

/-- The registers of the fault log. -/
def logRegs : List Reg := [.fltMem, .fltSeq, .fltHead, .fltLost]

end Sys2Proof.Claims

open Sys2Proof Sys2Proof.Machine Sys2Proof.Claims

/-! ### The block as a whole -/

/-- A step runs the command at the front of the queue on the state with the queue's rest. -/
def Obligations.StepRunsFrontCommand : Prop :=
  ∀ (c : Instr) (rest : List Instr) (s : State),
    step { s with pending := c :: rest } = exec c { s with pending := rest }

/-- With an empty queue a step is one tick: CLK_TICK adds 1 while the PLL is locked and no correction of −1 is due
(the model's choice, log entries 2 and 69; R492 and R494 say how CLK_TICK advances). Beside it only the cores' performance counters and
their count of check cycles move; one record leaves the fault log's wait queue, and accesses held are queued again. -/
def Obligations.EmptyQueueCountsTheTick : Prop :=
  ∀ s : State, s.pending = [] →
    ∃ t, step s = .next t ∧
      t.rd .clkTick 0 0 =
        (if s.flag .clkStat 0 0 0 ∧ s.chip.tickHold = false then s.rd .clkTick 0 0 + 1#64 else s.rd .clkTick 0 0) ∧
      SameRegs [.clkTick, .cntVal] s t ∧ SameMem s t ∧ SameUnits s t ∧
      (∀ n, t.core n = { s.core n with beat := (t.core n).beat }) ∧
      (s.flag .clkStat 0 0 0 = false → t.cores = s.cores ∧ SameRegs [] s t) ∧
      (s.flag .clkStat 0 0 0 → t.chip.tickHold = false) ∧
      t.chip = { s.chip with tickHold := t.chip.tickHold } ∧ t.fltWait = s.fltWait - 1 ∧ t.outbox = s.outbox ∧
      t.pending = s.held ∧ t.held = []

/-- Every command answers a next state, from every state: no fault and no refusal; and no command touches the queue of
commands that wait. -/
def Obligations.EveryCommandAnswersANextState : Prop :=
  ∀ (c : Instr) (s : State), ∃ t, exec c s = .next t ∧ t.pending = s.pending

/-- The state after power-on reset: canonical, nothing waiting, every register word at the value of its Reset column (Tables 19.9 and those it names; CSR_ID, for which the part is chosen, and registers whose column says
Fuse or Undefined hold the model's choice, log entries 5 and 6), among them thresholds of 1, set point 16, a power limit of 3,600 W, reset cause 1, every port DOWN, SEC_STATE in ROM; nothing in the log. -/
def Obligations.ResetIsCanonical : Prop :=
  State.reset.canonical = true ∧ State.reset.pending = [] ∧ (∀ r n i, State.reset.rd r n i = Reg.reset r n i) ∧
    (∀ n m, State.reset.markThr n m = 1 ∧ State.reset.markCount n m = 0) ∧ State.reset.fd .clkSetpt 0 0 0 5 = 16 ∧
    State.reset.fd .clkSetpt 0 0 8 5 = 16 ∧ State.reset.fd .pwrCap 0 0 0 16 = 3600 ∧ State.reset.fd .rstStat 0 0 0 4 = 1 ∧
    (∀ p, State.reset.fd .lnkStat p 0 0 3 = 0) ∧ State.reset.fd .secState 0 0 0 4 = 0 ∧ State.reset.fd .fltHead 0 0 0 10 = 0 ∧
    State.reset.fd .fltSeq 0 0 0 32 = 0 ∧ (∀ a n, State.reset.fd .boreAxcfg a n 8 6 = 1)

/-- Every step keeps the canonical form of memory, its check state and the registers. -/
def Obligations.StepKeepsCanonicalForm : Prop :=
  ∀ s t : State, s.canonical = true → step s = .next t → t.canonical = true

/-- The fuses (R511, R512). No step lowers the fused security version, and none clears the revocation of a key slot. The version
changes on a commit request alone, and to the running image's; a slot is revoked on a request alone that both signatures cover,
made with the keys of a different, unrevoked slot over slot number and identity hash, and never while it is the slot that signed
the running image. An owner's commit request in a state that admits it (Table 16.5) raises the version to the running one. -/
def Obligations.FusesOnlyGrow : Prop :=
  ∀ s t : State, step s = .next t →
    s.chip.fuseSvn ≤ t.chip.fuseSvn ∧ (∀ k, s.chip.revoked.testBit k = true → t.chip.revoked.testBit k = true) ∧
    (t.chip.fuseSvn ≠ s.chip.fuseSvn → ∃ rest, s.pending = .svnCommit :: rest ∧ t.chip.fuseSvn = s.fd .secState 0 0 24 8) ∧
    (t.chip.revoked ≠ s.chip.revoked → ∃ slot signer rsaPub slhPub rsa slh rest,
      s.pending = .revokeSlot slot signer rsaPub slhPub rsa slh :: rest ∧ slot < 4 ∧ slot ≠ signer ∧
        s.slotHolds signer rsaPub slhPub = true ∧
        Config.rsaVerify rsaPub (BitVec.ofNat 8 slot :: Config.identityHash) rsa = true ∧
        Config.slhVerify slhPub (BitVec.ofNat 8 slot :: Config.identityHash) slh = true ∧
        ¬(2 ≤ s.sec ∧ s.fd .secState 0 0 12 2 = slot) ∧ t.chip.revoked = s.chip.revoked ||| 2 ^ slot) ∧
    ∀ rest, s.pending = .svnCommit :: rest → s.chip.anchor.isSome = true → s.sec ∈ [0, 1, 2, 3, 4, 5, 7] →
      t.chip.fuseSvn = max s.chip.fuseSvn (s.fd .secState 0 0 24 8)

/-- Only IMAGE_DELIVERY changes the firmware image in flash, and only OWNER_INSTALL and OWNER_CHANGE the anchored
key (R507, R510, R521). -/
def Obligations.FlashAndOwnerHaveTheirOwnCommands : Prop :=
  ∀ (c : Instr) (s t : State), exec c s = .next t →
    (t.chip.flash ≠ s.chip.flash → ∃ image stored, c = .imageDelivery image stored) ∧
      (t.chip.owner ≠ s.chip.owner → (∃ h, c = .ownerInstall h) ∨ ∃ h b, c = .ownerChange h b)

/-! ### Control records -/

namespace Sys2Proof.Claims

/-- Core `n` may issue record `r` in core cycle `cc`: it runs, is neither halted nor stopped (R175, R177), the record
stands next with good check codes and legal fields, its delay has passed (R153) and its marks are satisfied
(R160). -/
structure RecordReady (s : State) (n cc : Nat) (r : Rec) : Prop where
  issuing : s.issuing n = true
  next : s.nextRec n = r
  good : Sparse.get false s.imBad (n * 2048 + (s.core n).half * 1024 + (s.core n).pc) = false
  delay : (s.core n).base + max r.delay 1 ≤ cc
  legal : r.wellFormed = true
  satisfied : s.satisfied n r.waits = true

/-- The V operand at a position of a record. -/
def opnd (s : State) (n : Nat) (r : Rec) (k : Nat) : W64 := vAt (s.operands n r) k

/-- What one cc adds to mark `m`: minus the threshold if the record waits on it (R160), one if the record
signals it (R158), and `extra`. -/
def markSumOf (s : State) (n : Nat) (r : Rec) (signals : Bool) (extra : Nat → Int) (m : Nat) : Int :=
  (s.markCount n m : Int) - (if m ∈ r.waits then (s.markThr n m : Int) else 0) +
    (if signals ∧ r.sv ∧ r.smark = m then 1 else 0) + extra m

/-- The marks after the issue cc of a record: sums held between 0 and 0xFFFF, MOVF set by a sum above
(R161), thresholds as `thr` says. -/
def MarksAfter (s : State) (n : Nat) (r : Rec) (signals : Bool) (extra : Nat → Int) (thr : Nat → Nat) (t : State) : Prop :=
  (∀ m, t.markCount n m = min (markSumOf s n r signals extra m).toNat 0xFFFF ∧ t.markThr n m = thr m) ∧
    (t.flag .coreStat n 0 5 = true ↔
      s.flag .coreStat n 0 5 = true ∨ ∃ m, 0xFFFF < markSumOf s n r signals extra m)

/-- What issuing a record leaves alone: beside `rs` of core `n` only its marks, the STATE, INFLT and MOVF fields of
CORE_STAT, the BUSY and INFLT fields of DMA_STAT, its trace ring and its performance counters change. -/
def IssueFrame (n : Nat) (rs : List Reg) (s t : State) : Prop :=
  SameCoreRegs n (rs ++ [.mark, .coreStat, .dmaStat, .trcMem, .trcStat, .cntVal]) s t ∧ SameCores n s t ∧
    SameBits .coreStat n 0 (~~~0x1F0027#64) s t ∧ SameBits .dmaStat n 0 (~~~0x1F0100#64) s t ∧
    SameBits .dmaStat n 1 (~~~0x1F0100#64) s t ∧ SameUnits s t ∧ SameOutside s t

/-- A control record of opcode `op` that is ready, does not stand at record 1,023 and whose operands lie inside the
masks of Table 6.6 issues: it is followed by the next record, its marks are consumed and it signals, memory is as it was, and
`post` says what it did. -/
def CtlRuns (c : Nat → Nat → Instr) (op : Nat) (masks : List W64) (dest : List Reg) (extra : State → (Nat → W64) → Nat → Int)
    (thr : State → Nat → (Nat → W64) → Nat → Nat) (post : State → Nat → (Nat → W64) → State → Prop) : Prop :=
  ∀ (s : State) (n cc : Nat) (r : Rec), RecordReady s n cc r → r.opcode = op → r.ecls = 0 → (s.core n).pc < 1023 →
    (∀ k, k < 4 → opnd s n r k &&& ~~~(masks.getD k 0#64) = 0#64) →
    ∃ t, exec (c n cc) s = .next t ∧ post s n (opnd s n r) t ∧
      (t.core n).pc = (s.core n).pc + 1 ∧ (t.core n).base = cc ∧ (t.core n).running = true ∧
      MarksAfter s n r true (extra s (opnd s n r)) (thr s n (opnd s n r)) t ∧ IssueFrame n dest s t ∧ SameMem s t

/-- No further change of marks; thresholds as they are. -/
def noExtra : State → (Nat → W64) → Nat → Int := fun _ _ _ => 0
def sameThr : State → Nat → (Nat → W64) → Nat → Nat := fun s n _ m => s.markThr n m

/-- Is the comparator's condition true: the counter it names against its LIMIT under its relation (Table 5.2). -/
def condition (s : State) (n i : Nat) : Bool :=
  let x : W32 := (s.rd .coreCtr n (s.fd .coreCmp n i 0 4)).setWidth 32
  let l : W32 := (s.rd .coreCmp n i >>> 32).setWidth 32
  match s.fd .coreCmp n i 8 3 with
  | 0 => decide (x = l)
  | 1 => decide (x ≠ l)
  | 2 => decide (x.toNat < l.toNat)
  | 3 => decide (l.toNat ≤ x.toNat)
  | 4 => decide (x.toInt < l.toInt)
  | 5 => decide (l.toInt ≤ x.toInt)
  | _ => false

/-- A record that branches, or ends the replay: as `CtlRuns`, with what follows given by `post`. -/
def FlowRuns (c : Nat → Nat → Instr) (op : Nat) (masks : List W64) (post : State → Nat → Nat → (Nat → W64) → State → Prop) : Prop :=
  ∀ (s : State) (n cc : Nat) (r : Rec), RecordReady s n cc r → r.opcode = op → r.ecls = 0 → (s.core n).pc < 1023 →
    (∀ k, k < 4 → opnd s n r k &&& ~~~(masks.getD k 0#64) = 0#64) →
    ∃ t, exec (c n cc) s = .next t ∧ post s n cc (opnd s n r) t ∧
      MarksAfter s n r true (fun _ => 0) (s.markThr n) t ∧ IssueFrame n [] s t ∧ SameMem s t

end Sys2Proof.Claims

/-- NOP, END, BR and BRC: what stands next after them (Table 6.6, R142, R158, R160, R196). -/
def Obligations.FlowRecordsComplete : Prop :=
  FlowRuns .nop 0x00 [] (fun s n cc _ t =>
      (t.core n).pc = (s.core n).pc + 1 ∧ (t.core n).base = cc ∧ (t.core n).running = true) ∧
    FlowRuns .endRec 0x01 [] (fun s n _ _ t => (t.core n).running = false ∧
      (t.core n).replays =
        (s.core n).replays.map fun q => if q.ord = (s.core n).cur then { q with ended := true } else q) ∧
    FlowRuns .br 0x02 [0x3FF#64] (fun _ n cc v t =>
      (t.core n).pc = (v 0).toNat ∧ (t.core n).base = cc + 2 ∧ (t.core n).running = true) ∧
    FlowRuns .brc 0x03 [0x3FF#64, 0xF#64] (fun s n cc v t => (t.core n).running = true ∧
      if condition s n ((v 1).toNat % 8) = (v 1).getLsbD 3 then
        (t.core n).pc = (v 0).toNat ∧ (t.core n).base = cc + 2
      else (t.core n).pc = (s.core n).pc + 1 ∧ (t.core n).base = cc)

/-- MTHR, MADD, CSET, CADD, CMPS, PSET, PADD, PSTEP, PMAD and DPATCH: their results and what they leave alone
(Table 6.6, R161, R165, R166, R169, R197).
Model's choices: log entry 13. -/
def Obligations.RegisterRecordsComplete : Prop :=
  CtlRuns .mthr 0x05 [0x3F#64, 0xFF#64] [] noExtra
      (fun s n v m => if m = (v 0).toNat then (v 1).toNat else s.markThr n m) (fun _ _ _ _ => True) ∧
    CtlRuns .madd 0x06 [0x3F#64, 0xFFFF#64] []
      (fun _ v m => if m = (v 0).toNat then ((v 1).setWidth 16).toInt else 0) sameThr (fun _ _ _ _ => True) ∧
    CtlRuns .cset 0x08 [0xF#64, 0xFFFFFFFF#64] [.coreCtr] noExtra sameThr
      (fun s n v t => OneWord .coreCtr n (v 0).toNat (v 1) s t) ∧
    CtlRuns .cadd 0x09 [0xF#64, 0xFFFFFFFF#64] [.coreCtr] noExtra sameThr
      (fun s n v t => OneWord .coreCtr n (v 0).toNat
        (BitVec.ofNat 64 (((s.rd .coreCtr n (v 0).toNat).toNat + (v 1).toNat) % 2 ^ 32)) s t) ∧
    CtlRuns .cmps 0x0A [0x7#64, 0xFFFFFFFF0000070F#64] [.coreCmp] noExtra sameThr
      (fun s n v t => OneWord .coreCmp n (v 0).toNat (v 1) s t) ∧
    CtlRuns .pset 0x0C [0xFF#64, ~~~0#64] [.coreParam] noExtra sameThr
      (fun s n v t => OneWord .coreParam n (v 0).toNat (v 1) s t) ∧
    CtlRuns .padd 0x0D [0xFF#64, ~~~0#64] [.coreParam] noExtra sameThr
      (fun s n v t => OneWord .coreParam n (v 0).toNat (s.rd .coreParam n (v 0).toNat + v 1) s t) ∧
    CtlRuns .pstep 0x0E [0xFF#64] [.coreParam] noExtra sameThr
      (fun s n v t => OneWord .coreParam n (v 0).toNat (s.rd .coreStep n 0 &&& 0xFFFFFFFFFFFF#64) s t) ∧
    CtlRuns .pmad 0x0F [0xFF#64, ~~~0#64, 0xF#64, ~~~0#64] [.coreParam] noExtra sameThr
      (fun s n v t => OneWord .coreParam n (v 0).toNat
        (v 1 + (s.rd .coreCtr n (v 2).toNat &&& 0xFFFFFFFF#64) * v 3) s t) ∧
    CtlRuns .dpatch 0x10 [0x7FF#64, ~~~0#64] [.coreDesc] noExtra sameThr
      (fun s n v t => OneWord .coreDesc n (8 * ((v 0).toNat % 256) + (v 0).toNat / 256) (v 1) s t)

namespace Sys2Proof.Claims

/-- The control master's request may be granted: the offset is aligned and inside the scratchpad, hazard watch is off,
and every 8 B word of it passes its check in a bank that is on. -/
abbrev WordsGood (s : State) (n off k : Nat) : Prop :=
  ∀ i, i < k → s.cellStatus (spadAddr n (off + 8 * i)) = 0

end Sys2Proof.Claims

/-- DSLD, PLD and PST on words that pass their check: what is loaded or stored, and what is left alone (R198, Table
6.6). A PST whose word is lost at port 1 (R118) writes nothing, sets SPD_STAT.LOST and halts the core with LOST. -/
def Obligations.ScratchpadRecordsComplete : Prop :=
  ∀ (s : State) (n cc waits : Nat) (r : Rec), RecordReady s n cc r → r.ecls = 0 → (s.core n).pc < 1023 →
    (s.core n).hzw = false → opnd s n r 0 &&& ~~~0xFF#64 = 0#64 → opnd s n r 1 &&& ~~~0x3FFFFF#64 = 0#64 →
    let p := (opnd s n r 0).toNat
    let off := (opnd s n r 1).toNat
    (r.opcode = 0x11 → off % 64 = 0 → WordsGood s n off 8 →
      ∃ t, exec (.dsld n cc waits) s = .next t ∧ (t.core n).pc = (s.core n).pc + 1 ∧
        (∀ i, t.rd .coreDesc n i = if i / 8 = p then
          BitVec.ofNat 64 (leNat (s.bytes (spadAddr n (off + 8 * (i % 8))) 8)) else s.rd .coreDesc n i) ∧
        MarksAfter s n r true (fun _ => 0) (s.markThr n) t ∧ IssueFrame n [.coreDesc, .spdConfl] s t ∧ SameMem s t) ∧
    (r.opcode = 0x12 → off % 8 = 0 → WordsGood s n off 1 →
      ∃ t, exec (.pld n cc waits) s = .next t ∧ (t.core n).pc = (s.core n).pc + 1 ∧
        OneWord .coreParam n p (BitVec.ofNat 64 (leNat (s.bytes (spadAddr n off) 8))) s t ∧
        MarksAfter s n r true (fun _ => 0) (s.markThr n) t ∧ IssueFrame n [.coreParam, .spdConfl] s t ∧ SameMem s t) ∧
    (r.opcode = 0x13 → off % 8 = 0 → WordsGood s n off 1 →
      ∃ t, exec (.pst n cc waits false) s = .next t ∧ (t.core n).pc = (s.core n).pc + 1 ∧
        OnlyBytes (spadAddr n off) (leBytes 8 (s.rd .coreParam n p).toNat) s t ∧ (∀ g, t.isBad g = s.isBad g) ∧
        MarksAfter s n r true (fun _ => 0) (s.markThr n) t ∧ IssueFrame n [.spdConfl] s t) ∧
    (r.opcode = 0x13 → off % 8 = 0 → WordsGood s n off 1 → s.portOf n 10 (bankOf off) = 1 →
      ∃ t, exec (.pst n cc waits true) s = .next t ∧ SameMem s t ∧ t.flag .spdStat n 0 0 = true ∧
        (t.core n).halted = true ∧ t.fd .coreHalt n 0 16 4 = 7 ∧ t.fd .coreHalt n 0 24 8 = 0x13)

/-! ### Issue, completion, halts and the fault log -/

/-- RECORD_ISSUE: a data-engine record that is ready, with room among the 16 operations in flight and those of its
engine (R138), enters its engine's queue with its operands captured, its marks consumed (R152, R160, R164, R184).
The product that wakes its wing counts in MAT_WAKECNT at its issue (R106).
Model's choices: log entries 12 and 14. -/
def Obligations.DataRecordIssues : Prop :=
  ∀ (s : State) (n cc : Nat) (r : Rec), RecordReady s n cc r → r.ecls ≠ 0 → (s.core n).pc < 1023 →
    (s.core n).flights.length < 16 →
    ((s.core n).flights.filter fun f => f.ecls == r.ecls).length < (if r.ecls < 6 then 4 else 16) →
    ∃ t f, exec (.recordIssue n cc) s = .next t ∧ (t.core n).flights = (s.core n).flights ++ [f] ∧
      f.opcode = r.opcode ∧ f.ecls = r.ecls ∧ f.slots = s.operands n r ∧ f.phase = .queued ∧ f.issued = cc ∧
      f.tag = r.tag * 256 + s.fd .coreStat n 0 24 8 ∧ f.mark = (if r.sv then some r.smark else none) ∧
      f.replay = (s.core n).cur ∧ (t.core n).pc = (s.core n).pc + 1 ∧ (t.core n).base = cc ∧
      MarksAfter s n r false (fun _ => 0) (s.markThr n) t ∧ IssueFrame n [.matWakecnt] s t ∧ SameMem s t ∧
      (let wakes := (r.ecls = 1 ∨ r.ecls = 2) ∧ (s.core n).wakes r.ecls cc = true;
        (wakes → t.fd .matWakecnt n 0 (16 * (r.ecls - 1)) 16 = min (s.fd .matWakecnt n 0 (16 * (r.ecls - 1)) 16 + 1) 0xFFFF) ∧
          (¬wakes → ∀ i, t.rd .matWakecnt n i = s.rd .matWakecnt n i))

namespace Sys2Proof.Claims

/-- The oldest operation of engine `eng` of core `n` is `f`, and it is done. -/
abbrev DoneOn (s : State) (n eng : Nat) (f : Flight) : Prop :=
  ((s.core n).flights.find? fun g => g.ecls == eng) = some f ∧ f.phase = .done

end Sys2Proof.Claims

/-- MACRO_OP_COMPLETE, CHECK_CYCLE and WAIT_TIMEOUT. The oldest operation of an engine, done with status OK, leaves the
engine and adds 1 to its signal mark (R139, R158); with another status it signals alike and halts the core, CORE_HALT
naming it (R158, R175). A check cycle holds everything (R173). A record that waits on its marks for more than
CORE_WAITWD × 1,024 cc sets WAITTO, is recorded once, and goes on waiting (R178). -/
def Obligations.CompletionAndWatchdogs : Prop :=
  (∀ (s : State) (n eng cc : Nat) (f : Flight), DoneOn s n eng f → f.issued ≤ cc → f.status = 0 →
    ∃ t, exec (.macroOpComplete n eng cc) s = .next t ∧ (t.core n).flights = (s.core n).flights.erase f ∧
      (∀ m, t.markCount n m = if f.mark = some m then min (s.markCount n m + 1) 0xFFFF else s.markCount n m) ∧
      IssueFrame n [] s t ∧ SameMem s t) ∧
  (∀ (s : State) (n eng cc : Nat) (f : Flight), DoneOn s n eng f → f.issued ≤ cc → f.status ≠ 0 → f.status < 16 →
    f.opcode < 256 → f.ecls < 16 → f.tag < 2 ^ 32 → (s.core n).halted = false →
    ∃ t, exec (.macroOpComplete n eng cc) s = .next t ∧ (t.core n).flights = (s.core n).flights.erase f ∧
      (∀ m, t.markCount n m = if f.mark = some m then min (s.markCount n m + 1) 0xFFFF else s.markCount n m) ∧
      (t.core n).halted = true ∧ t.flag .coreStat n 0 4 = true ∧
      t.rd .coreHalt n 0 =
        BitVec.ofNat 64 (f.tag * 2 ^ 32 + f.opcode * 2 ^ 24 + f.ecls * 2 ^ 20 + f.status * 2 ^ 16) ∧ SameMem s t) ∧
  (∀ (s : State) (n : Nat), exec (.checkCycle n) s = .next s) ∧
  (∀ (s : State) (n held : Nat), s.issuing n = true → (s.core n).waiting = true → (s.core n).waitReported = false →
    s.fd .coreWaitwd n 0 0 32 ≠ 0 → s.fd .coreWaitwd n 0 0 32 * 1024 < held →
    ∃ t, exec (.waitTimeout n held) s = .next t ∧ t.flag .coreStat n 0 6 = true ∧ (t.core n).waitReported = true ∧
      (t.core n).waiting = true ∧ (t.core n).pc = (s.core n).pc ∧ (t.core n).flights = (s.core n).flights ∧
      t.fd .fltSeq 0 0 0 32 = (s.fd .fltSeq 0 0 0 32 + 1) % 2 ^ 32 ∧
      SameMem s t ∧ SameUnits s t ∧ SameOutside s t ∧ SameCores n s t ∧
      exec (.waitTimeout n held) t = .next t)

/-- A record whose fields no opcode of its class allows (R137, R187) does not issue: the core halts with ILL, CORE_HALT
names the record, the program stays at it, and its marks are not consumed.
Model's choices: log entry 12. -/
def Obligations.IllegalRecordsHalt : Prop :=
  ∀ (s : State) (n cc : Nat), s.issuing n = true →
    Sparse.get false s.imBad (n * 2048 + (s.core n).half * 1024 + (s.core n).pc) = false →
    (s.core n).base + max (s.nextRec n).delay 1 ≤ cc → (s.nextRec n).wellFormed = false →
    ∃ t, exec (.recordIssue n cc) s = .next t ∧ (t.core n).halted = true ∧ (t.core n).pc = (s.core n).pc ∧
      (t.core n).flights = (s.core n).flights ∧ t.fd .coreHalt n 0 16 4 = 12 ∧
      t.fd .coreHalt n 0 24 8 = (s.nextRec n).opcode ∧ t.flag .coreStat n 0 4 = true ∧
      (∀ m, t.markCount n m = s.markCount n m) ∧ SameMem s t ∧ SameUnits s t ∧ SameOutside s t

namespace Sys2Proof.Claims

/-- The slot the next fault record takes (R570): that of NEXT while the first section fills; then the last section in
turn. -/
def logSlot (s : State) : Nat :=
  if s.flag .fltHead 0 0 9 then 448 + s.fltSince % 64 else s.fd .fltHead 0 0 0 9

end Sys2Proof.Claims

/-- A fault record (R569, R570): it takes the next sequence number and one slot; its image holds tick, class, event,
source, tag and sequence number at their places (Table 18.5); every other slot and every register outside the log is
as it was; while FULL is clear NEXT moves on, and at 448 FULL is set. While 64 records wait it is lost: it takes its sequence
number, FLT_LOST counts it, and no slot changes.
Model's choices: log entries 20 and 69. -/
def Obligations.FaultRecordTakesOneSlot : Prop :=
  ∀ (s : State) (f : FaultRec), (s.flag .fltHead 0 0 9 = false → s.fd .fltHead 0 0 0 9 < 448) →
    let t := s.fault f
    let w (k : Nat) : W64 := t.rd .fltMem 0 (8 * logSlot s + k)
    (64 ≤ s.fltWait → t.fd .fltSeq 0 0 0 32 = (s.fd .fltSeq 0 0 0 32 + 1) % 2 ^ 32 ∧
      t.fd .fltLost 0 0 0 32 = min (s.fd .fltLost 0 0 0 32 + 1) (2 ^ 32 - 1) ∧ SameRegs [.fltSeq, .fltLost] s t ∧
      OnlyRegs s t) ∧
    (s.fltWait < 64 → t.fltWait = s.fltWait + 1 ∧ t.fd .fltSeq 0 0 0 32 = (s.fd .fltSeq 0 0 0 32 + 1) % 2 ^ 32 ∧
      w 0 = s.rd .clkTick 0 0 ∧ fld (w 1) 0 8 = f.cls % 256 ∧ fld (w 1) 8 8 = f.evt % 256 ∧
      fld (w 1) 16 10 = f.src % 1024 ∧ fld (w 1) 32 32 = f.tag % 2 ^ 32 ∧ fld (w 2) 0 8 = f.opcode % 256 ∧
      fld (w 2) 12 4 = f.status % 16 ∧ fld (w 7) 32 32 = s.fd .fltSeq 0 0 0 32 ∧
      (∀ i, i / 8 ≠ logSlot s → t.rd .fltMem 0 i = s.rd .fltMem 0 i) ∧
      (s.flag .fltHead 0 0 9 = false → t.fd .fltHead 0 0 0 9 = s.fd .fltHead 0 0 0 9 + 1 ∧
        (t.flag .fltHead 0 0 9 = true ↔ s.fd .fltHead 0 0 0 9 = 447)) ∧
      SameRegs logRegs s t ∧ SameMem s t ∧ t.cores = s.cores ∧ t.chip = s.chip)

/-! ### Wings and accumulators -/

namespace Sys2Proof.Claims

/-- The next operation of engine `e` of core `n` is `f`, of opcode `op`, no write of it has been refused, and hazard watch is
off (R139, R147, R172). -/
abbrev StartsNext (s : State) (n e op : Nat) (f : Flight) : Prop :=
  s.queuedOn n e = some f ∧ f.opcode = op ∧ f.status = 0 ∧ (s.core n).hzw = false

/-- The operation that was next on engine `e` is done, with the status, address and descriptor slot its record would name. -/
def EndsWith (n e status addr dslot : Nat) (s t : State) : Prop :=
  (t.core n).flights = replFirst (fun g => g.ecls == e && g.phase == .queued)
    (fun g => { g with phase := .done, status := status, addr := addr, dslot := dslot }) (s.core n).flights

/-- What an operation of core `n` leaves alone: beside `rs` only its CORE_STAT, DMA_STAT, conflict counts, trace ring and
performance counters and the fault log change, and no other core. -/
def OpFrame (n : Nat) (rs : List Reg) (s t : State) : Prop :=
  (∀ r m i, r ∉ logRegs → r ∉ rs ++ [.coreStat, .dmaStat, .spdConfl, .trcMem, .trcStat, .cntVal] ∨ m ≠ n →
    t.rd r m i = s.rd r m i) ∧ SameCores n s t

/-- Words and elements that an operation of opcode `op` reads ahead of the event that finishes it (R109, R170, R171) stay with it
as they are read: it begins, and nothing but its own record of them and what its START event changes is touched. -/
def ReadsAhead (c : Nat → Early → Instr) (e op : Nat) : Prop :=
  ∀ (s : State) (n : Nat) (f : Flight) (early : Early), StartsNext s n e op f → early ≠ {} →
    ∃ t, exec (c n early) s = .next t ∧
      (t.core n).flights = replFirst (fun g => g.ecls == e && g.phase == .queued)
        (fun g => { g with begun := true, seen := s.readAhead n early f.seen }) (s.core n).flights ∧
      SameMem s t ∧ SameUnits s t ∧ SameOutside s t ∧ OpFrame n [] s t

/-- The elements of tile `t` of core `n` outside the first `r` rows and `c` columns, and every other tile, are as they were, with
their check bits. -/
def OnlyTile (n tl r c : Nat) (s t : State) : Prop :=
  ∀ m u i j, i < 64 → j < 64 → u < 8 → ¬(m = n ∧ u = tl ∧ i < r ∧ j < c) →
    t.accGet m u i j = s.accGet m u i j ∧ t.accFails m u i j = s.accFails m u i j

/-- Kernel memory, lanes and instruction checks are as they were. -/
def SameKernelsAndLanes (s t : State) : Prop :=
  t.imBad = s.imBad ∧ t.kern = s.kern ∧ t.kernBad = s.kernBad ∧ t.kernHdr = s.kernHdr ∧ t.lanes = s.lanes ∧ t.laneF = s.laneF

/-- A wing operand that R192, R193 and R200 admit, all of whose bytes pass their check. -/
abbrev WingOperandGood (s : State) (n : Nat) (d : TDesc) : Prop :=
  d.check ⟨[0], false⟩ = 0 ∧ d.space = 0 ∧ 0 < d.ext.1 ∧ d.ext.1 ≤ 64 ∧ d.ext.2.2.1 = 1 ∧ d.ext.2.2.2 = 1 ∧
    8 * d.str.1 = d.ext.1 * d.w ∧ (d.fmt.narrow = true → d.num.bax = true) ∧ d.ext.2.1 % 32 = 0 ∧ d.base % 64 = 0 ∧
    d.runsAskew = false ∧ ∀ p, p < d.streamSize → s.cellStatus (d.addr n p) = 0

end Sys2Proof.Claims

/-- MMA on admitted operands (R199, R200, R90): each output element is the dot product of its row of A and column of B
along K, on the tile's previous content in ACCUMULATE mode; elements beyond M rows and N columns, other tiles, and memory
are as they were. Operands that the operation has read ahead of this event (R109, R170) are taken as it read them. -/
def Obligations.MmaComputesTheProduct : Prop :=
  (∀ eng waits, eng = 1 ∨ eng = 2 → ReadsAhead (fun n early => .mma n eng waits early) eng 0x20) ∧
  ∀ (s : State) (n eng waits : Nat) (f : Flight), eng = 1 ∨ eng = 2 → StartsNext s n eng 0x20 f → (vAt f.slots 2).toNat < 8 →
    let v := s.seeing f.seen
    let a := (dAt f.slots 0).t
    let b := (dAt f.slots 1).t
    let tile := 4 * (eng - 1) + (vAt f.slots 2).toNat % 4
    let accum := (vAt f.slots 2).toNat / 4 = 1
    WingOperandGood v n a → WingOperandGood v n b → a.ext.2.1 = b.ext.2.1 →
    (a.fmt = .bf16 ∧ b.fmt = .bf16 ∨ a.fmt.narrow = true ∧ b.fmt.narrow = true) →
    (accum → ∀ i j, i < a.ext.1 → j < b.ext.1 → v.accFails n tile i j = false) →
    ∃ t, exec (.mma n eng waits {}) s = .next t ∧ EndsWith n eng 0 0 0xFF s t ∧
      (∀ i j, i < a.ext.1 → j < b.ext.1 → t.accFails n tile i j = false ∧ t.accGet n tile i j =
        (dotElement (if (vAt f.slots 2).toNat / 4 % 2 = 1 then some (v.accGet n tile i j) else none)
          ((List.range a.ext.2.1).map fun k => v.elemValue n a (k * a.ext.1 + i))
          ((List.range b.ext.2.1).map fun k => v.elemValue n b (k * b.ext.1 + j))).1) ∧
      OnlyTile n tile a.ext.1 b.ext.1 s t ∧ SameMem s t ∧ SameKernelsAndLanes s t ∧ SameOutside s t ∧
      OpFrame n [.matNstat, .matInvcnt] s t ∧
      (s.flag .matNctl n 0 0 = false → s.flag .matNctl n 0 1 = false → ∀ r ∈ logRegs, ∀ m i, t.rd r m i = s.rd r m i)

/-- MNS with valid fields on a tile whose S × S elements pass their check (R201, R202, R204): the result goes to TOUT, unless the estimate is
high and KEEP is set; the estimate, its flag and the norm's root stand in the first three elements of the lower working tile;
MAT_NSSTAT reports a high estimate; other tiles of the core's other wing, and memory, are as they were.
Model's choices: log entry 18. -/
def Obligations.MnsWritesItsResult : Prop :=
  (∀ eng waits, eng = 1 ∨ eng = 2 → ReadsAhead (fun n early => .mns n eng waits early) eng 0x21) ∧
  ∀ (s : State) (n eng waits : Nat) (f : Flight), eng = 1 ∨ eng = 2 → StartsNext s n eng 0x21 f →
    let v := s.seeing f.seen
    let c := vAt f.slots 0
    let e := vAt f.slots 1
    let tin := fld c 0 2
    let tout := fld c 2 2
    let iter := fld c 8 6
    let sz := if bit c 4 then 64 else 32
    let wing := 4 * (eng - 1)
    let w0 := wing + ([0, 1, 2, 3].filter fun k => k != tin && k != tout).headD 0
    let o := mnsCompute sz iter (bit c 5) (BitVec.ofNat 32 (fld e 0 32))
      ((List.range sz).map fun i => (List.range sz).map fun j => v.accGet n (wing + tin) i j)
    let high := isNan32 o.rho || (fcmp32 4 o.rho (BitVec.ofNat 32 (fld e 32 32)) == some true) || !o.ok
    fld c 14 50 = 0 → bit c 7 = false → iter ≠ 0 → tin ≠ tout →
    (∀ i j, i < sz → j < sz → v.accFails n (wing + tin) i j = false) →
    ∃ t, exec (.mns n eng waits {}) s = .next t ∧ EndsWith n eng 0 0 0xFF s t ∧
      ((high && bit c 6) = false → ∀ i j, i < sz → j < sz →
        t.accGet n (wing + tout) i j = if o.ok then o.z.at i j else 0#32) ∧
      ((high && bit c 6) = true → ∀ i j, i < 64 → j < 64 → t.accGet n (wing + tout) i j = s.accGet n (wing + tout) i j) ∧
      t.accGet n w0 0 0 = o.rho ∧ t.accGet n w0 0 1 = (if high then 0x3F800000#32 else 0#32) ∧ t.accGet n w0 0 2 = o.r ∧
      (t.flag .matNsstat n 0 (eng - 1) = true ↔ s.flag .matNsstat n 0 (eng - 1) = true ∨ high = true) ∧
      (∀ m u i j, i < 64 → j < 64 → u < 8 → m ≠ n ∨ u / 4 ≠ eng - 1 → t.accGet m u i j = s.accGet m u i j) ∧
      SameMem s t ∧ SameKernelsAndLanes s t ∧ SameOutside s t ∧
      OpFrame n [.matNstat, .matInvcnt, .matNsstat] s t

namespace Sys2Proof.Claims

/-- A 64 × 64 source or destination that R206, R207 and R192 admit. -/
abbrev SquareGood (d : TDesc) (dest : Bool) : Prop :=
  (d.num.fmt = 0 ∨ d.num.fmt = 1) ∧ d.ext = (64, 64, 1, 1) ∧ d.check ⟨[0], dest⟩ = 0 ∧ d.base % 64 = 0 ∧ d.str.1 % 64 = 0

/-- The addresses of the lines of its rows. -/
def squareLine (n : Nat) (d : TDesc) (r k : Nat) : Nat := d.addr n (r * d.str.1 + 64 * k)

end Sys2Proof.Claims

/-- ALD, ADR and AZERO on admitted operands (R206, R207, R208): a load puts each element into the tile, BF16 widened exactly; a
drain writes each row (or column) to the destination, converted, when the rows do not overlap; a clear makes the tile +0 with valid
check bits. What each leaves alone. What the operation has read ahead of this event (R109) it takes as it read it. -/
def Obligations.AccumulatorTransfersComplete : Prop :=
  (∀ waits lost, ReadsAhead (fun n early => .ald n waits early) 3 0x30 ∧ ReadsAhead (fun n early => .adr n waits early lost) 3 0x31) ∧
  ∀ (s : State) (n waits : Nat) (f : Flight), n < 256 →
    let v := s.seeing f.seen
    let d := (dAt f.slots 0).t
    let c := (vAt f.slots 1).toNat
    (StartsNext s n 3 0x30 f → c < 8 → SquareGood d false → (∀ p, p < d.streamSize → v.cellStatus (d.addr n p) = 0) →
      ∃ t, exec (.ald n waits {}) s = .next t ∧ EndsWith n 3 0 0 0xFF s t ∧
        (∀ r j, r < 64 → j < 64 → t.accFails n c r j = false ∧ t.accGet n c r j =
          if d.num.fmt = 0 then BitVec.ofNat 32 (v.elem n d (64 * r + j))
          else canon32 (BitVec.ofNat 32 (v.elem n d (64 * r + j) * 2 ^ 16))) ∧
        OnlyTile n c 64 64 s t ∧ SameMem s t ∧ SameKernelsAndLanes s t ∧ SameOutside s t ∧ OpFrame n [] s t) ∧
    (StartsNext s n 3 0x31 f → c < 16 → SquareGood d true →
      (∀ i j, i < 64 → j < 64 → v.accFails n (c % 8) i j = false) →
      (∀ r k, r < 64 → k < rowLines d → s.bankState n (bankOf (spadOff (squareLine n d r k))) = 0) →
      ∃ t, exec (.adr n waits {} []) s = .next t ∧ EndsWith n 3 0 0 0xFF s t ∧
        (d.lil = 0 → 64 * d.w ≤ 8 * d.str.1 → ∀ r j, r < 64 → j < 64 → t.elem n d (64 * r + j) =
          (cvtElem d.fmt (d.num.rmAt d.seed (64 * r + j)) d.num.sat 0
            (if c / 8 = 1 then v.accGet n (c % 8) j r else v.accGet n (c % 8) r j)).1 % 2 ^ d.w) ∧
        (∀ a, (∀ r k, r < 64 → k < rowLines d → ¬(squareLine n d r k ≤ a ∧ a < squareLine n d r k + 64)) →
          t.byte a = s.byte a ∧ t.isBad a = s.isBad a) ∧
        t.acc = s.acc ∧ t.accBad = s.accBad ∧ SameKernelsAndLanes s t ∧ SameOutside s t ∧
        OpFrame n [.cvtStat, .cvtClipcnt] s t) ∧
    (StartsNext s n 3 0x32 f → (vAt f.slots 0).toNat < 8 →
      ∃ t, exec (.azero n waits) s = .next t ∧ EndsWith n 3 0 0 0xFF s t ∧
        (∀ i j, i < 64 → j < 64 → t.accGet n (vAt f.slots 0).toNat i j = 0#32 ∧ t.accFails n (vAt f.slots 0).toNat i j = false) ∧
        OnlyTile n (vAt f.slots 0).toNat 64 64 s t ∧ SameMem s t ∧ SameKernelsAndLanes s t ∧ SameOutside s t ∧ OpFrame n [] s t)


/-! ### Lanes -/

namespace Sys2Proof.Claims

/-- The predicate of a lane instruction holds (Table 7.2). -/
abbrev LaneTakes (s : State) (x : LaneSite) : Prop :=
  x.pred = 0 ∨ x.pred = 1 ∧ s.laneFlag x.core x.lane = true ∨ x.pred = 2 ∧ x.first = true ∨ x.pred = 3 ∧ x.last = true

/-- The bits of SKP_STAT (NAN, INV, OVF, DZ) that events set, and those of the core's gate latch (Table 11.6). -/
def laneStat (e : Ev) : W64 := BitVec.ofNat 64 (b2n e.nan + 2 * b2n e.inv + 4 * b2n e.ovf + 8 * b2n e.dz)
def laneLatch (e : Ev) : W64 :=
  (if e.ovf || e.dz then 4#64 else 0#64) ||| (if e.nan || e.inv then 1024#64 else 0#64)

/-- What a lane instruction leaves alone. -/
def LaneFrame (s t : State) : Prop :=
  SameRegs [.skpStat] s t ∧ (∀ n i, i ≠ 0 → t.rd .skpStat n i = s.rd .skpStat n i) ∧ SameMem s t ∧
    t.acc = s.acc ∧ t.accBad = s.accBad ∧ t.imBad = s.imBad ∧ t.kern = s.kern ∧ t.kernBad = s.kernBad ∧
    t.kernHdr = s.kernHdr ∧ SameOutside s t

/-- A lane instruction that writes register `d`: when its predicate holds the register takes the value, no other lane
register and no flag changes, and an active lane adds the events to SKP_STAT and the gate latch (R223, R228, R238). -/
def LaneSets (c : LaneSite → Instr) (d : Nat) (val : State → LaneSite → W32 × Ev) : Prop :=
  ∀ (s : State) (x : LaneSite), x.lane < 64 → LaneTakes s x →
    ∃ t, exec (c x) s = .next t ∧ t.lane x.core x.lane d = (val s x).1 ∧
      (∀ m l r, l < 64 → r < 32 → ¬(m = x.core ∧ l = x.lane ∧ r = d) → t.lane m l r = s.lane m l r) ∧ t.laneF = s.laneF ∧
      (x.active = false → (∀ n, t.rd .skpStat n 0 = s.rd .skpStat n 0) ∧ ∀ n, t.core n = s.core n) ∧
      (x.active = true → t.rd .skpStat x.core 0 = s.rd .skpStat x.core 0 ||| laneStat (val s x).2 ∧
        (t.core x.core).gateLat = (s.core x.core).gateLat ||| laneLatch (val s x).2 ∧
        (∀ n, n ≠ x.core → t.rd .skpStat n 0 = s.rd .skpStat n 0 ∧ t.core n = s.core n)) ∧ LaneFrame s t

/-- A source register of the lane. -/
def src (s : State) (x : LaneSite) (a : Nat) : W32 := s.lane x.core x.lane a

/-- A comparison: when its predicate holds the lane's flag takes the condition's truth; registers and other flags are as
they were. -/
def LaneCompares (c : LaneSite → Instr) (truth : State → LaneSite → Bool) : Prop :=
  ∀ (s : State) (x : LaneSite), x.lane < 64 → LaneTakes s x →
    ∃ t, exec (c x) s = .next t ∧ t.laneFlag x.core x.lane = truth s x ∧
      (∀ m l, l < 64 → ¬(m = x.core ∧ l = x.lane) → t.laneFlag m l = s.laneFlag m l) ∧ t.lanes = s.lanes ∧
      (∀ n, t.core n = s.core n) ∧ SameRegs [] s t ∧ LaneFrame s t

end Sys2Proof.Claims

/-- Moves, constants, selection, sign and bit operations and integer arithmetic of a lane (Table 7.3): LANE_NOP, MOV, LDI, FSEL, FABS,
FNEG, IADD, ISUB, IMUL, AND, OR, XOR, SHL, SHR, SAR, IMIN, IMAX. They record no event. -/
def Obligations.LaneIntegerInstructionsComplete : Prop :=
  (∀ s x, exec (.laneNop x) s = .next s) ∧ ∀ d a b : Nat, d < 32 →
    LaneSets (fun x => .mov x d a) d (fun s x => (src s x a, {})) ∧
    (∀ imm, LaneSets (fun x => .ldi x d imm) d (fun _ _ => (imm, {}))) ∧
    LaneSets (fun x => .fsel x d a b) d
      (fun s x => (if s.laneFlag x.core x.lane then src s x a else src s x b, {})) ∧
    LaneSets (fun x => .fabs x d a) d (fun s x => ((src s x a) &&& 0x7FFFFFFF#32, {})) ∧
    LaneSets (fun x => .fneg x d a) d (fun s x => ((src s x a) ^^^ 0x80000000#32, {})) ∧
    LaneSets (fun x => .iadd x d a b) d (fun s x => (src s x a + src s x b, {})) ∧
    LaneSets (fun x => .isub x d a b) d (fun s x => (src s x a - src s x b, {})) ∧
    LaneSets (fun x => .imul x d a b) d (fun s x => (src s x a * src s x b, {})) ∧
    LaneSets (fun x => .andL x d a b) d (fun s x => (src s x a &&& src s x b, {})) ∧
    LaneSets (fun x => .orL x d a b) d (fun s x => (src s x a ||| src s x b, {})) ∧
    LaneSets (fun x => .xorL x d a b) d (fun s x => (src s x a ^^^ src s x b, {})) ∧
    LaneSets (fun x => .shl x d a b) d (fun s x => (src s x a <<< ((src s x b).toNat % 32), {})) ∧
    LaneSets (fun x => .shr x d a b) d (fun s x => (src s x a >>> ((src s x b).toNat % 32), {})) ∧
    LaneSets (fun x => .sar x d a b) d (fun s x => ((src s x a).sshiftRight ((src s x b).toNat % 32), {})) ∧
    LaneSets (fun x => .imin x d a b) d
      (fun s x => (if (src s x a).toInt ≤ (src s x b).toInt then src s x a else src s x b, {})) ∧
    LaneSets (fun x => .imax x d a b) d
      (fun s x => (if (src s x b).toInt ≤ (src s x a).toInt then src s x a else src s x b, {}))

/-- Floating-point instructions of a lane (R236, R237, R238): FADD, FSUB, FMUL, FMA, FMIN, FMAX, CVTIF, CVTFI, RBF, RCP, DIV, SQRT, RSQRT, EXP2,
EXP, LOG2, LN, TANH, SIGM, ERF and RNG write the result of their function of the source registers, with its events.
Model's choices: log entry 17. -/
def Obligations.LaneFloatInstructionsComplete : Prop :=
  ∀ d a b c : Nat, d < 32 →
    LaneSets (fun x => .fadd x d a b) d (fun s x => fadd32 (src s x a) (src s x b)) ∧
    LaneSets (fun x => .fsub x d a b) d (fun s x => fsub32 (src s x a) (src s x b)) ∧
    LaneSets (fun x => .fmul x d a b) d (fun s x => fmul32 (src s x a) (src s x b)) ∧
    LaneSets (fun x => .fma x d a b c) d (fun s x => fma32 (src s x a) (src s x b) (src s x c)) ∧
    LaneSets (fun x => .fmin x d a b) d (fun s x => fmin32 (src s x a) (src s x b)) ∧
    LaneSets (fun x => .fmax x d a b) d (fun s x => fmax32 (src s x a) (src s x b)) ∧
    LaneSets (fun x => .cvtif x d a) d (fun s x => cvtif32 (src s x a)) ∧
    LaneSets (fun x => .cvtfi x d a) d (fun s x => cvtfi32 (src s x a)) ∧
    LaneSets (fun x => .rbf x d a) d (fun s x => rbf32 (src s x a)) ∧
    LaneSets (fun x => .rcp x d a) d (fun s x => fdiv32 0x3F800000#32 (src s x a)) ∧
    LaneSets (fun x => .div x d a b) d (fun s x => fdiv32 (src s x a) (src s x b)) ∧
    LaneSets (fun x => .sqrt x d a) d (fun s x => fsqrt32 (src s x a)) ∧
    LaneSets (fun x => .rsqrt x d a) d (fun s x => frsqrt32 (src s x a)) ∧
    LaneSets (fun x => .exp2 x d a) d (fun s x => fexp232 (src s x a)) ∧
    LaneSets (fun x => .exp x d a) d (fun s x => fexp32 (src s x a)) ∧
    LaneSets (fun x => .log2 x d a) d (fun s x => flog232 (src s x a)) ∧
    LaneSets (fun x => .ln x d a) d (fun s x => fln32 (src s x a)) ∧
    LaneSets (fun x => .tanh x d a) d (fun s x => ftanh32 (src s x a)) ∧
    LaneSets (fun x => .sigm x d a) d (fun s x => fsigm32 (src s x a)) ∧
    LaneSets (fun x => .erf x d a) d (fun s x => ferf32 (src s x a)) ∧
    LaneSets (fun x => .rng x d a b c) d (fun s x => (rng32 (src s x a) (src s x b) (src s x c), {}))

/-- FCMP and ICMP set the lane flag to the truth of their condition (R239, Table 7.5): on integers equal, unequal, signed below, at
most, above, at least, and unsigned below and at least; on finite FP32 values the same comparisons of their exact values, given
here in units of 2^−149; an infinity lies beyond every other value of its side; with a NaN every FP32 condition is false but NE
and UN. -/
def Obligations.LaneComparisonsComplete : Prop :=
  ∀ a b : Nat,
    (let i (p : Int → Int → Bool) : State → LaneSite → Bool := fun s x => p (src s x a).toInt (src s x b).toInt;
      LaneCompares (fun x => .icmp x 0 a b) (i fun p q => decide (p = q)) ∧
        LaneCompares (fun x => .icmp x 1 a b) (i fun p q => decide (p ≠ q)) ∧
        LaneCompares (fun x => .icmp x 2 a b) (i fun p q => decide (p < q)) ∧
        LaneCompares (fun x => .icmp x 3 a b) (i fun p q => decide (p ≤ q)) ∧
        LaneCompares (fun x => .icmp x 4 a b) (i fun p q => decide (q < p)) ∧
        LaneCompares (fun x => .icmp x 5 a b) (i fun p q => decide (q ≤ p)) ∧
        LaneCompares (fun x => .icmp x 7 a b) (fun s x => decide ((src s x a).toNat < (src s x b).toNat)) ∧
        LaneCompares (fun x => .icmp x 8 a b) (fun s x => decide ((src s x b).toNat ≤ (src s x a).toNat))) ∧
    (∀ k, k < 7 → LaneCompares (fun x => .fcmp x k a b) (fun s x => (fcmp32 k (src s x a) (src s x b)).getD false)) ∧
    (∀ p q np mp ep nq mq eq, fvOf32 p = .fin np mp ep → fvOf32 q = .fin nq mq eq →
      let x := sgnInt np (mp * 2 ^ (ep + 149).toNat)
      let y := sgnInt nq (mq * 2 ^ (eq + 149).toNat)
      fcmp32 0 p q = some (decide (x = y)) ∧ fcmp32 1 p q = some (decide (x ≠ y)) ∧ fcmp32 2 p q = some (decide (x < y)) ∧
        fcmp32 3 p q = some (decide (x ≤ y)) ∧ fcmp32 4 p q = some (decide (y < x)) ∧ fcmp32 5 p q = some (decide (y ≤ x)) ∧
        fcmp32 6 p q = some false) ∧
    (∀ p q n, fvOf32 p = .inf n → isNan32 q = false →
      let same := decide (p = q)
      fcmp32 0 p q = some same ∧ fcmp32 1 p q = some (!same) ∧ fcmp32 2 p q = some (n && !same) ∧ fcmp32 3 p q = some (n || same) ∧
        fcmp32 4 p q = some (!n && !same) ∧ fcmp32 5 p q = some (!n || same) ∧ fcmp32 6 p q = some false ∧
        fcmp32 2 q p = some (!n && !same) ∧ fcmp32 3 q p = some (!n || same)) ∧
    ∀ k p q, k < 7 → isNan32 p = true ∨ isNan32 q = true → fcmp32 k p q = some (decide (k = 1 ∨ k = 6))


/-! ### Skipper and reductions -/

namespace Sys2Proof.Claims

/-- Every scale record that an output stream uses (R70, R245) can be read and starts a use in this step. -/
abbrev RecordsGood (s : State) (n : Nat) (outs : List Desc) : Prop :=
  ∀ d ∈ outs, d.t.fmt.narrow = true → d.t.num.ssrc = true →
    WordsGood s n d.t.num.sraddr 16 ∧
      ((ScaleRec.ofBytes (s.bytes (spadAddr n d.t.num.sraddr) 128)).startUse (s.fd .coreStep n 0 0 48)).isSome = true

/-- A Skipper operation that its start admits (R210 to R212, R607) starts: beats are counted from 0, its streams are those
the record names, W0 to W15 and F of every lane are cleared and P0 to P7 stand (R224, R225), memory is as it was. -/
def SkipperStarts (c : Nat → Instr) (op : Nat) : Prop :=
  ∀ (s : State) (n : Nat) (f : Flight), StartsNext s n 4 op f → (s.core n).skp = none → (skipCheck f).1 = 0 →
    RecordsGood (s.seeing f.seen) n (skipOuts f) →
    ∃ t o, exec (c n) s = .next t ∧ (t.core n).skp = some o ∧ o.op = op ∧ o.beat = 0 ∧ o.count = 0 ∧ o.status = 0 ∧
      o.ins = skipIns f ∧ o.outs.map (fun x => x.desc) = skipOuts f ∧
      o.len = (if op = 0x41 then 0 else (skipLen f).toNat % 2 ^ 24) ∧
      o.beats = (if op = 0x41 then ((skipIns f).headD (dAt f.slots 0)).t.rows * cdiv ((skipIns f).headD (dAt f.slots 0)).t.ext.1 64
        else cdiv o.len 64) ∧
      t.fd .skpLen n 0 0 24 = (if op = 0x41 then s.fd .skpLen n 0 0 24 else o.len) ∧
      t.fd .skpLen n 0 32 32 = (if op = 0x40 then fld (skipLen f) 32 32 else s.fd .skpLen n 0 32 32) ∧
      o.arg.toNat = t.fd .skpLen n 0 32 32 ∧
      (∀ l, l < 64 → t.laneFlag n l = false ∧ (∀ r, r < 16 → t.lane n l r = 0#32) ∧
        ∀ r, 16 ≤ r → r < 32 → t.lane n l r = s.lane n l r) ∧
      (t.core n).flights = replFirst (fun g => g.ecls == 4 && g.phase == .queued)
        (fun g => { g with phase := .started, begun := true, seen := {} }) (s.core n).flights ∧
      SameMem s t ∧ t.acc = s.acc ∧ t.kern = s.kern ∧ t.kernHdr = s.kernHdr ∧ SameOutside s t ∧ OpFrame n [.skpLen] s t

end Sys2Proof.Claims

/-- SKRUN, SKWALK, SKCMP and SKEXP start their operation (R210, R212, R224). -/
def Obligations.SkipperOperationsStart : Prop :=
  ReadsAhead @Instr.skrun 4 0x40 ∧ ReadsAhead @Instr.skwalk 4 0x41 ∧
    SkipperStarts (fun n => .skrun n {}) 0x40 ∧ SkipperStarts (fun n => .skwalk n {}) 0x41 ∧ SkipperStarts .skcmp 0x42 ∧ SkipperStarts .skexp 0x43

namespace Sys2Proof.Claims

/-- A beat of operation `o` of core `n`, whose record is `f`, that reads nothing failing and before which no write is due. -/
abbrev BeatClear (s : State) (n : Nat) (o : SkipOp) (f : Flight) : Prop :=
  (s.core n).skp = some o ∧ (s.core n).flights.find? (fun f => f.ecls == 4 && f.phase == .started) = some f ∧
    o.status = 0 ∧ s.beatFails n o o.at f.seen = [] ∧ ∀ e ∈ o.queue, o.at.cc ≤ e.1

end Sys2Proof.Claims

/-- SKIPPER_BEAT (R222 to R225, R228, R247): a beat that is not the last runs the kernel on all 64 lanes, inactive ones included, from
the registers as they stand with IN, IDX and ARG of the beat, and the next beat follows; a beat of SKCMP or SKEXP counts the elements its mask
selects (R251) and leaves the lanes; with no write due, memory is as it was. The last beat of a kernel with no output ends the operation with
status OK. An event that reads part of the beat's inputs keeps what it has read for the beat (R171).
Model's choices: log entries 22 to 25. -/
def Obligations.SkipperBeatRunsTheKernel : Prop :=
  ∀ (s : State) (n rw ww : Nat) (o : SkipOp) (f : Flight), BeatClear s n o f →
    (∀ early lost, early ≠ {} →
      ∃ t, exec (.skipperBeat n rw ww early lost) s = .next t ∧ (t.core n).skp = some o ∧
        (t.core n).flights = replFirst (fun g => g.ecls == 4 && g.phase == .started)
          (fun g => { g with seen := s.readAhead n early f.seen }) (s.core n).flights ∧
        SameMem s t ∧ SameUnits s t ∧ SameOutside s t ∧ OpFrame n [] s t) ∧
    (hasMask o.op = false → o.beat + 1 < o.beats →
      ∃ t o', exec (.skipperBeat n rw ww {} []) s = .next t ∧ (t.core n).skp = some o' ∧ o'.beat = o.beat + 1 ∧
        (∀ l r, l < 64 → r < 32 → t.lane n l r =
          (runKernel o.at.first o.at.last o.kernel ((s.beatLanes n o o.at (s.inViews n o o.at f.seen)).getD l (⟨[], false, false, false, {}⟩, {})).1).reg r) ∧
        SameMem s t ∧ t.acc = s.acc ∧ t.kern = s.kern ∧ SameOutside s t ∧ OpFrame n [.skpStat, .cvtStat, .cvtClipcnt] s t) ∧
    (hasMask o.op = true → o.beat + 1 < o.beats →
      ∃ t o', exec (.skipperBeat n rw ww {} []) s = .next t ∧ (t.core n).skp = some o' ∧ o'.beat = o.beat + 1 ∧
        o'.count = o.count + ((s.maskSel n o o.at f.seen).filter id).length ∧ t.lanes = s.lanes ∧ t.laneF = s.laneF ∧
        SameMem s t ∧ t.acc = s.acc ∧ t.kern = s.kern ∧ SameOutside s t ∧ OpFrame n [.cvtStat, .cvtClipcnt] s t) ∧
    (hasMask o.op = false → o.beat + 1 = o.beats → o.outs = [] → o.queue = [] →
      ∃ t, exec (.skipperBeat n rw ww {} []) s = .next t ∧ (t.core n).skp = none ∧
        (t.core n).flights = replFirst (fun g => g.ecls == 4 && g.phase == .started)
          (fun g => { g with phase := .done, status := 0, addr := 0, seen := {} }) (s.core n).flights ∧
        SameMem s t ∧ t.acc = s.acc ∧ SameOutside s t)

namespace Sys2Proof.Claims

/-- The input of a reduction passes its check: accumulator elements, or every byte of the stream. -/
abbrev InputGood (s : State) (n : Nat) (d : TDesc) : Prop :=
  if d.space = 3 then ∀ i j, i < 64 → j < 64 → s.accFails n (d.base % 8) i j = false
  else ∀ p, p < d.streamSize → s.cellStatus (d.addr n p) = 0

/-- A reduction on admitted operands (R192, R211, R213): in a destination of `k` elements per row, row by row without overlap and apart from
its input, element `q` of row `h` is value `q` of the reduced row; bytes outside the destination are as they were. -/
def Reduces (c : Nat → Nat → Early → List Nat → Instr) (op k : Nat) : Prop :=
  (∀ waits lost, ReadsAhead (fun n early => c n waits early lost) 5 op) ∧
  ∀ (s : State) (n waits : Nat) (f : Flight), StartsNext s n 5 op f → (redCheck f).1 = 0 →
    let v := s.seeing f.seen
    let i := (dAt f.slots 0).t
    let o := (dAt f.slots 1).t
    InputGood v n i → (∀ p, p < o.streamSize → s.cellStatus (o.addr n p) = 0) →
    ∃ t, exec (c n waits {} []) s = .next t ∧ EndsWith n 5 0 0 0xFF s t ∧
      (o.lil = 0 → o.ext.2.2.1 = 1 → o.ext.2.2.2 = 1 → 4 * k ≤ o.str.1 →
        (∀ p q, p < i.streamSize → q < o.streamSize → i.space = 3 ∨ i.addr n p / 8 ≠ o.addr n q / 8) → ∀ h q, h < i.rows → q < k →
        t.elem n o (h * k + q) =
          ((redRow op ((List.range i.ext.1).map fun j => (v.laneIn n i false (h * i.ext.1 + j)).1)).1.getD q 0#32).toNat) ∧
      (∀ a, (∀ p, p < o.streamSize → o.addr n p ≠ a) → t.byte a = s.byte a) ∧ SameUnits s t ∧ SameOutside s t ∧
      OpFrame n [.skpStat, .cvtStat, .cvtClipcnt] s t

end Sys2Proof.Claims

/-- SKKLD with an image that R231 and R232 admit: kernel k takes the image's words and its header, and its bit of SKP_KVAL is set; other
kernels are as they were. An image they do not admit leaves kernel memory as it was, and the operation ends with ILL.
RSUM, RMAX and RAMAX: each row's result stands in the destination (R213, R253, R254). -/
def Obligations.KernelLoadsAndReductionsComplete : Prop :=
  (∀ waits, ReadsAhead (fun n early => .skkld n waits early) 4 0x44) ∧
  (∀ (s : State) (n waits : Nat) (f : Flight), StartsNext s n 4 0x44 f → (s.core n).skp = none → (kldCheck f).1 = 0 →
    let v := s.seeing f.seen
    let d := (dAt f.slots 0).t
    let k := (vAt f.slots 1).toNat
    let image := (List.range d.ext.1).map fun j => BitVec.ofNat 32 (v.elem n d j)
    (∀ p, p < d.streamSize → v.cellStatus (d.addr n p) = 0) →
    (imageOk image = true →
      ∃ t, exec (.skkld n waits {}) s = .next t ∧ EndsWith n 4 0 0 0xFF s t ∧ t.flag .skpKval n 0 k = true ∧
        (∀ w, w + 2 < d.ext.1 → Sparse.get 0#32 t.kern (n * 4096 + k * 64 + w) = image.getD (w + 2) 0#32) ∧
        (∀ m j w, w < 64 → j < 64 → ¬(m = n ∧ j = k) →
          Sparse.get 0#32 t.kern (m * 4096 + j * 64 + w) = Sparse.get 0#32 s.kern (m * 4096 + j * 64 + w)) ∧
        Sparse.get {} t.kernHdr (n * 64 + k) = ⟨d.ext.1 - 2, kernelCycles (image.drop 2), fld (image.headD 0#32) 8 4,
          fld (image.headD 0#32) 12 2⟩ ∧
        (∀ j, j ≠ k → t.flag .skpKval n 0 j = s.flag .skpKval n 0 j) ∧
        SameMem s t ∧ t.acc = s.acc ∧ t.lanes = s.lanes ∧ SameOutside s t ∧ OpFrame n [.skpKval] s t) ∧
    (imageOk image = false →
      ∃ t, exec (.skkld n waits {}) s = .next t ∧ EndsWith n 4 12 0 d.slot s t ∧ SameUnits s t ∧ SameMem s t ∧ OpFrame n [] s t)) ∧
  (Reduces @Instr.rsum 0x50 1 ∧ Reduces @Instr.rmax 0x51 1 ∧ Reduces @Instr.ramax 0x52 2)

/-- RAMAX finds the first greatest element of a row of any length, a NaN above every number and +0 above −0; RMAX the same value; a NaN is
written as the canonical NaN (R254). -/
def Obligations.ReductionFindsTheFirstMaximum : Prop :=
  ∀ vs : List W32, vs ≠ [] →
    ∃ k, k < vs.length ∧ (∀ j, j < vs.length → maxKey (vs.getD j 0) ≤ maxKey (vs.getD k 0) ∧
        (maxKey (vs.getD j 0) = maxKey (vs.getD k 0) → k ≤ j)) ∧
      (redRow 0x52 vs).1 = [canon32 (vs.getD k 0), BitVec.ofNat 32 k] ∧ (redRow 0x51 vs).1 = [canon32 (vs.getD k 0)]

/-! ### DMA -/

namespace Sys2Proof.Claims

/-- Nothing holds an access back: the memories are open (R523), not being scrubbed (R448), no staging hold covers a write (R287), the
host holds no written unit and has modified no read one (R457). -/
abbrev MemoryOpen (s : State) (reads writes : List Nat) : Prop :=
  s.chip.closed = false ∧ (∀ a ∈ reads ++ writes, s.scrubbing a = false) ∧
    (∀ a ∈ writes, s.stageHeld a = false ∧ (inScratch a = false → s.hostHolds (a / 64 * 64) = 0)) ∧
    ∀ a ∈ reads, inScratch a = false → s.hostHolds (a / 64 * 64) ≠ 2

/-- An engine that is not halted has this operation next, its start admits it, and its destination is memory. -/
abbrev DmaReady (s : State) (n eng op : Nat) (f : Flight) : Prop :=
  (eng = 6 ∨ eng = 7) ∧ s.flag .dmaCtl n (eng - 6) 8 = false ∧ StartsNext s n eng op f ∧ (s.dmaCheck n eng f).1 = 0 ∧
    regionOf (dAt f.slots 1).t.base ≠ .control

/-- Sources are memory that passes its checks as the operation sees it (`v`), destinations may be written, and none of them lies
in a staging area. -/
abbrev WaysGood (s v : State) (reads writes : List Nat) : Prop :=
  (∀ a ∈ reads, regionOf a ≠ .control ∧ v.cellStatus a = 0) ∧ (∀ a ∈ writes, s.cellStatus a = 0 ∧ s.stagingDie a = none) ∧
    MemoryOpen s reads writes

/-- What a DMA operation leaves alone: as `OpFrame`, but its far accesses may count waits in other cores (R117). -/
def DmaFrame (n : Nat) (s t : State) : Prop :=
  (∀ r m i, r ∉ logRegs → r ∉ [.coreStat, .dmaStat, .spdConfl, .trcMem, .trcStat, .cntVal] ∨ m ≠ n ∧ r ∉ [.spdConfl, .cntVal] →
    t.rd r m i = s.rd r m i) ∧ SameCores n s t

/-- The addresses of a descriptor's elements and scale bytes. -/
def farAddrs (n : Nat) (d : TDesc) : List Nat := d.positions.map (d.addr n)

/-- An event in which a DMA operation reads part of its source ahead (R171), while nothing holds its far side back. -/
def DmaReadsAhead (c : Nat → Nat → Early → Instr) (op : Nat) : Prop :=
  ∀ (s : State) (n eng : Nat) (f : Flight) (early : Early), DmaReady s n eng op f → early ≠ {} →
    MemoryOpen s (farAddrs n (dAt f.slots 0).t) (farAddrs n (dAt f.slots 1).t) →
    ∃ t, exec (c n eng early) s = .next t ∧
      (t.core n).flights = replFirst (fun g => g.ecls == eng && g.phase == .queued)
        (fun g => { g with begun := true, seen := s.readAhead n early f.seen }) (s.core n).flights ∧
      SameMem s t ∧ SameUnits s t ∧ SameOutside s t ∧ OpFrame n [] s t

/-- A plain copy: every byte of the source's rows and scale plane stands at its place in the destination, other bytes are as they were. -/
def DmaCopies (c : Nat → Nat → Nat → List Nat → Early → List (Nat × Nat) → Instr) (op : Nat) : Prop :=
  (∀ waits mesh lost, DmaReadsAhead (fun n eng early => c n eng waits lost early mesh) op) ∧
  ∀ (s : State) (n eng waits : Nat) (mesh : List (Nat × Nat)) (f : Flight), DmaReady s n eng op f →
    let v := s.seeing f.seen
    let a := (dAt f.slots 0).t
    let b := (dAt f.slots 1).t
    let moves := (copyPairs a b).map fun p => (a.addr n p.1, b.addr n p.2)
    WaysGood s v (farAddrs n a) (farAddrs n b) →
    ∃ t, exec (c n eng waits [] {} mesh) s = .next t ∧ EndsWith n eng 0 0 0xFF s t ∧
      ((moves.map Prod.snd).Nodup → ∀ m ∈ moves, t.byte m.2 = v.byte m.1) ∧
      (∀ x, x ∉ moves.map Prod.snd → t.byte x = s.byte x) ∧ SameUnits s t ∧ SameOutside s t ∧ DmaFrame n s t

end Sys2Proof.Claims

/-- DLOAD, DSTORE and DCOPY copy their source; DLOADT loads a transposed array (R214, R215): an element of whole bytes whose destination
shares no byte stands at its transposed place.
Model's choices: log entries 26 and 66. -/
def Obligations.DmaOperationsComplete : Prop :=
  DmaCopies @Instr.dload 0x60 ∧ DmaCopies @Instr.dstore 0x61 ∧ DmaCopies (fun n eng waits lost early _ => .dcopy n eng waits lost early) 0x63 ∧
    (∀ waits mesh lost, DmaReadsAhead (fun n eng early => .dloadt n eng waits lost early mesh) 0x62) ∧
    ∀ (s : State) (n eng waits : Nat) (mesh : List (Nat × Nat)) (f : Flight), DmaReady s n eng 0x62 f →
      let v := s.seeing f.seen
      let a := (dAt f.slots 0).t
      let b := (dAt f.slots 1).t
      WaysGood s v (farAddrs n a) (farAddrs n b) → v.tilesPass n a = true →
      ∃ t, exec (.dloadt n eng waits [] {} mesh) s = .next t ∧ EndsWith n eng 0 0 0xFF s t ∧
        (b.w % 8 = 0 → (farAddrs n b).Nodup → ∀ k, k < b.total →
          t.elem n b k = v.elem n a (transposed a b k)) ∧
        (∀ x, x ∉ farAddrs n b → t.byte x = s.byte x) ∧ SameUnits s t ∧ SameOutside s t ∧ DmaFrame n s t


/-! ### Fabric put/get unit -/

namespace Sys2Proof.Claims

/-- What sending on the fabric leaves alone: memory, tiles, kernels, lanes, the host interface, transfers of other chips, Bores, gate
and Ebb dies, the control complex, accesses held, and every register but marks of state, drop counts, the fault log and the state of a
port whose keys are spent (R369). -/
def FabricFrame (n : Nat) (rs : List Reg) (s t : State) : Prop :=
  SameRegs (rs ++ [.coreStat, .dmaStat, .spdConfl, .trcMem, .trcStat, .cntVal, .lnkDrop, .lnkStat] ++ logRegs) s t ∧
    (∀ p, SameBits .lnkStat p 0 (~~~7#64) s t) ∧ SameMem s t ∧ t.cxl = s.cxl ∧ t.held = s.held ∧
    SameUnits s t ∧ SameCores n s t ∧ t.rings = s.rings ∧ t.cqs = s.cqs ∧ t.snoop = s.snoop ∧ t.biOut = s.biOut ∧
    t.xfers = s.xfers ∧ t.bores = s.bores ∧ t.gate = s.gate ∧ t.ebbs = s.ebbs ∧ t.chip = s.chip

/-- The operation that was next on engine 8 has started. -/
def Started (n : Nat) (s t : State) : Prop :=
  (t.core n).flights = replFirst (fun g => g.ecls == 8 && g.phase == .queued)
    (fun g => { g with phase := .started, begun := true, seen := {} }) (s.core n).flights

/-- The control operand keeps its unused bits clear (Table 6.11). -/
abbrev CtlGood (v : W64) : Prop := v &&& ~~~0xFF7F#64 = 0#64

/-- A transfer of core `n`'s operation `f` just opened: its number is the core's next, nothing has answered it. -/
def Opened (s : State) (n : Nat) (f : Flight) (x : Source) : Prop :=
  x.core = n ∧ x.fid = f.fid ∧ x.got = 0 ∧ x.busy = [] ∧ x.gen = s.fd .rteGen 0 0 0 2

end Sys2Proof.Claims

/-- PUT, GET and RSIG with a legal route start (R216, R217, R338, R339, R350): PUT opens a transfer whose packets of at most 4 KiB carry the
source stream's bytes in order; GET one that asks for the destination's range; RSIG one whose packet carries the mark. What a PUT has read
ahead of its start it sends as it read it (R171).
Model's choices: log entry 31. -/
def Obligations.FabricTransfersStart : Prop :=
  (∀ waits, ReadsAhead (fun n early => .put n waits early) 8 0x70) ∧
  ∀ (s : State) (n waits : Nat) (f : Flight) (w : W64),
    let d := (dAt f.slots 0).t
    let v := vAt f.slots 3
    let far := (vAt f.slots 1).toNat % 2 ^ 44
    CtlGood v →
    (StartsNext s n 8 0x70 f → d.check ⟨[0], false⟩ = 0 → s.routeFor (vAt f.slots 2) 0 far = some w →
      (∀ p, p < d.streamSize → (s.seeing f.seen).cellStatus (d.addr n p) = 0) →
      ∃ t x, exec (.put n waits {}) s = .next t ∧ Started n s t ∧ t.sources = s.sources ++ [x] ∧ Opened s n f x ∧
        x.xid = (s.core n).nextXid ∧ x.data = false ∧ x.want = wantedBy w ∧
        x.sent.flatMap (fun k => k.data) = (List.range d.streamSize).map (fun p => (s.seeing f.seen).byte (d.addr n p)) ∧
        (∀ k ∈ x.sent, k.kind = 0 ∧ k.route = w ∧ k.sagt = n ∧ k.xid = x.xid ∧ k.tlen = d.streamSize ∧ k.plen ≤ 4096 ∧
          k.plen = k.data.length ∧ k.rmv = v.getLsbD 6 ∧ k.rcore = fld v 8 8 ∧ k.rmark = fld v 0 6 ∧ k.dom = s.domain) ∧
        FabricFrame n [] s t) ∧
    (StartsNext s n 8 0x71 f → v.getLsbD 6 = false → d.check ⟨[0], true⟩ = 0 → s.routeFor (vAt f.slots 2) 1 far = some w →
      ∃ t x k, exec (.get n) s = .next t ∧ Started n s t ∧ t.sources = s.sources ++ [x] ∧ Opened s n f x ∧
        x.xid = (s.core n).nextXid ∧ x.data = true ∧ x.want = d.streamSize ∧ x.base = far ∧ x.sent = [k] ∧ k.kind = 1 ∧
        k.addr = far ∧ k.tlen = d.streamSize ∧ k.plen = 0 ∧ k.route = w ∧
        (∀ p, p < d.streamSize → x.dst.getD p none = if p ∈ d.positions then some (d.addr n p) else none) ∧
        FabricFrame n [] s t) ∧
    (StartsNext s n 8 0x74 f → s.routeFor (vAt f.slots 2) 4 0 = some w →
      ∃ t x k, exec (.rsig n) s = .next t ∧ Started n s t ∧ t.sources = s.sources ++ [x] ∧ Opened s n f x ∧
        x.data = false ∧ x.want = wantedBy w ∧ x.sent = [k] ∧ k.kind = 4 ∧ k.rmv = v.getLsbD 6 ∧ k.rcore = fld v 8 8 ∧
        k.rmark = fld v 0 6 ∧ k.route = w ∧ FabricFrame n [] s t)

/-- BLD and BST with admitted descriptors and a route to every chip they name start, one transfer for each run of consecutive board
addresses (R218, R440, R441, R442).
Model's choices: log entry 31. -/
def Obligations.BoardTransfersStart : Prop :=
  (∀ waits, ReadsAhead (fun n early => .bst n waits early) 8 0x73) ∧
  ∀ (s : State) (n waits : Nat) (f : Flight),
    let a := (dAt f.slots 0).t
    let b := (dAt f.slots 1).t
    (StartsNext s n 8 0x72 f → boardCheck b a b false = (0, 0xFF) →
      let runs := boardRuns ((copyPairs b a).map fun p => (b.offset p.1, a.addr n p.2))
      (∀ r ∈ runs, (s.boardRoute ((r.headD (0, 0)).1 / 2 ^ 44) 5 ((r.headD (0, 0)).1 % 2 ^ 44)).isSome = true) →
      ∃ t xs, exec (.bld n) s = .next t ∧ Started n s t ∧ t.sources = s.sources ++ xs ∧ xs.length = runs.length ∧
        (∀ x ∈ xs, Opened s n f x ∧ x.data = true ∧ x.want = x.dst.length ∧ ∃ k, x.sent = [k] ∧ k.kind = 5) ∧
        xs.flatMap (fun x => x.dst) = (runs.flatMap id).map (fun p => some p.2) ∧ FabricFrame n [] s t) ∧
    (StartsNext s n 8 0x73 f → boardCheck a b b true = (0, 0xFF) →
      let pairs := (copyPairs a b).map fun p => (b.offset p.2, a.addr n p.1)
      let runs := boardRuns pairs
      (∀ r ∈ runs, (s.boardRoute ((r.headD (0, 0)).1 / 2 ^ 44) 6 ((r.headD (0, 0)).1 % 2 ^ 44)).isSome = true) →
      (∀ p ∈ pairs, (s.seeing f.seen).cellStatus p.2 = 0) →
      ∃ t xs, exec (.bst n waits {}) s = .next t ∧ Started n s t ∧ t.sources = s.sources ++ xs ∧ xs.length = runs.length ∧
        (∀ x ∈ xs, Opened s n f x ∧ x.data = false ∧ x.want = 1 ∧ ∀ k ∈ x.sent, k.kind = 6 ∧ k.plen ≤ 4096) ∧
        xs.flatMap (fun x => x.sent.flatMap fun k => k.data) = pairs.map (fun p => (s.seeing f.seen).byte p.2) ∧ FabricFrame n [] s t)

/-! ### Packets -/

namespace Sys2Proof.Claims

/-- Packet `i` of those that wait here may be performed: no earlier one that Table 10.10 orders before it still waits. -/
abbrev Takes (s : State) (i kind : Nat) (k : Packet) : Prop :=
  s.inbox[i]? = some k ∧ k.kind = kind ∧
    ∀ j ∈ s.inbox.take i, ¬(j.src = k.src ∧ j.sagt = k.sagt ∧ pktClass j = pktClass k ∧ j.route = k.route ∧ sprays k.route = false)

/-- The first transfer of core `k.sagt` with the packet's number that expects data (or not) is `x`. -/
abbrev Belongs (s : State) (k : Packet) (data : Bool) (x : Source) : Prop :=
  s.sources.find? (fun y => y.core == k.sagt && y.xid == k.xid && y.data == data) = some x

/-- No other transfer of the operation is open. -/
abbrev LastTransfer (s : State) (x : Source) : Prop := ∀ y ∈ s.sources, y.core = x.core → y.fid = x.fid → y.xid = x.xid

/-- The operation of a transfer, as it stands in its core. -/
def flightOf (s : State) (x : Source) : Option Flight := (s.core x.core).flights.find? fun f => f.fid == x.fid

end Sys2Proof.Claims

/-- COMPLETION, GET_DATA, BUSY_RESEND and SOURCE_TIMEOUT at the source of a transfer (R350, R352, R354, R553). A completion counts; the one that
makes the transfer whole ends its operation; a BUSY answer, to a request for data too, marks its packet, which is sent again later and counted in
RTE_BUSYCNT. GET data is
written where the requester's range maps. A transfer idle for XTO ends with REMOTE.
Model's choices: log entry 33. -/
def Obligations.SourceCountsResponses : Prop :=
  (∀ (s : State) (i : Nat) (k : Packet) (x : Source), Takes s i 3 k → Belongs s k false x →
    (k.status = 0 → x.got + 1 = x.want → LastTransfer s x → ∀ f, flightOf s x = some f →
      ∃ t f', exec (.completion i) s = .next t ∧ t.inbox = s.inbox.eraseIdx i ∧ x ∉ t.sources ∧ flightOf t x = some f' ∧
        f' = { f with phase := .done } ∧ SameMem s t ∧ SameUnits s t ∧ SameRegs [.coreStat, .dmaStat] s t) ∧
    (k.status = 0 → x.got + 1 ≠ x.want →
      ∃ t, exec (.completion i) s = .next t ∧ t.inbox = s.inbox.eraseIdx i ∧
        t.sources = replFirst x.is (fun y => { y with got := y.got + 1 }) s.sources ∧ t.cores = s.cores ∧ SameRegs [] s t ∧
        SameMem s t)) ∧
  (∀ (s : State) (i : Nat) (k : Packet) (x : Source), Takes s i 3 k → k.status = 13 →
    (Belongs s k false x ∨ (∀ y, ¬Belongs s k false y) ∧ Belongs s k true x) →
    ∃ t, exec (.completion i) s = .next t ∧ t.inbox = s.inbox.eraseIdx i ∧ t.cores = s.cores ∧
      t.sources = replFirst x.is (fun y => { y with busy := y.busy ++ (y.sent.find? fun p => p.addr == k.addr).toList }) s.sources ∧
      SameRegs [] s t ∧ SameMem s t) ∧
  (∀ (s : State) (i waits : Nat) (k : Packet) (x : Source), Takes s i 2 k → Belongs s k true x → k.status = 0 →
    x.got + k.data.length < x.want →
    let at_ (j : Nat) : Option Nat := x.dst.getD (k.addr - x.base + j) none
    (∀ j a, j < k.data.length → at_ j = some a → s.cellStatus a = 0 ∧ inScratch a = true) →
    (∀ j l a, j < l → l < k.data.length → at_ j = some a → at_ l ≠ some a) →
    ∃ t, exec (.getData i waits []) s = .next t ∧ t.inbox = s.inbox.eraseIdx i ∧
      t.sources = replFirst x.is (fun y => { y with got := y.got + k.data.length }) s.sources ∧
      (∀ j a, j < k.data.length → at_ j = some a → t.byte a = k.data.getD j 0) ∧
      (∀ a, (∀ j, j < k.data.length → at_ j ≠ some a) → t.byte a = s.byte a) ∧ t.cores = s.cores ∧ SameUnits s t ∧
      SameRegs [.spdConfl, .cntVal] s t) ∧
  (∀ (s : State) (sagt xid : Nat) (x : Source),
    s.sources.find? (fun y => y.core == sagt && y.xid == xid && !y.busy.isEmpty) = some x →
    ∃ t, exec (.busyResend sagt xid) s = .next t ∧ t.sources = replFirst x.is (fun y => { y with busy := [] }) s.sources ∧
      t.fd .rteBusycnt 0 0 0 32 = min (s.fd .rteBusycnt 0 0 0 32 + x.busy.length) (2 ^ 32 - 1) ∧ SameMem s t ∧ SameUnits s t ∧
      t.cores = s.cores ∧ SameRegs (.rteBusycnt :: .lnkDrop :: .lnkStat :: logRegs) s t) ∧
  (∀ (s : State) (n xid idle : Nat) (x : Source) (f : Flight), s.sources.find? (fun y => y.core == n && y.xid == xid) = some x →
    s.fd .rteXcfg 0 0 32 32 ≤ idle → flightOf s x = some f → f.status = 0 →
    ∃ t, exec (.sourceTimeout n xid idle) s = .next t ∧ (∀ y ∈ t.sources, ¬(y.core = n ∧ y.fid = x.fid)) ∧
      flightOf t x = some { f with phase := .done, status := 11, addr := 0 } ∧
      t.fd .fltSeq 0 0 0 32 = (s.fd .fltSeq 0 0 0 32 + 1) % 2 ^ 32 ∧ SameMem s t ∧ SameUnits s t ∧
      SameRegs (.coreStat :: .dmaStat :: logRegs) s t)

namespace Sys2Proof.Claims

/-- A packet to one place in this chip's open, writable memory, outside any staging area, whose bytes may all be written. -/
abbrev OneCopyGood (s : State) (k : Packet) : Prop :=
  mcastOf k.route < 2 ∧ k.data.length = k.plen ∧ ∀ a, k.addr ≤ a → a < k.addr + k.plen →
    (regionOf a = .hbm ∨ inScratch a = true) ∧ s.cellStatus a = 0 ∧ s.stagingDie a = none ∧ s.scrubbing a = false ∧
      (inScratch a = false → s.hostHolds (a / 64 * 64) = 0)

/-- The entry of a packet's transfer in the table. -/
def entryOf (s : State) (k : Packet) : Option Xfer :=
  s.xfers.find? fun x => x.first.src == k.src && x.first.sagt == k.sagt && x.first.xid == k.xid

/-- A packet that would open an entry while the table is full writes nothing and is answered BUSY (R352). -/
def BusyWhenFull (c : Nat → Instr) (kind : Nat) : Prop :=
  ∀ (s : State) (i : Nat) (k : Packet), Takes s i kind k → entryOf s k = none → 16384 ≤ s.xfers.length →
    exec (c i) s = .next (State.reply { s with inbox := s.inbox.eraseIdx i } k 3 13 k.addr [] true)

/-- A data packet is written and counted: while bytes of its transfer are missing its entry holds their count; with the last byte the
entry is freed, and the mark is signalled if the transfer names one and its status is OK. -/
def Writes (c : Nat → Nat → Instr) (kind : Nat) : Prop :=
  (∀ waits, BusyWhenFull (fun i => c i waits) kind) ∧
  ∀ (s : State) (i waits : Nat) (k : Packet), Takes s i kind k → s.chip.closed = false → OneCopyGood s k →
    (entryOf s k ≠ none ∨ s.xfers.length < 16384) →
    let e := (entryOf s k).getD { first := k, count := 0, status := 0 }
    ∃ t, exec (c i waits) s = .next t ∧ OnlyBytes k.addr k.data s t ∧ SameUnits s t ∧
      (e.count + k.plen < e.first.tlen → t.inbox = s.inbox.eraseIdx i ∧
        (∃ e', entryOf t k = some e' ∧ e'.first = e.first ∧ e'.count = e.count + k.plen ∧ e'.status = e.status) ∧
        (∀ n m, t.markCount n m = s.markCount n m)) ∧
      (e.count + k.plen = e.first.tlen → entryOf t k = none ∧
        ∀ n m, t.markCount n m =
          if k.rmv = true ∧ e.status = 0 ∧ n = k.rcore ∧ m = k.rmark then min (s.markCount n m + 1) 0xFFFF else s.markCount n m)

/-- A request for a readable range of open memory that passes its check is answered with GET data packets, in order, that carry its bytes, each as `reply`
makes it: on the way back, with the requester's transfer number. -/
def Answers (c : Nat → Nat → Instr) (kind : Nat) : Prop :=
  ∀ (s : State) (i waits : Nat) (k : Packet), Takes s i kind k → s.chip.closed = false → 0 < k.tlen →
    (∀ a, k.addr ≤ a → a < k.addr + k.tlen → (regionOf a = .hbm ∨ regionOf a = .strandline ∨ inScratch a = true) ∧
      s.cellStatus a = 0 ∧ s.scrubbing a = false ∧ (inScratch a = false → s.hostHolds (a / 64 * 64) ≠ 2)) →
    ∃ (t : State) (ps : List Packet), exec (c i waits) s = .next t ∧ ps.flatMap (fun p => p.data) = s.bytes k.addr k.tlen ∧
      (∀ p ∈ ps, p.data.length ≤ 4096 ∧ p.data.length = p.plen) ∧
      (ps.head?.map fun p => p.addr) = some k.addr ∧
      t = ps.foldl (fun u p => u.reply k 2 0 p.addr p.data p.last)
        (let u : State := { s with inbox := s.inbox.eraseIdx i }
         if inScratch k.addr then u.waited (spadCore k.addr) 9 waits else u)

end Sys2Proof.Claims

/-- PUT_DATA, BOARD_STORE_DATA, MARK_SIGNAL and TRANSFER_TIMEOUT at the destination (R217, R350, R352, R353, R442): data is written and
counted, a mark counts, and what finds the table full is answered BUSY; an entry without a packet for XTO is freed, counted and recorded.
GET_REQUEST and BOARD_LOAD_REQUEST answer with the range's bytes (R354, R441), and a range outside readable memory with ADDR (R216).
Model's choices: log entries 33 and 34. -/
def Obligations.DestinationCountsAndAnswers : Prop :=
  (Writes (fun i w => .putData i w [] []) 0 ∧ Writes (fun i w => .boardStoreData i w []) 6 ∧
  BusyWhenFull .markSignal 4 ∧
  (∀ (s : State) (i : Nat) (k : Packet), Takes s i 4 k → (entryOf s k ≠ none ∨ s.xfers.length < 16384) →
    ∃ t, exec (.markSignal i) s = .next t ∧
      (∀ n m, t.markCount n m = if n = k.rcore ∧ m = k.rmark then min (s.markCount n m + 1) 0xFFFF else s.markCount n m) ∧
      SameMem s t ∧ SameUnits s t ∧ t.cores = s.cores ∧ t.xfers = s.xfers ∧ t.sources = s.sources) ∧
  (∀ (s : State) (src sagt xid idle : Nat) (x : Xfer),
    s.xfers.find? (fun x => x.first.src == src && x.first.sagt == sagt && x.first.xid == xid) = some x →
    s.fd .rteXcfg 0 0 32 32 ≤ idle →
    ∃ t, exec (.transferTimeout src sagt xid idle) s = .next t ∧ t.xfers = s.xfers.erase x ∧
      t.fd .rteXstat 0 0 0 15 = (s.xfers.length - 1) % 2 ^ 15 ∧
      t.fd .rteXtocnt 0 0 0 32 = min (s.fd .rteXtocnt 0 0 0 32 + 1) (2 ^ 32 - 1) ∧
      t.fd .fltSeq 0 0 0 32 = (s.fd .fltSeq 0 0 0 32 + 1) % 2 ^ 32 ∧ SameMem s t ∧ SameUnits s t ∧ t.cores = s.cores ∧
      SameRegs (.rteXstat :: .rteXtocnt :: logRegs) s t)) ∧
  (Answers .getRequest 1 ∧ Answers .boardLoadRequest 5 ∧
    ∀ (s : State) (i waits : Nat) (k : Packet) (a : Nat), k.addr ≤ a → a < k.addr + k.tlen →
      ¬(regionOf a = .hbm ∨ regionOf a = .strandline ∨ inScratch a = true) →
      (Takes s i 1 k → exec (.getRequest i waits) s =
        .next (State.reply { s with inbox := s.inbox.eraseIdx i } k 2 1 k.addr [] true)) ∧
      (Takes s i 5 k → exec (.boardLoadRequest i waits) s =
        .next (State.reply { s with inbox := s.inbox.eraseIdx i } k 2 1 k.addr [] true)))

namespace Sys2Proof.Claims

/-- The oldest packet of the VC has left its port's buffer; memory and cores are as they were. -/
abbrev LeftBuffer (p vc : Nat) (s t : State) : Prop :=
  (t.port p).arrived = dropFirst (fun e => e.1 == vc) (s.port p).arrived ∧ SameMem s t ∧ t.cores = s.cores

/-- The packet was discarded with a fault record, and counted in RTE_DOMERR if it is of a foreign domain (R361). -/
def Discarded (foreign : Bool) (s t : State) : Prop :=
  t.inbox = s.inbox ∧ t.fd .fltSeq 0 0 0 32 = (s.fd .fltSeq 0 0 0 32 + 1) % 2 ^ 32 ∧
    t.fd .rteDomerr 0 0 0 32 = min (s.fd .rteDomerr 0 0 0 32 + b2n foreign) (2 ^ 32 - 1) ∧ SameRegs (.rteDomerr :: logRegs) s t

/-- The packet waits at a port to be sent on a VC: VC6 or VC7, or one of its class, the odd one past the date line (R344). -/
def Queued (q vc : Nat) (k : Packet) (dl : Bool) (s t : State) : Prop :=
  (vc = (if pktIsResponse k then 7 else 6) ∨ vc = 2 * pktClass k + b2n dl) ∧
    ((∃ last, (t.port q).packets = (s.port q).packets ++ [(vc, last, k)]) ∨ (t.port q).later = (s.port q).later ++ [(vc, k)])

end Sys2Proof.Claims

/-- ROUTER_HOP (R324, R341, R342, R344, R355, R361). The oldest packet of the VC leaves the buffer and its flits' credits go back. On a
torus port a packet of this chip's domain in its last hop is delivered here; one that this chip neither belongs to nor carries, and a carried one
whose path ends here, is discarded, counted in RTE_DOMERR and recorded; every other one goes on, at a segment's end along the next one,
through the port its PSEL names if that is UP (of both ports of a direction, the one with more credits), on a VC of R344, or is counted in LNK_DROP and recorded; of an axis multicast's last segment this
chip's copy is delivered too. A packet of a KIND that has no business on its port is discarded and recorded. A shore or buddy port delivers.
Model's choices: log entry 32. -/
def Obligations.RouterDeliversAndRefuses : Prop :=
  ∀ (s : State) (p vc : Nat) (k : Packet), ((s.port p).arrived.find? fun e => e.1 == vc) = some (vc, k) →
    let own := k.dom ≠ 0 ∧ k.dom = s.fd .rteDomain 0 0 0 16
    let transit := k.dom ≠ 0 ∧ ∃ i < 4, k.dom = s.fd .rteTransit 0 0 (16 * i) 16
    let g := segOf k.route k.segi
    let ended := g.hops ≤ k.hop + 1
    let final := (pathOf k.route).length ≤ k.segi + 1
    let here := { k with hop := k.hop + 1, dl := k.dl || s.coordOn g.axis == s.dateline g.axis g.dir }
    (p < 16 → k.kind < 9 →
      (own → ended → final → ∃ t, exec (.routerHop p vc) s = .next t ∧ LeftBuffer p vc s t ∧ t.inbox = s.inbox ++ [here] ∧
        (∀ q, q ≠ p → t.port q = s.port q) ∧ SameRegs [] s t) ∧
      (¬own → ¬transit ∨ ended ∧ final → ∃ t, exec (.routerHop p vc) s = .next t ∧ LeftBuffer p vc s t ∧ Discarded true s t ∧
        ∀ q, q ≠ p → t.port q = s.port q) ∧
      (own ∨ transit → ¬(ended ∧ final) →
        let on := if ended then { here with segi := k.segi + 1, hop := 0, dl := false } else here
        let h := segOf on.route on.segi
        let copy : Prop := mcastOf k.route = 1 ∧ final
        let q := 4 * h.axis + 2 * h.dir
        let past := on.dl || s.nextCoord h.axis h.dir == s.dateline h.axis h.dir
        h.psel < 3 → ∃ t vc', exec (.routerHop p vc) s = .next t ∧ LeftBuffer p vc s t ∧
          t.inbox = s.inbox ++ (if copy ∧ own then [here] else []) ∧
          t.fd .rteDomerr 0 0 0 32 = min (s.fd .rteDomerr 0 0 0 32 + (if copy ∧ ¬own then 1 else 0)) (2 ^ 32 - 1) ∧
          (∀ r, (if h.psel = 2 then s.portUp q = true ∨ s.portUp (q + 1) = true else s.portUp (q + h.psel) = true) →
            t.fd .lnkDrop r 0 0 32 = s.fd .lnkDrop r 0 0 32) ∧
          (h.psel < 2 → s.portUp (q + h.psel) = true →
            Queued (q + h.psel) vc' on past s t) ∧
          (h.psel < 2 → s.portUp (q + h.psel) = false →
            t.fd .lnkDrop (q + h.psel) 0 0 32 = min (s.fd .lnkDrop (q + h.psel) 0 0 32 + 1) (2 ^ 32 - 1) ∧
            t.fd .fltSeq 0 0 0 32 = (s.fd .fltSeq 0 0 0 32 + 1 + (if copy ∧ ¬own then 1 else 0)) % 2 ^ 32) ∧
          (h.psel = 2 → ∀ r, r < 2 → s.portUp (q + r) = true → s.portUp (q + 1 - r) = false →
            Queued (q + r) vc' on past s t) ∧
          (h.psel = 2 → s.portUp q = true → s.portUp (q + 1) = true →
            Queued (if (s.port q).credits.getD vc' 0 < (s.port (q + 1)).credits.getD vc' 0 then q + 1 else q) vc' on past s t) ∧
          (h.psel = 2 → s.portUp q = false → s.portUp (q + 1) = false → ∃ r, r < 2 ∧
            t.fd .lnkDrop (q + r) 0 0 32 = min (s.fd .lnkDrop (q + r) 0 0 32 + 1) (2 ^ 32 - 1)) ∧
          SameRegs (.rteDomerr :: .lnkDrop :: .lnkStat :: logRegs) s t)) ∧
    (p < 20 → 11 ≤ k.kind ∨ (if p = 16 ∨ p = 17 then k.kind ≠ 10 else k.kind = 9 ∨ k.kind = 10) →
      ∃ t, exec (.routerHop p vc) s = .next t ∧ LeftBuffer p vc s t ∧ Discarded false s t) ∧
    (16 ≤ p → p < 20 → (if p < 18 then k.kind = 10 else k.kind < 9) →
      (own → ∃ t, exec (.routerHop p vc) s = .next t ∧ LeftBuffer p vc s t ∧ t.inbox = s.inbox ++ [k] ∧ SameRegs [] s t) ∧
      (¬own → ∃ t, exec (.routerHop p vc) s = .next t ∧ LeftBuffer p vc s t ∧ Discarded true s t)) ∧
    (p < 18 → vc < 8 → (∀ n ∈ (s.port p).rxNext, n < 4096) →
      ∃ t b l, exec (.routerHop p vc) s = .next t ∧ t.outbox = s.outbox ++ .flit p b :: l ∧ (linkHdr b).ft = 1 ∧
        (linkHdr b).crVc = vc ∧ (linkHdr b).crCnt = min 31 (pktFlits k))

/-- ADVANCE, FENCE_REQ and FENCE_DONE by an agent that may write the router block (R358, R359): the generation counts up unless packets of the next
label are outstanding, which sets the status bit instead; a request clears DONE; DONE is set once nothing of an old generation is outstanding. -/
def Obligations.GenerationsAndFences : Prop :=
  ∀ (s : State) (a : Agent), a = .shingle ∨ a = .headland →
    (s.outstanding (fun g => g == (s.fd .rteGen 0 0 0 16 + 1) % 4) = false →
      ∃ t, exec (.advance a) s = .next t ∧ t.fd .rteGen 0 0 0 16 = (s.fd .rteGen 0 0 0 16 + 1) % 2 ^ 16 ∧ SameRegs [.rteGen] s t ∧
        OnlyRegs s t) ∧
    (s.outstanding (fun g => g == (s.fd .rteGen 0 0 0 16 + 1) % 4) = true →
      ∃ t, exec (.advance a) s = .next t ∧ t.flag .rteStat 0 0 0 = true ∧ SameRegs [.rteStat] s t ∧ OnlyRegs s t) ∧
    (∃ t, exec (.fenceReq a) s = .next t ∧ t.flag .rteFence 0 0 1 = false ∧ SameRegs [.rteFence] s t ∧ OnlyRegs s t) ∧
    (s.outstanding (fun g => g != s.fd .rteGen 0 0 0 2) = false → s.holdsOld = false →
      ∃ t, exec .fenceDone s = .next t ∧ t.flag .rteFence 0 0 1 = true ∧ SameRegs [.rteFence] s t ∧ OnlyRegs s t) ∧
    (s.outstanding (fun g => g != s.fd .rteGen 0 0 0 2) = true ∨ s.holdsOld = true → exec .fenceDone s = .next s)

/-! ### Command rings and completion queues -/

namespace Sys2Proof.Claims

/-- The core is at a program boundary and may act on a dispatch record (R143). -/
abbrev AtBoundary (s : State) (n : Nat) : Prop :=
  n % 8 < s.chip.waves ∧ (s.core n).running = false ∧ (s.core n).halted = false ∧ s.flag .coreCtl n 0 0 = false

/-- The ring engine may take a record of ring `r` for its core: none waits there, the core is neither halted nor stopped, the chip not stranded, no lower ring of the
core has a record (R464 to R467, R478). -/
abbrev RingTurn (s : State) (r : Nat) : Prop :=
  s.isStranded = false ∧ r / 128 % 8 < s.chip.waves ∧ (s.core (r / 128)).disp = none ∧ (s.core (r / 128)).halted = false ∧
    s.flag .coreCtl (r / 128) 0 0 = false ∧ s.fd .cxlRingstat 0 r 32 2 = 1 ∧
    s.fd .cxlRingstat 0 r 16 16 ≠ s.fd .cxlRingstat 0 r 0 16 ∧
    ∀ k l, k < r % 128 → s.ringLook (r / 128 * 128 + k) ≠ .slots l

/-- What the ring engine leaves alone. -/
def RingFrame (rs : List Reg) (s t : State) : Prop :=
  SameRegs rs s t ∧ SameUnits s t ∧ t.ports = s.ports ∧ t.inbox = s.inbox ∧ t.xfers = s.xfers ∧ t.sources = s.sources ∧
    t.bores = s.bores ∧ t.gate = s.gate ∧ t.ebbs = s.ebbs ∧ t.chip = s.chip ∧ t.snoop = s.snoop

end Sys2Proof.Claims

/-- DISPATCH_RECORD, PATCH_APPLY, REPLAY_START and PHASE_RETRY (R143, R144, R464 to R467): an acceptable record that its ring's doorbells cover is taken with its
fields, HEAD still before it; each patch sets its parameter register; the replay starts at the entry point in the active half, its index one above the
last modulo 256, and HEAD passes the record; a slot whose phase stays wrong for PHTO µs makes the ring ERR.
Model's choices: log entry 48. -/
def Obligations.RingEngineRunsRecords : Prop :=
  (∀ (s : State) (r : Nat) (l : List (List Byte)), RingTurn s r → s.ringLook r = .slots l → recordBad l = false → stepRecOf l = none →
    MemoryOpen s ((List.range (r % 128 + 1)).flatMap (fun k => s.ringReads (r / 128 * 128 + k)) ++
      (List.range l.length).map ((s.ring r).slotAddr (s.ringHead r))) [] → 0 < l.length →
    ∃ t, exec (.dispatchRecord r) s = .next t ∧
      (t.core (r / 128)).disp = some (dispatchOf r ((s.ringHead r + l.length) % (s.ring r).size) l) ∧
      (t.ring r).taken = l.length ∧ t.ringHead r = s.ringHead r ∧ SameMem s t ∧ SameCores (r / 128) s t ∧
      RingFrame [.coreStat, .dmaStat] s t) ∧
  (∀ (s : State) (n : Nat) (d : Dispatch) (p : Nat × W64) (ps : List (Nat × W64)), AtBoundary s n → (s.core n).disp = some d →
    d.patches = p :: ps →
    ∃ t, exec (.patchApply n) s = .next t ∧ OneWord .coreParam n p.1 p.2 s t ∧ (t.core n).disp = some { d with patches := ps } ∧
      SameCoreRegs n [.coreParam, .coreStat, .dmaStat] s t ∧ SameCores n s t ∧ SameMem s t ∧ SameUnits s t ∧ SameOutside s t) ∧
  (∀ (s : State) (n cc : Nat) (d : Dispatch), AtBoundary s n → (s.core n).disp = some d → d.patches = [] →
    let idx := (s.fd .coreStat n 0 24 8 + 1) % 256
    ∃ t, exec (.replayStart n cc) s = .next t ∧ (t.core n).running = true ∧ (t.core n).pc = d.entry ∧ (t.core n).base = cc ∧
      (t.core n).half = s.fd .coreImstat n 0 0 1 ∧ (t.core n).disp = none ∧ t.fd .coreStat n 0 24 8 = idx ∧
      (t.core n).hzw = s.flag .coreDbg n 0 0 ∧ (∃ q, (t.core n).replays = (s.core n).replays ++ [q] ∧ q.disp = d ∧ q.idx = idx) ∧
      t.fd .cxlRingstat 0 d.ring 0 16 =
        (s.fd .cxlRingstat 0 d.ring 0 16 + (s.ring d.ring).taken) % 2 ^ (s.ring d.ring).log2 % 2 ^ 16 ∧
      SameMem s t ∧ SameUnits s t ∧ SameCores n s t ∧ SameRegs [.coreStat, .dmaStat, .cxlRingstat, .trcMem, .trcStat] s t) ∧
  (∀ (s : State) (r waited a : Nat), s.ringLook r = .phase a → s.isStranded = false → MemoryOpen s (s.ringReads r) [] →
    (s.fd .cxlRcfg 0 0 0 32 ≠ 0 → s.fd .cxlRcfg 0 0 0 32 ≤ waited →
      ∃ t, exec (.phaseRetry r waited) s = .next t ∧ t.fd .cxlRingstat 0 r 32 2 = 2 ∧ t.flag .cxlStat 0 0 2 = true ∧
        t.fd .fltSeq 0 0 0 32 = (s.fd .fltSeq 0 0 0 32 + 1) % 2 ^ 32 ∧ SameMem s t ∧ t.cores = s.cores ∧
        RingFrame (.cxlRingstat :: .cxlStat :: logRegs) s t) ∧
    (waited < s.fd .cxlRcfg 0 0 0 32 → exec (.phaseRetry r waited) s = .next s))

/-- COMPLETION_RECORD and MSI_X_INTERRUPT (R469, R472, R473, Table 14.6): the completion of the oldest finished replay that wants one is written at TAIL of an ACTIVE
queue in HBM with sequence number, ring, HEAD, status and replay index at their places, TAIL moves on, and a vector falls due if asked; a due
vector, of a queue in host memory one whose write is observed, is sent, or becomes pending if the table masks it.
Model's choices: log entries 49, 50 and 72. -/
def Obligations.CompletionsAreWritten : Prop :=
  (∀ (s : State) (n : Nat) (r : Replay) (rs : List Replay), (s.core n).replays = r :: rs → r.disp.cmpl = true → r ∉ rs →
    (s.core n).finished r = true → (∀ q ∈ rs, q.disp.cmpl = true) →
    let q := r.disp.cq
    let a := (s.cq q).base + 64 * s.fd .cxlCqstat 0 q 0 16
    s.fd .cxlCqstat 0 q 32 2 = 1 → (s.cq q).host = false → a % 64 = 0 → a + 64 ≤ 0x7FFF000000 → MemoryOpen s [] ((List.range 64).map (a + ·)) →
    (s.cq q).log2 ≤ 16 → s.fd .cxlCqstat 0 q 16 16 < 2 ^ (s.cq q).log2 → s.fd .cxlCqstat 0 q 16 16 < 2 ^ 16 →
    ∃ t, exec (.completionRecord n) s = .next t ∧ OnlyBytes a (s.cqRecord n r) s t ∧ (s.cqRecord n r).length = 64 ∧
      natAt (s.cqRecord n r) 0 8 = r.disp.seq % 2 ^ 64 ∧ natAt (s.cqRecord n r) 8 2 = r.disp.ring % 2 ^ 15 ∧
      natAt (s.cqRecord n r) 10 2 = r.disp.head % 2 ^ 16 ∧
      natAt (s.cqRecord n r) 12 1 = (s.verdict n r).1 % 16 + (if (s.cq q).phase then 128 else 0) ∧
      natAt (s.cqRecord n r) 13 1 = r.idx % 256 ∧
      t.fd .cxlCqstat 0 q 0 16 = (s.fd .cxlCqstat 0 q 0 16 + 1) % 2 ^ (s.cq q).log2 % 2 ^ 16 ∧
      (t.cq q).intr = (s.cq q).intr ++ (if r.disp.intr then [(s.cq q).vec] else []) ∧ (t.core n).replays = rs ∧
      SameCores n s t ∧ RingFrame [.cxlCqstat] s t) ∧
  (∀ (s : State) (q acked v : Nat) (vs : List Nat), (s.cq q).intr ++ (s.cq q).unseen.take acked = v :: vs →
    ∃ t, exec (.msix q acked) s = .next t ∧ (t.cq q).intr = vs ∧ (t.cq q).unseen = (s.cq q).unseen.drop acked ∧
      (v ∉ s.cxl.conf.masked → t.outbox = s.outbox ++ [.msix v] ∧ t.cxl = s.cxl) ∧
      (v ∈ s.cxl.conf.masked → t.outbox = s.outbox ∧ t.cxl = { s.cxl with pba := s.cxl.pba.erase v ++ [v] }) ∧
      (∀ p, p ≠ q → t.cq p = s.cq p) ∧ SameRegs [] s t ∧ SameMem s t ∧ t.cores = s.cores)

namespace Sys2Proof.Claims

/-- The host may write doorbells: link up, the power-up's scrubs done, IDE as required (R452, R463, R535). -/
abbrev BarOpen (s : State) : Prop :=
  s.fd .cxlLinkstat 0 0 4 2 ≠ 0 ∧ 4 ≤ s.fd .secState 0 0 0 4 ∧ s.ideMissing = false

end Sys2Proof.Claims

/-- DOORBELL and CQ_HEAD_DOORBELL (R463, R472, R478): a doorbell of an ACTIVE ring with a TAIL inside the ring that covers what is taken sets TAIL, from the host through
BAR2 as from Shingle through CXL_DB; one outside sets DBERR and no TAIL; on a stranded chip it only counts; a queue doorbell sets HEAD. -/
def Obligations.DoorbellsComplete : Prop :=
  ∀ (s : State) (r : Nat) (v : W64), r < 32768 →
    let g := s.ring r
    let okay := s.fd .cxlRingstat 0 r 32 2 = 1 ∧ v.toNat < g.size ∧
      g.taken ≤ (v.toNat + g.size - s.fd .cxlRingstat 0 r 0 16) % g.size
    (∀ c, (c = .doorbell .host (8 * r) 8 v ∧ BarOpen s ∨
        c = .doorbell .shingle 0 8 (BitVec.ofNat 64 (r * 2 ^ 16 + v.toNat)) ∧ v.toNat < 2 ^ 16) →
      (s.isStranded = false → okay → ∃ t, exec c s = .next t ∧ t.fd .cxlRingstat 0 r 16 16 = v.toNat % 2 ^ 16 ∧
        SameBits .cxlRingstat 0 r (~~~0xFFFF0000#64) s t ∧ (∀ q, q ≠ r → t.rd .cxlRingstat 0 q = s.rd .cxlRingstat 0 q) ∧
        SameRegs [.cxlRingstat] s t ∧ OnlyRegs s t) ∧
      (s.isStranded = false → ¬okay → ∃ t, exec c s = .next t ∧ t.flag .cxlStat 0 0 0 = true ∧ SameRegs [.cxlStat] s t ∧
        SameMem s t ∧ t.cores = s.cores) ∧
      (s.isStranded = true → ∃ t, exec c s = .next t ∧
        t.fd .cxlDbstr 0 0 0 32 = min (s.fd .cxlDbstr 0 0 0 32 + 1) (2 ^ 32 - 1) ∧ SameRegs [.cxlDbstr] s t ∧ OnlyRegs s t)) ∧
    (∀ q, q < 4096 → BarOpen s → s.fd .cxlCqstat 0 q 32 1 = 1 → v.toNat < 2 ^ (s.cq q).log2 → v.toNat < 2 ^ 16 →
      ∃ t, exec (.cqHeadDoorbell (0x40000 + 8 * q) 8 v) s = .next t ∧ t.fd .cxlCqstat 0 q 16 16 = v.toNat ∧
        t.fd .cxlCqstat 0 q 0 16 = s.fd .cxlCqstat 0 q 0 16 ∧ SameRegs [.cxlCqstat] s t ∧ OnlyRegs s t)

namespace Sys2Proof.Claims

/-- The context entry at `a` can be read, and holds `x`. -/
abbrev EntryAt (s : State) (a x : Nat) : Prop :=
  regionOf a = .hbm ∧ s.cellStatus a = 0 ∧ MemoryOpen s [a] [] ∧ leNat (s.bytes a 32) = x

end Sys2Proof.Claims

/-- RING_ENABLE, RING_DISABLE, CQ_ENABLE and CQ_DISABLE by Shingle (R460, R461): enabling a ring that is not ACTIVE reads its context entry; a good one makes it ACTIVE with HEAD
and TAIL 0, a base that is not 4 KiB aligned makes it ERR and sets a bit of CXL_STAT; disabling makes it OFF; queues alike. -/
def Obligations.RingsAndQueuesEnable : Prop :=
  ∀ (s : State) (k x : Nat),
    (k < 32768 → s.fd .cxlRingstat 0 k 32 2 ≠ 1 → EntryAt s (s.fd .cxlRingbase 0 0 0 44 + 32 * k) x →
      let base := x % 2 ^ 44
      let log2 := x / 2 ^ 48 % 32
      (x / 2 ^ 53 = 0 → x / 2 ^ 44 % 16 = 0 → 4 ≤ log2 → log2 ≤ 16 → base % 4096 = 0 → base + 64 * 2 ^ log2 ≤ 0x7FFF000000 →
        ∃ t, exec (.ringEnable .shingle k) s = .next t ∧ t.rd .cxlRingstat 0 k = 0x100000000#64 ∧ (t.ring k).base = base ∧
          (t.ring k).log2 = log2 ∧ (t.ring k).phase = true ∧ (t.ring k).taken = 0 ∧ SameRegs [.cxlRingstat] s t ∧ SameMem s t ∧
          t.cores = s.cores ∧ (∀ q, q ≠ k → t.ring q = s.ring q)) ∧
      (base % 4096 ≠ 0 → ∃ t, exec (.ringEnable .shingle k) s = .next t ∧ t.fd .cxlRingstat 0 k 32 2 = 2 ∧
        t.flag .cxlStat 0 0 3 = true ∧ SameRegs [.cxlRingstat, .cxlStat] s t ∧ SameMem s t ∧ t.cores = s.cores)) ∧
    (k < 32768 → ∃ t, exec (.ringDisable .shingle k) s = .next t ∧ t.fd .cxlRingstat 0 k 32 2 = 0 ∧
      SameBits .cxlRingstat 0 k (~~~0x300000000#64) s t ∧ SameRegs [.cxlRingstat] s t ∧ OnlyRegs s t) ∧
    (k < 4096 → s.fd .cxlCqstat 0 k 32 2 % 2 = 0 → EntryAt s (s.fd .cxlCqbase 0 0 0 44 + 32 * k) x →
      let base := x % 2 ^ 64
      let log2 := x / 2 ^ 64 % 32
      x / 2 ^ 91 = 0 → x / 2 ^ 73 % 128 = 0 → x / 2 ^ 69 % 8 = 0 → x / 2 ^ 80 % 2048 ≠ 0 → 4 ≤ log2 → log2 ≤ 16 → base % 4096 = 0 →
      x / 2 ^ 72 % 2 = 1 ∨ base + 64 * 2 ^ log2 ≤ 0x7FFF000000 →
      ∃ t, exec (.cqEnable .shingle k) s = .next t ∧ t.rd .cxlCqstat 0 k = 0x100000000#64 ∧ (t.cq k).base = base ∧
        (t.cq k).log2 = log2 ∧ (t.cq k).vec = x / 2 ^ 80 % 2048 ∧ (t.cq k).host = decide (x / 2 ^ 72 % 2 = 1) ∧
        SameRegs [.cxlCqstat] s t ∧ SameMem s t ∧ t.cores = s.cores) ∧
    (k < 4096 → ∃ t, exec (.cqDisable .shingle k) s = .next t ∧ t.fd .cxlCqstat 0 k 32 2 = 0 ∧ SameRegs [.cxlCqstat] s t ∧
      OnlyRegs s t)

/-! ### Host memory accesses and the CXL port -/

namespace Sys2Proof.Claims

/-- A CXL.mem request for the host address `hpa` reaches its memory at `a`: link up, the power-up's scrubs done, memories open, IDE as required, no scrub
there (R448, R452, R453, R474, R535). -/
abbrev PortOpen (s : State) (hpa a : Nat) : Prop :=
  BarOpen s ∧ s.chip.closed = false ∧ s.dpa hpa = some a ∧ s.scrubbing a = false

/-- The snoop filter has room for the unit, if the host is to hold it (R458). -/
abbrev FilterRoom (s : State) (u keep : Nat) : Prop := keep = 0 ∨ s.hostHolds u ≠ 0 ∨ s.snoop.length < 524288

/-- In 256 B flit mode a message that the link corrects is one that arrived, and one it loses has no effect; either is reported (Table 14.1). -/
def LinkErrors (c : LinkError → Instr) : Prop :=
  ∀ s : State, s.fd .cxlLinkstat 0 0 4 2 ≠ 0 → 2 ≤ s.fd .cxlLinkstat 0 0 6 2 →
    exec (c .lost) s = .next { s with cxl := { s.cxl with aerUnc := true }, outbox := s.outbox ++ [.cxl (.aer false)] } ∧
    exec (c .corrected) s = exec (c .clean) { s with cxl := { s.cxl with aerCor := true }, outbox := s.outbox ++ [.cxl (.aer true)] }

/-- What a host access leaves alone. -/
def HostFrame (rs : List Reg) (s t : State) : Prop :=
  SameRegs rs s t ∧ SameUnits s t ∧ t.cores = s.cores ∧ t.rings = s.rings ∧ t.cqs = s.cqs ∧ t.ports = s.ports ∧ t.inbox = s.inbox ∧
    t.xfers = s.xfers ∧ t.sources = s.sources ∧ t.bores = s.bores ∧ t.gate = s.gate ∧ t.ebbs = s.ebbs

end Sys2Proof.Claims

/-- HOST_MEM_READ, HOST_MEM_WRITE and MEMWRPTL of a unit of HBM (R423, R453 to R456): a read answers with the unit's bytes, poisoned when the unit fails its check, and
changes no byte; a write puts 64 bytes and makes the unit valid; a partial write puts the bytes its mask selects, unless the unit fails its check; a write outside the host's
region changes nothing and is recorded. Errors of the link are reported (Table 14.1).
Model's choices: log entries 49, 54 and 72. -/
def Obligations.HostMemoryAccessesComplete : Prop :=
  (∀ (hpa keep : Nat) (data : List Byte) (mask : W64), LinkErrors (@Instr.hostMemRead hpa keep) ∧ LinkErrors (@Instr.hostMemWrite hpa data keep) ∧
    LinkErrors (@Instr.memWrPtl hpa mask data keep)) ∧
  (∀ (s : State) (hpa addr : Nat), PortOpen s hpa addr →
    let u := addr / 64 * 64
    regionOf u = .hbm → (∀ data keep, data.length = 64 → FilterRoom s u keep →
        ∃ t, exec (.hostMemWrite hpa data keep .clean) s = .next t ∧ OnlyBytes u data s t ∧ t.isBad u = false ∧
          t.outbox = s.outbox ++ [.cxl (.cmp u)] ∧ (∀ v, v ≠ u → t.hostHolds v = s.hostHolds v) ∧
          t.hostHolds u = (if 2 ≤ s.fd .cxlLinkstat 0 0 6 2 then keep else s.hostHolds u) ∧ HostFrame [] s t) ∧
      (∀ mask data keep, s.isBad u = false → FilterRoom s u keep →
        ∃ t, exec (.memWrPtl hpa mask data keep .clean) s = .next t ∧
          (∀ a, t.byte a = if u ≤ a ∧ a < u + 64 ∧ mask.getLsbD (a - u) then data.getD (a - u) 0#8 else s.byte a) ∧
          t.isBad u = false ∧ t.outbox = s.outbox ++ [.cxl (.cmp u)] ∧ HostFrame [] s t) ∧
      (∀ keep, FilterRoom s u keep →
        ∃ t, exec (.hostMemRead hpa keep .clean) s = .next t ∧ SameMem s t ∧ HostFrame (.cxlStat :: .hbmChkcnt :: .hbmStat :: .hbmChkaddr :: logRegs) s t ∧
          t.outbox.getLast? = some (.cxl (.memData u (s.bytes u 64) (s.isBad u))) ∧
          (s.isBad u = false → SameRegs [] s t ∧ t.cxl = s.cxl) ∧
          (s.isBad u = true → t.flag .cxlStat 0 0 6 = true ∧ t.cxl.ras = s.cxl.ras ++ [u]))) ∧
  (∀ (s : State) (hpa : Nat), BarOpen s → s.chip.closed = false → ((s.dpa hpa).map s.scrubbing).getD false = false →
    let u := (s.dpa hpa).getD hpa / 64 * 64
    s.dpa hpa = none ∨ regionOf u ≠ .hbm → ∀ data keep,
      ∃ t, exec (.hostMemWrite hpa data keep .clean) s = .next t ∧ SameMem s t ∧ t.flag .cxlStat 0 0 5 = true ∧
        t.outbox.getLast? = some (.cxl (.cmp u)) ∧ t.snoop = s.snoop ∧ HostFrame (.cxlStat :: logRegs) s t)

/-- H2D_SNOOP and BIRSP (R450, R457): in 256 B flit mode a snoop is answered with RspIHitI; while no noise record waits, the response to a back-invalidation releases the unit, with the host's data if its copy was
modified, and a response to a request for data may leave a shared copy; a response nobody waits for changes nothing.
CXL_LINK_DOWN, CXL_PORT_RESET, CXL_LINK_UP and IDE_KM (R450, R474, R514, R546): link down and port reset clear CXL_LINKSTAT, snoop filter and IDE, and set a bit of CXL_STAT if the link was up;
rings and queues stand; a port reset also clears configuration and error log; a link comes up in a mode, rate and width of Table 14.1, with what the host configures, and
pending vectors it does not mask are sent; keys installed in an open session make that stream's IDE active.
Model's choices: log entries 49, 50 and 72. -/
def Obligations.CxlPortEventsComplete : Prop :=
  (∀ addr, LinkErrors (@Instr.h2dSnoop addr)) ∧
  (∀ (s : State) (addr : Nat),
    (s.fd .cxlLinkstat 0 0 4 2 ≠ 0 → 2 ≤ s.fd .cxlLinkstat 0 0 6 2 →
      ∃ t, exec (.h2dSnoop addr .clean) s = .next t ∧ t = { s with outbox := s.outbox ++ [.cxl (.rspIHitI addr)] }) ∧
    (let u := addr / 64 * 64
     let kind := Sparse.get 0 s.biOut u;
     (∀ a, a < 4 → (s.bore a).noise = none) → (kind = 0 → ∀ d, exec (.birsp addr d) s = .next s) ∧
      (kind ≠ 0 → ∃ t, exec (.birsp addr none) s = .next t ∧ Sparse.get 0 t.biOut u = 0 ∧ t.hostHolds u = kind - 1 ∧
        (∀ v, v ≠ u → Sparse.get 0 t.biOut v = Sparse.get 0 s.biOut v ∧ t.hostHolds v = s.hostHolds v) ∧ SameMem s t ∧ HostFrame [] s t) ∧
      (kind ≠ 0 → ∀ bs : List Byte, bs.length = 64 →
        ∃ t, exec (.birsp addr (some bs)) s = .next t ∧ OnlyBytes u bs s t ∧ t.isBad u = false ∧ t.hostHolds u = kind - 1 ∧ HostFrame [] s t))) ∧
  (∀ s : State,
    (∀ c, c = Instr.cxlLinkDown ∨ c = .cxlPortReset →
      ∃ t, exec c s = .next t ∧ t.rd .cxlLinkstat 0 0 = 0#64 ∧ t.snoop = [] ∧ t.biOut = [] ∧ t.chip.ideSess = none ∧
        t.held = s.held.filter (fun h => !fromHost h) ∧ (c = .cxlPortReset → t.cxl = {}) ∧ t.cxl.conf = (if c = .cxlPortReset then {} else s.cxl.conf) ∧
        (s.fd .cxlLinkstat 0 0 4 2 ≠ 0 → t.flag .cxlStat 0 0 8 = true) ∧ (s.fd .cxlLinkstat 0 0 4 2 = 0 → SameRegs [.cxlLinkstat] s t) ∧
        SameMem s t ∧ HostFrame [.cxlLinkstat, .cxlStat] s t) ∧
    (∀ flit rate width conf, 0 < s.chip.domains → 1 ≤ flit → flit ≤ 3 → 1 ≤ rate → rate ≤ 2 → width = 8 ∨ width = 15 → (flit = 1 → rate = 1) →
      ∃ t, exec (.cxlLinkUp flit rate width conf) s = .next t ∧ t.fd .cxlLinkstat 0 0 6 2 = flit ∧ t.fd .cxlLinkstat 0 0 4 2 = rate ∧
        t.fd .cxlLinkstat 0 0 0 4 = width ∧ t.fd .cxlLinkstat 0 0 8 2 = 0 ∧
        t.cxl = { s.cxl with conf := conf, pba := s.cxl.pba.filter fun v => conf.masked.contains v } ∧
        t.outbox = s.outbox ++ ((s.cxl.pba.filter fun v => !conf.masked.contains v).map Emission.msix) ∧
        SameMem s t ∧ t.chip = s.chip ∧ HostFrame [.cxlLinkstat] s t) ∧
    (∀ sess stream, s.fd .cxlLinkstat 0 0 4 2 ≠ 0 → (true, sess) ∈ s.chip.sessions →
      ∃ t, exec (.ideKm sess stream) s = .next t ∧ t.flag .cxlLinkstat 0 0 (8 + stream % 2) = true ∧ t.chip.ideSess = some sess ∧
        SameRegs [.cxlLinkstat] s t ∧ SameMem s t ∧ HostFrame [.cxlLinkstat] s t) ∧
    (∀ sess stream, (true, sess) ∉ s.chip.sessions → exec (.ideKm sess stream) s = .next s))
/-! ### Control of a core from outside -/

namespace Sys2Proof.Claims

/-- The agent may write the register (Table 19.2), the CXL link being up and IDE as required for the host. -/
abbrev MayWrite (s : State) (a : Agent) (r : Reg) : Prop := s.arrives a = true ∧ s.reachCause a true r = none

/-- No lock holds the agent from changing a locked field of the register (R588, R589). -/
abbrev Unlocked (s : State) (a : Agent) (r : Reg) : Prop := (agentBound a && s.locked r) = false

/-- The execution state of every core but `n`, the memories and everything outside the cores are as they were. -/
def CoreOnly (n : Nat) (rs : List Reg) (s t : State) : Prop :=
  SameCoreRegs n rs s t ∧ SameCores n s t ∧ SameMem s t ∧ t.acc = s.acc ∧ t.accBad = s.accBad ∧ t.kern = s.kern ∧ t.kernHdr = s.kernHdr ∧
    t.lanes = s.lanes ∧ t.laneF = s.laneF

end Sys2Proof.Claims

/-- IM_WRITE, SWITCH and HALF_EXCHANGE (R147, R148, R149): a write of the inactive half with no exchange pending puts the word and makes its record valid; one of the active half is
refused, flagged, counted and recorded, and comes back to a macro-operation or the mesh with ADDR; a switch request sets PEND, a second one does nothing; at a program boundary with a request pending the halves exchange and the count
of exchanges goes up. -/
def Obligations.InstructionMemoryCommandsComplete : Prop :=
  ∀ (s : State) (a : Agent) (n half w : Nat) (v : W64), half < 2 →
    (MayWrite s a (if half = 0 then .coreIm0 else .coreIm1) →
      (s.fd .coreImstat n 0 0 1 ≠ half → s.flag .coreImstat n 0 2 = false → w / 4 < 1024 →
        ∃ t, exec (.imWrite a n half w v) s = .next t ∧ OneWord (if half = 0 then .coreIm0 else .coreIm1) n w v s t ∧
          Sparse.get false t.imBad (n * 2048 + half * 1024 + w / 4) = false ∧
          CoreOnly n [if half = 0 then .coreIm0 else .coreIm1] s t ∧ t.cores = s.cores ∧ SameOutside s t) ∧
      (s.fd .coreImstat n 0 0 1 = half ∨ s.flag .coreImstat n 0 2 = true →
        ∃ t, exec (.imWrite a n half w v) s = .next t ∧ t.flag .coreImstat n 0 1 = true ∧
          t.fd .coreImstat n 0 8 16 = min (s.fd .coreImstat n 0 8 16 + 1) 0xFFFF ∧
          t.fd .fltSeq 0 0 0 32 = (s.fd .fltSeq 0 0 0 32 + 1) % 2 ^ 32 ∧ SameRegs (.coreImstat :: logRegs) s t ∧ t.imBad = s.imBad ∧
          (∀ k e, a = .dma k e → ∀ g, (s.core k).flights.find? (fun g => g.ecls == e && g.phase != .done) = some g →
            ∃ g', (t.core k).flights.find? (fun g => g.ecls == e && g.phase != .done) = some g' ∧ g'.fid = g.fid ∧
              g'.status = if g.status = 0 then 1 else g.status) ∧
          (∀ k, a = .mesh k → t.outbox.getLast?.map (fun m => match m with | .memory _ st _ => st | _ => 0) = some 1) ∧
          ((∀ k e, a ≠ .dma k e) → t.cores = s.cores) ∧ SameMem s t)) ∧
    (MayWrite s a .coreImctl →
      (s.flag .coreImstat n 0 2 = false → ∃ t, exec (.switchHalf a n) s = .next t ∧ t.rd .coreImstat n 0 = s.rd .coreImstat n 0 ||| 4#64 ∧
        CoreOnly n [.coreImstat] s t ∧ t.cores = s.cores ∧ SameOutside s t) ∧
      (s.flag .coreImstat n 0 2 = true → exec (.switchHalf a n) s = .next s)) ∧
    (s.flag .coreImstat n 0 2 = true → (s.core n).running = false →
      ∃ t, exec (.halfExchange n) s = .next t ∧ t.fd .coreImstat n 0 0 1 = 1 - s.fd .coreImstat n 0 0 1 ∧ t.flag .coreImstat n 0 2 = false ∧
        t.fd .coreImstat n 0 24 8 = (s.fd .coreImstat n 0 24 8 + 1) % 256 ∧ CoreOnly n [.coreImstat, .trcMem, .trcStat] s t ∧
        SameOutside s t ∧ (t.core n).running = false) ∧
    (s.flag .coreImstat n 0 2 = false ∨ (s.core n).running = true → exec (.halfExchange n) s = .next s)

/-- STOP_SET, STOP_CLEAR and RESUME (R176, R177, R469): setting STOP marks the running replay as interrupted; clearing it abandons the replay and
leaves the core at a program boundary, a core in HALT still in it (the model's choice, log entry 66); RESUME in HALT with nothing in flight does so and ends the HALT; RESUME does nothing otherwise. A locked STOP is not changed, and the attempt is counted as refused. -/
def Obligations.StopAndResume : Prop :=
  ∀ (s : State) (a : Agent) (n : Nat), MayWrite s a .coreCtl →
    (Unlocked s a .coreCtl → s.flag .coreCtl n 0 0 = false →
      ∃ t, exec (.stopSet a n) s = .next t ∧ t.flag .coreCtl n 0 0 = true ∧ t.fd .coreStat n 0 0 3 = 4 ∧
        (t.core n).running = (s.core n).running ∧ (t.core n).pc = (s.core n).pc ∧ (t.core n).flights = (s.core n).flights ∧
        (t.core n).replays = (s.core n).replays.map (fun r =>
          if (s.core n).running = true ∧ r.ord = (s.core n).cur ∧ r.halted = false then { r with stopped := true } else r) ∧
        CoreOnly n [.coreCtl, .coreStat, .dmaStat] s t) ∧
    (Unlocked s a .coreCtl → s.flag .coreCtl n 0 0 = true →
      ∃ t, exec (.stopClear a n) s = .next t ∧ t.flag .coreCtl n 0 0 = false ∧ (t.core n).running = false ∧ (t.core n).halted = (s.core n).halted ∧
        (t.core n).pc = (s.core n).pc ∧ t.fd .coreStat n 0 0 3 = (if (s.core n).halted then 3 else 0) ∧ t.gate.filter = false ∧
        CoreOnly n [.coreCtl, .coreStat, .dmaStat] s t) ∧
    (s.fd .coreStat n 0 0 3 = 3 → s.fd .coreStat n 0 16 5 = 0 →
      ∃ t, exec (.resume a n) s = .next t ∧ (t.core n).running = false ∧ (t.core n).halted = false ∧
        (s.flag .coreCtl n 0 0 = false → t.fd .coreStat n 0 0 3 = 0) ∧ (t.core n).replays.length = (s.core n).replays.length ∧ CoreOnly n [.coreStat, .dmaStat] s t) ∧
    (s.fd .coreStat n 0 0 3 ≠ 3 ∨ s.fd .coreStat n 0 16 5 ≠ 0 → exec (.resume a n) s = .next s) ∧
    (a = .host ∨ a = .shingle → ¬Unlocked s a .coreCtl → s.flag .coreCtl n 0 0 = false →
      ∃ t, exec (.stopSet a n) s = .next t ∧ t.flag .coreCtl n 0 0 = false ∧
        t.fd .csrRefcnt 0 0 0 32 = min (s.fd .csrRefcnt 0 0 0 32 + 1) (2 ^ 32 - 1) ∧ t.cores = s.cores ∧
        SameRegs [.csrRefcnt, .csrRefaddr] s t)

/-- CORE_MSIG, MARK_WRITE and DMA_HALT (R134, R159, R162): a signal adds 1 to the mark; a write of a mark sets its threshold, and its count to the value with that cc's increments
and consumption applied; HALT is set or cleared and nothing else.
SPD_BANKPWR and BANK_TRANSITION (R125, Tables 4.5, 4.6): each field below 3 becomes its bank's request; a request other than the bank's state starts a transition, in which the bank
serves nothing; a bank requested off loses its content, as the model chooses at once; the transition ends in the state last requested. Other banks, and memory outside banks requested off, are
as they were.
Model's choices: log entry 27. -/
def Obligations.MarkDmaAndBankControl : Prop :=
  (∀ (s : State) (a : Agent) (n : Nat),
    (∀ v, MayWrite s a .coreMsig → ∃ t, exec (.coreMsig a n v) s = .next t ∧
      (∀ m, t.markCount n m = (if m = v % 64 then min (s.markCount n m + 1) 0xFFFF else s.markCount n m) ∧ t.markThr n m = s.markThr n m) ∧
      CoreOnly n [.mark, .coreStat] s t ∧ t.cores = s.cores ∧ SameBits .coreStat n 0 (~~~0x20#64) s t ∧ SameOutside s t) ∧
    (∀ k v inc dec : Nat, MayWrite s a .mark → v < 2 ^ 24 →
      ∃ t, exec (.markWrite a n k v inc dec) s = .next t ∧ t.markThr n k = v / 2 ^ 16 ∧
        t.markCount n k = min (v % 2 ^ 16 + inc - dec) 0xFFFF ∧ (∀ m, m ≠ k → t.rd .mark n m = s.rd .mark n m) ∧
        CoreOnly n [.mark, .coreStat] s t ∧ t.cores = s.cores ∧ SameBits .coreStat n 0 (~~~0x20#64) s t ∧ SameOutside s t) ∧
    (∀ eng on, eng = 6 ∨ eng = 7 → MayWrite s a .dmaCtl →
      ∃ t, exec (.dmaHalt a n eng on) s = .next t ∧ t.flag .dmaCtl n (eng - 6) 8 = on ∧ SameBits .dmaCtl n (eng - 6) (~~~0x100#64) s t ∧
        (∀ i, i ≠ eng - 6 → t.rd .dmaCtl n i = s.rd .dmaCtl n i) ∧ CoreOnly n [.dmaCtl] s t ∧ t.cores = s.cores ∧ SameOutside s t)) ∧
  (∀ (s : State) (a : Agent) (n : Nat) (v : W64), n < 256 →
    (MayWrite s a .spdBankpwr → Unlocked s a .spdBankpwr →
      ∃ t, exec (.spdBankpwr a n v) s = .next t ∧
        (∀ b, b < 32 → t.fd .spdBankpwr n 0 (2 * b) 2 = (if fld v (2 * b) 2 = 3 then s.fd .spdBankpwr n 0 (2 * b) 2 else fld v (2 * b) 2) ∧
          t.bankState n b = (if fld v (2 * b) 2 = 3 ∨ fld v (2 * b) 2 = s.bankState n b then s.bankState n b else 3)) ∧
        (∀ x, ¬(inScratch x = true ∧ spadCore x = n ∧ fld v (2 * bankOf (spadOff x)) 2 = 2) → t.byte x = s.byte x ∧ t.isBad x = s.isBad x) ∧
        SameCoreRegs n [.spdBankpwr, .spdBankst] s t ∧ t.cores = s.cores ∧ SameUnits s t ∧ SameOutside s t) ∧
    (∀ b, b < 32 → s.bankState n b = 3 →
      ∃ t, exec (.bankTransition n b) s = .next t ∧ t.bankState n b = s.fd .spdBankpwr n 0 (2 * b) 2 ∧
        (∀ c, c < 32 → c ≠ b → t.bankState n c = s.bankState n c) ∧ SameCoreRegs n [.spdBankst] s t ∧ OnlyRegs s t) ∧
    (∀ b, s.bankState n b ≠ 3 → exec (.bankTransition n b) s = .next s))
/-! ### Links -/

namespace Sys2Proof.Claims

/-- A port is UP on a chip that is not stranded (R342, R370, R566). -/
abbrev PortIsUp (s : State) (p : Nat) : Prop := s.fd .lnkStat p 0 0 3 = 5 ∧ s.isStranded = false

/-- The next flit of its VC arrives in order with a correct CRC, and nothing makes the receiver discard it (R328, R330). -/
abbrev InOrder (s : State) (p : Nat) (bytes : List Byte) (first : Bool) : Prop :=
  PortIsUp s p ∧ ((s.port p).rxStall = false ∨ first = true) ∧ flitCrcOk bytes = true ∧
    (linkHdr bytes).seq = (s.port p).rxNext.getD (linkHdr bytes).vc 0

/-- Nothing but port `p`, the registers `rs` and what the chip sends has changed. -/
def PortOnly (p : Nat) (rs : List Reg) (s t : State) : Prop :=
  SameRegs rs s t ∧ SameMem s t ∧ SameUnits s t ∧ t.cores = s.cores ∧ (∀ q, q ≠ p → t.port q = s.port q) ∧ t.xfers = s.xfers ∧
    t.sources = s.sources ∧ t.chip = s.chip ∧ t.rings = s.rings ∧ t.cqs = s.cqs

/-- A replay request went out at a port, which discards until it is answered (R330). -/
def ReplayAsked (p : Nat) (s t : State) : Prop :=
  (t.port p).rxStall = true ∧ ∃ b l, t.outbox = s.outbox ++ .flit p b :: l ∧ (linkHdr b).ft = 2

/-- The bodies of a frame's flits as decrypted, in order (R368). -/
def openedBodies (t : PortSt) (vc : Nat) : List Byte :=
  (t.frame vc).zipIdx.flatMap fun e =>
    sliceB (Config.gcmOpen t.rxKey (frameIv t.rxSalt vc (t.rxCtr.getD vc 0)) (54 * e.2) e.1.body) 0 54

/-- The flits of the open frame are one packet: the first is its head, the last its tail. -/
def OnePacket (t : PortSt) (vc : Nat) : Prop :=
  t.frame vc ≠ [] ∧ ∀ i f, (t.frame vc)[i]? = some f → f.head = (i == 0) ∧ f.tail = (i + 1 == (t.frame vc).length)

end Sys2Proof.Claims

/-- DATA_FLIT, TAG_FLIT and FRAME_CLOSE (R328 to R330, R335, R368, R369) on a torus port. In order, a flit counts on the VC's sequence: on an unencrypted
link its body joins those of its packet, which arrives with its last flit; on an encrypted one it waits for its frame's tag. A tag that verifies
resets the failures and passes the frame on, whose packet arrives as decrypted; one that does not is counted, discards the frame and asks for a
replay from its first flit, the fourth failure in a row failing the port. A flit whose CRC fails, or whose number skips one, is counted and asks for
a replay; one that came before is discarded. A VC with nothing to send closes its open frame with the tag over its flits.
Model's choices: log entries 35 and 36. -/
def Obligations.FlitsAreReceived : Prop :=
  ∀ (s : State) (p : Nat) (head rest : List Byte) (first : Bool), p < 16 →
    let bytes := head ++ rest
    let h := linkHdr bytes
    let next := (s.port p).rxNext.getD h.vc 0
    let body := sliceB (bytes.drop 6) 0 54
    let old := if h.head then [] else (((s.port p).rxBody.find? fun e => e.1 == h.vc).map Prod.snd).getD []
    (InOrder s p bytes first →
      (s.flag .lnkCfg p 0 1 = false → ∃ t, exec (.dataFlit p bytes first) s = .next t ∧
        (t.port p).rxNext = (s.port p).rxNext.set h.vc ((next + 1) % 4096) ∧ (t.port p).rxStall = false ∧
        (h.tail = true → (t.port p).arrived = (s.port p).arrived ++ [(h.vc, pktOfBytes (old ++ body))]) ∧
        (h.tail = false → (t.port p).arrived = (s.port p).arrived ∧ (h.vc, old ++ body) ∈ (t.port p).rxBody) ∧ PortOnly p [] s t) ∧
      (s.flag .lnkCfg p 0 1 = true → ∃ t, exec (.dataFlit p bytes first) s = .next t ∧
        (t.port p).rxNext = (s.port p).rxNext.set h.vc ((next + 1) % 4096) ∧ (t.port p).arrived = (s.port p).arrived ∧
        (t.port p).rxFrame = (s.port p).rxFrame ++ [rxFlit h bytes] ∧ PortOnly p [.lnkStat] s t) ∧
      ((s.port p).tagGood h.vc bytes = true → ∃ t, exec (.tagFlit p head rest first) s = .next t ∧ (t.port p).tagFails = 0 ∧
        (t.port p).rxFrame = (s.port p).rxFrame.filter (fun f => f.vc != h.vc) ∧
        (t.port p).rxCtr = (s.port p).rxCtr.set h.vc ((s.port p).rxCtr.getD h.vc 0 + 1) ∧
        (OnePacket (s.port p) h.vc →
          (t.port p).arrived = (s.port p).arrived ++ [(h.vc, pktOfBytes (openedBodies (s.port p) h.vc))]) ∧ PortOnly p [.lnkStat] s t) ∧
      ((s.port p).tagGood h.vc bytes = false → (s.port p).tagFails < 3 → ∃ t, exec (.tagFlit p head rest first) s = .next t ∧
        (t.port p).tagFails = (s.port p).tagFails + 1 ∧
        t.fd .lnkAuthf p 0 0 32 = min (s.fd .lnkAuthf p 0 0 32 + 1) (2 ^ 32 - 1) ∧ ReplayAsked p s t ∧
        (t.port p).rxFrame = (s.port p).rxFrame.filter (fun f => f.vc != h.vc) ∧
        (t.port p).rxNext = (s.port p).rxNext.set h.vc ((((s.port p).frame h.vc).head?.map (·.seq)).getD h.seq) ∧
        (t.port p).arrived = (s.port p).arrived ∧ PortOnly p [.lnkAuthf, .lnkStat] s t) ∧
      ((s.port p).tagGood h.vc bytes = false → (s.port p).tagFails = 3 → ∃ t, exec (.tagFlit p head rest first) s = .next t ∧
        t.fd .lnkStat p 0 0 3 = 6 ∧ t.flag .lnkStat p 0 6 = true ∧ (t.port p).arrived = (s.port p).arrived ∧ SameMem s t)) ∧
    (PortIsUp s p → (s.port p).rxStall = false → ∀ c, c = Instr.dataFlit p bytes first ∨ c = .tagFlit p head rest first →
      (flitCrcOk bytes = false ∨ h.seq ≠ next ∧ seqBefore h.seq next = false → ∃ t, exec c s = .next t ∧
        t.fd .lnkCrcf p 0 0 32 = min (s.fd .lnkCrcf p 0 0 32 + 1) (2 ^ 32 - 1) ∧ ReplayAsked p s t ∧ (t.port p).arrived = (s.port p).arrived ∧
        (t.port p).rxNext = (s.port p).rxNext ∧ PortOnly p [.lnkCrcf] s t) ∧
      (flitCrcOk bytes = true → h.seq ≠ next → seqBefore h.seq next = true → ∃ t, exec c s = .next t ∧
        (t.port p).arrived = (s.port p).arrived ∧ (t.port p).rxNext = (s.port p).rxNext ∧ t.outbox = s.outbox ∧ PortOnly p [] s t)) ∧
    (∀ vc, ((s.port p).wait.any fun f => f.vc == vc) = false →
      let fs := (s.port p).txFrame.filter fun f => f.vc == vc
      let ctr := (s.port p).frameCtr.getD vc 0
      fs ≠ [] → ∃ t g, exec (.frameClose p vc) s = .next t ∧ (t.port p).txFrame = (s.port p).txFrame.filter (fun f => f.vc != vc) ∧
        (t.port p).frameCtr = (s.port p).frameCtr.set vc (ctr + 1) ∧ g.vc = vc ∧ g.ft = 3 ∧
        g.body = frameTag (s.port p).txKey (frameIv (s.port p).txSalt vc ctr) fs ∧
        (g ∈ (t.port p).wait ∨ g ∈ (t.port p).unacked) ∧ PortOnly p [.lnkStat] s t)

/-- CODEWORD (R326, R327): the eight lanes' symbols that differ from a codeword in at most 15 symbols are corrected to it: the errors are counted and
its ten flits passed on; otherwise the codeword is counted as uncorrectable, its ten flits count as failed, and a port that is UP asks for a
replay and discards until it is answered (R330).
CONTROL_FLIT and REPLAY_REQUEST on a torus port (R329, R331, R332, R334, R370, R493, R566). With nothing waiting to be sent: acknowledged flits are no longer held,
and credits are added up to 288; a child's tick is answered with its receipt and reply; a replay request within the limit is counted and makes the
port send again, in order, the held flits it has not acknowledged; one beyond the limit fails the port. The neighbour's stranded flag is recorded,
and while it is set the port holds nothing to send.
Model's choices: log entries 35, 36 and 68. -/
def Obligations.CodewordsControlFlitsAndReplays : Prop :=
  (∀ (s : State) (p : Nat) (lanes : List (List Nat)) (found : List Nat), s.fd .lnkStat p 0 0 3 ≠ 0 → s.fd .lnkStat p 0 0 3 ≠ 6 →
    let errs := symbolErrors (ofLanes lanes) found
    (isCodeword found = true → errs ≤ 15 → ∃ t, exec (.codeword p lanes found) s = .next t ∧
      t.fd .lnkFecsym p 0 0 32 = min (s.fd .lnkFecsym p 0 0 32 + errs) (2 ^ 32 - 1) ∧ (t.port p).rxFlits = cwFlits found ∧
      (t.port p).arrived = (s.port p).arrived ∧ t.outbox = s.outbox ∧ PortOnly p [.lnkFecsym] s t) ∧
    (isCodeword found = false ∨ 15 < errs → ∃ t, exec (.codeword p lanes found) s = .next t ∧
      t.fd .lnkUncor p 0 0 32 = min (s.fd .lnkUncor p 0 0 32 + 1) (2 ^ 32 - 1) ∧
      t.fd .lnkCrcf p 0 0 32 = min (s.fd .lnkCrcf p 0 0 32 + 10) (2 ^ 32 - 1) ∧ (t.port p).arrived = (s.port p).arrived ∧
      (PortIsUp s p → (s.port p).rxStall = false → ReplayAsked p s t) ∧ PortOnly p [.lnkUncor, .lnkCrcf] s t)) ∧
  (∀ (s : State) (p : Nat) (bytes : List Byte), p < 16 → PortIsUp s p → flitCrcOk bytes = true → (s.port p).wait = [] →
    let h := linkHdr bytes
    let now := (s.rd .clkTick 0 0).toNat
    (∃ t, exec (.controlFlit p bytes .nothing) s = .next t ∧
      (t.port p).unacked = (s.port p).unacked.filter (fun f => !(h.ackV && f.vc == h.ackVc && seqBefore f.seq h.ackSeq)) ∧
      (t.port p).credits = (s.port p).credits.set h.crVc (min 288 ((s.port p).credits.getD h.crVc 0 + h.crCnt)) ∧
      (t.port p).rxNext = (s.port p).rxNext ∧ (t.port p).arrived = (s.port p).arrived ∧ PortOnly p [.lnkStat] s t) ∧
    (∀ t1, ∃ t, exec (.controlFlit p bytes (.tick t1)) s = .next t ∧ t.outbox = s.outbox ++ [.control p 4 [t1, now, now]] ∧
      PortOnly p [.lnkStat] s t) ∧
    (∃ t, exec (.controlFlit p bytes (.stranded false)) s = .next t ∧ t.flag .lnkStat p 0 7 = false ∧ t.flag .lnkNbr p 0 48 = false ∧
      PortOnly p [.lnkStat, .lnkNbr] s t) ∧
    (∀ recent, recent ≤ s.fd .lnkCfg p 0 16 16 →
      ∃ t, exec (.replayRequest p bytes recent) s = .next t ∧
        t.fd .lnkReplay p 0 0 32 = min (s.fd .lnkReplay p 0 0 32 + 1) (2 ^ 32 - 1) ∧
        t.outbox = s.outbox ++ ((s.port p).unacked.filter fun f => !seqBefore f.seq (natAt bytes 6 12 / 2 ^ (12 * f.vc) % 4096)).map
          (fun f => .flit p f.wire) ∧ PortOnly p [.lnkReplay, .lnkStat] s t) ∧
    (∀ recent, s.fd .lnkCfg p 0 16 16 < recent →
      ∃ t, exec (.replayRequest p bytes recent) s = .next t ∧ t.fd .lnkStat p 0 0 3 = 6 ∧ SameMem s t)) ∧
  (∀ (s : State) (p : Nat) (bytes : List Byte), p < 16 → PortIsUp s p → flitCrcOk bytes = true → s.flag .lnkStat p 0 7 = false →
    ∃ t, exec (.controlFlit p bytes (.stranded true)) s = .next t ∧ t.flag .lnkStat p 0 7 = true ∧ t.flag .lnkNbr p 0 48 = true ∧
      t.fd .lnkStat p 0 0 3 = 5 ∧ (t.port p).wait = [] ∧ (t.port p).unacked = [] ∧ (t.port p).packets = [] ∧ (t.port p).later = [] ∧
      (t.port p).arrived = (s.port p).arrived ∧ SameMem s t)

/-- LINK_ENABLE, IDENT, KEYX, LNK_EXPECT, LINK_FAIL and LINK_RETRAIN (R364 to R367, R370, Table 10.11). An enabled port that is DOWN trains; when identities come, it records the neighbour, takes the lower of the newest versions, and goes on to the key agreement if the
neighbour is the one LNK_EXPECT names and its port may face this one, else into quarantine; without a version that both have it fails. The key agreement sends this end's part and its signature;
an identity whose fingerprint is installed and whose signature over the transcript verifies brings the port UP with a key and a salt for each direction, any other fails it. LNK_EXPECT takes its fields (on a management request by
Headland in READY or JOB), and in quarantine the comparison is made again. A port that loses its link drops what it was to send and counts the packets; a failed port that stays enabled trains again.
Model's choices: log entries 36 and 37. -/
def Obligations.LinkStatesAdvance : Prop :=
  ∀ (s : State) (a : Agent) (p : Nat), p < 20 →
    let st := s.fd .lnkStat p 0 0 3
    let expects (w : W64) (coord port : Nat) : Prop :=
      w.getLsbD 63 = true ∧ fld w 24 24 = coord ∧ fld w 48 5 = port ∧ portsFace p port = true;
    (MayWrite s a .lnkCfg → st = 0 → s.chip.cut = false →
      ∃ t, exec (.linkEnable a p true) s = .next t ∧ t.flag .lnkCfg p 0 0 = true ∧ t.fd .lnkStat p 0 0 3 = 1 ∧
        SameBits .lnkCfg p 0 (~~~1#64) s t ∧ PortOnly p [.lnkCfg, .lnkStat] s t) ∧
    (∀ coord port vmin vmax str, st = 1 ∨ st = 2 → coord < 2 ^ 24 → port < 32 → vmin < 256 → vmax < 256 →
      max (s.fd .lnkVer p 0 0 8) vmin ≤ min (s.fd .lnkVer p 0 8 8) vmax →
      ∃ t, exec (.ident p coord port vmin vmax str) s = .next t ∧ t.fd .lnkNbr p 0 0 24 = coord ∧ t.fd .lnkNbr p 0 24 5 = port ∧
        t.flag .lnkNbr p 0 48 = str ∧ t.fd .lnkVer p 0 16 8 = min (s.fd .lnkVer p 0 8 8) vmax ∧
        t.outbox = s.outbox ++ [.control p 1 [s.coord, p, s.fd .lnkVer p 0 0 8, s.fd .lnkVer p 0 8 8, b2n s.isStranded]] ∧
        (expects (s.rd .lnkExpect p 0) coord port → t.fd .lnkStat p 0 0 3 = 3) ∧
        (¬expects (s.rd .lnkExpect p 0) coord port → t.fd .lnkStat p 0 0 3 = 4 ∧ t.flag .lnkStat p 0 4 = true) ∧
        PortOnly p [.lnkStat, .lnkNbr, .lnkVer] s t) ∧
    (∀ coord port vmin vmax str, st = 1 ∨ st = 2 → vmin < 256 → vmax < 256 →
      ¬max (s.fd .lnkVer p 0 0 8) vmin ≤ min (s.fd .lnkVer p 0 8 8) vmax →
      ∃ t, exec (.ident p coord port vmin vmax str) s = .next t ∧ t.fd .lnkStat p 0 0 3 = 6 ∧ t.flag .lnkStat p 0 3 = true ∧ SameMem s t) ∧
    (∀ pub kem sig idKey : List Byte, st = 3 → s.chip.rngBad = false →
      let k := s.keyAgreement p (Config.freeWord s.freeCtr) (Config.freeWord (s.freeCtr + 1)) pub kem
      let ks := Config.hkdf384 k.hash k.secret
      let good := (s.chip.fingers.find? fun e => e.1 == s.fd .lnkExpect p 0 0 24).map Prod.snd = some (Config.sha384 idKey) ∧
        Config.linkVerify idKey k.hash sig = true
      (good → (s.port p).later = [] →
        ∃ t, exec (.keyx p pub kem sig idKey) s = .next t ∧ t.fd .lnkStat p 0 0 3 = 5 ∧
          t.outbox = s.outbox ++ [.linkKey p k.sent, .linkKey p k.sig] ∧
          ((t.port p).txKey, (t.port p).txSalt) =
            (if k.initiator then (sliceB ks 0 32, natAt ks 32 4) else (sliceB ks 36 32, natAt ks 68 4)) ∧
          ((t.port p).rxKey, (t.port p).rxSalt) =
            (if k.initiator then (sliceB ks 36 32, natAt ks 68 4) else (sliceB ks 0 32, natAt ks 32 4)) ∧
          (t.port p).arrived = (s.port p).arrived ∧ (t.port p).wait = [] ∧ (t.port p).unacked = [] ∧ PortOnly p [.lnkStat] s t) ∧
      (¬good → ∃ t, exec (.keyx p pub kem sig idKey) s = .next t ∧ t.fd .lnkStat p 0 0 3 = 6 ∧ t.flag .lnkStat p 0 5 = true ∧
        SameMem s t)) ∧
    (∀ v, (if a = .headland then s.chip.anchor.isSome = true ∧ (s.sec = 4 ∨ s.sec = 5)
        else MayWrite s a .lnkExpect ∧ Unlocked s a .lnkExpect) →
      ∃ t, exec (.lnkExpect a p v) s = .next t ∧ t.rd .lnkExpect p 0 = v &&& 0x801FFFFFFFFFFFFF#64 ∧
        (st ≠ 4 → t.fd .lnkStat p 0 0 3 = st) ∧
        (st = 4 → expects (v &&& 0x801FFFFFFFFFFFFF#64) (s.fd .lnkNbr p 0 0 24) (s.fd .lnkNbr p 0 24 5) → t.fd .lnkStat p 0 0 3 = 3) ∧
        (st = 4 → ¬expects (v &&& 0x801FFFFFFFFFFFFF#64) (s.fd .lnkNbr p 0 0 24) (s.fd .lnkNbr p 0 24 5) → t.fd .lnkStat p 0 0 3 = 4) ∧
        PortOnly p [.lnkExpect, .lnkStat] s t) ∧
    (∀ down, st ≠ 0 → ∃ t, exec (.linkFail p down) s = .next t ∧ t.fd .lnkStat p 0 0 3 = (if down then 0 else 6) ∧ (t.port p).wait = [] ∧
      (t.port p).unacked = [] ∧ (t.port p).packets = [] ∧ (t.port p).later = [] ∧ (t.port p).arrived = (s.port p).arrived ∧
      t.fd .lnkDrop p 0 0 32 = min (s.fd .lnkDrop p 0 0 32 + (s.port p).packets.length + (s.port p).later.length) (2 ^ 32 - 1) ∧
      SameMem s t) ∧
    (st = 6 → s.flag .lnkCfg p 0 0 = true →
      ∃ t, exec (.linkRetrain p) s = .next t ∧ t.fd .lnkStat p 0 0 3 = 1 ∧ PortOnly p [.lnkStat] s t)


/-! ### Bores -/

namespace Sys2Proof.Claims

/-- The operation with this number in core `n` is done. -/
def FlightDone (t : State) (n fid : Nat) : Prop := ∃ g, (t.core n).flights.find? (fun h => h.fid == fid) = some g ∧ g.phase = .done

/-- What a Bore leaves alone. -/
def BoreFrame (n : Nat) (rs : List Reg) (s t : State) : Prop :=
  SameRegs (rs ++ [.boreStat, .coreStat, .dmaStat, .spdConfl, .trcMem, .trcStat, .cntVal, .cvtStat, .cvtClipcnt, .lnkDrop, .lnkStat] ++ logRegs) s t ∧
    SameUnits s t ∧ SameCores n s t ∧ t.rings = s.rings ∧ t.cqs = s.cqs ∧ t.xfers = s.xfers ∧ t.sources = s.sources ∧ t.gate = s.gate ∧
    t.ebbs = s.ebbs ∧ t.chip = s.chip

/-- The collective that operation `f` of core `n` opens at member `m` of `p`, as it stands once it has read buffer 0 (R378, R381). -/
def CollOf (s : State) (n : Nat) (f : Flight) (a m p : Nat) (x : Coll) : Prop :=
  let v := vAt f.slots 0
  let d := (dAt f.slots 1).t
  x.core = n ∧ x.fid = f.fid ∧ x.tag = f.tag ∧ x.code = fld v 8 8 ∧ x.op = fld v 4 2 ∧ x.nstat = v.getLsbD 7 ∧ x.land = v.getLsbD 6 ∧
    x.m = m ∧ x.p = p ∧ x.d0 = dAt f.slots 1 ∧ x.d1 = dAt f.slots 2 ∧ x.params = vAt f.slots 3 ∧
    x.number = Sparse.get 0 (s.bore a).nums n ∧ x.size = d.boreSize ∧ x.started = true ∧ x.status = 0 ∧ x.gone = [] ∧ x.seen = [] ∧
    x.flat = (if x.code = 4 ∧ m ≠ fld (vAt f.slots 3) 0 6 then [] else d.flatPos.map fun q => s.byte (d.addr n q)) ∧
    (x.reduces = true → x.vals = (List.range d.total).map fun k => (expandElem d.fmt (s.elem n d k) 0).1)

/-- Byte `o` of the collective's own stream has its place in buffer 1 at address `a` (R388). -/
def OwnPlace (x : Coll) (o a : Nat) : Prop := ∃ p, x.d1.t.flatPos[x.flatAt x.m o]? = some p ∧ a = x.d1.t.addr x.core p

/-- Buffer 1 holds the collective's own stream at its places; other bytes are as they were. -/
def OwnCopied (x : Coll) (s t : State) : Prop :=
  (∀ o a, o < x.flat.length → OwnPlace x o a → (∀ u, u < x.flat.length → OwnPlace x u a → u = o) → t.byte a = x.flat.getD o 0#8) ∧
    ∀ a, (∀ o, o < x.flat.length → ¬OwnPlace x o a) → t.byte a = s.byte a

/-- A BCOL of one code that R374, R379 and R380 admit, of a core with no other collective open on the axis, with readable buffers, while the Bore has nothing it may
send. On a ring of two members or more whose routes are legal it opens under the core's next number; what this member sends at the start is in the packets of `first`, of which those that
have no credit wait and every other has spent one; a code that copies the own stream has done so, and another leaves memory as it was; with nothing
to receive or send the operation is done. A ring of one completes at once: buffer 1 holds the copied stream, or the reduction's converted values. -/
def Collective (c : Nat → List Nat → List (Nat × Nat) → Instr) (code : Nat) : Prop :=
  ∀ (s : State) (n m p l : Nat) (mesh : List (Nat × Nat)) (f : Flight), n < 256 → StartsNext s n 8 0x76 f →
    let v := vAt f.slots 0
    let a := fld v 0 2
    let b := (dAt f.slots 2).t
    fld v 8 8 = code → (s.bcolCheck n f).1 = 0 → s.member a = some (m, p, l) → (∀ y ∈ (s.bore a).colls, y.core ≠ n) →
    (s.bore a).nextSend = none → (∀ q ∈ (dAt f.slots 1).t.flatPos, s.cellStatus ((dAt f.slots 1).t.addr n q) = 0) →
    (∀ q ∈ b.flatPos, s.cellStatus (b.addr n q) = 0) →
    (2 ≤ p → s.legal (boreWord a 0 m p l) 7 0 false = true → s.legal (boreWord a 1 m p l) 7 0 false = true →
      ∃ (t : State) (x : Coll), exec (c n [] mesh) s = .next t ∧ CollOf s n f a m p x ∧ x.due = x.dueAtStart ∧
        (let first := x.firstSends.flatMap fun e => (s.borePackets a e.1 m e.2.1 x e.2.2).map fun k => (e.1, k)
         x.send.Sublist first ∧ (t.bore a).nextSend = none ∧
          ∀ d, (Sparse.get [] (t.bore a).spent (creditKey d n)).length + (x.send.filter fun e => e.1 == d).length =
            (Sparse.get [] (s.bore a).spent (creditKey d n)).length + (first.filter fun e => e.1 == d).length) ∧
        (∀ k, Sparse.get 0 (t.bore a).nums k = if k = n then (x.number + 1) % 65536 else Sparse.get 0 (s.bore a).nums k) ∧
        (¬(x.due = 0 ∧ x.send = []) → (t.bore a).colls = (s.bore a).colls ++ [x]) ∧
        (x.due = 0 → x.send = [] → (t.bore a).colls = (s.bore a).colls ∧ FlightDone t n f.fid) ∧
        (x.copiesOwn = true → OwnCopied x s t) ∧ (x.copiesOwn = false → SameMem s t) ∧
        (∀ e, e ≠ a → t.bore e = s.bore e) ∧ t.inbox = s.inbox ∧ BoreFrame n [] s t) ∧
    (p = 1 → v.getLsbD 6 = false →
      ∃ (t : State) (x : Coll), exec (c n [] mesh) s = .next t ∧ CollOf s n f a m p x ∧ FlightDone t n f.fid ∧
        (t.bore a).colls = (s.bore a).colls ∧ (x.reduces = false → OwnCopied x s t) ∧
        (x.reduces = true → (b.positions.map (b.addr n)).Nodup → ∀ k, k < b.total →
          t.elem n b k = (cvtElem b.fmt (b.num.rmAt b.seed k) b.num.sat 0 (x.vals.getD k 0#32)).1) ∧
        (∀ k, Sparse.get 0 (t.bore a).nums k = if k = n then (x.number + 1) % 65536 else Sparse.get 0 (s.bore a).nums k) ∧
        t.ports = s.ports ∧ t.inbox = s.inbox ∧ t.outbox = s.outbox ∧ BoreFrame n [] s t)

end Sys2Proof.Claims

/-- ALLREDUCE, REDSCAT, ALLGATHER, BCAST, RINGPASS and PERMUTE start, and complete on a ring of one (R378 to R382, R385, R386, R388).
Model's choices: log entry 38. -/
def Obligations.CollectivesStart : Prop :=
  Collective @Instr.allreduce 1 ∧ Collective @Instr.redscat 2 ∧ Collective @Instr.allgather 3 ∧ Collective @Instr.bcast 4 ∧ Collective @Instr.ringpass 5 ∧
    Collective @Instr.permute 6

namespace Sys2Proof.Claims

/-- Packet `i` of those that wait is a message in open collective `x` of axis `a`, in a direction in which nothing of the collective waits to be forwarded, of a
generation that counts, of a core with no other collective on the axis, while the Bore has nothing it may send. -/
abbrev MessageOf (s : State) (a i : Nat) (k : Packet) (x : Coll) : Prop :=
  Takes s i 7 k ∧ (segOf k.route 0).axis = a ∧ (s.gate.filter = false ∨ k.gen = s.genNow) ∧ ¬(boreFld k 40 4 = 6 ∧ k.rmark ≠ 0) ∧
    x ∈ (s.bore a).colls ∧ x.core = boreFld k 23 8 ∧ x.number = k.xid ∧ (∀ y ∈ (s.bore a).colls, y.core = x.core → y = x) ∧
    (s.bore a).nextSend = none

/-- The message's header agrees with the collective (R389). -/
abbrev HeaderAgrees (k : Packet) (x : Coll) : Prop :=
  boreFld k 40 4 = x.code ∧ boreFld k 38 2 = x.op ∧ k.tlen = x.size ∧ x.expects (boreFld k 37 1) (boreFld k 31 6) = true

/-- The message has left the store and its credit has gone back (R376). -/
def MessageTaken (s t : State) (a i : Nat) (k : Packet) : Prop :=
  t.inbox = s.inbox.eraseIdx i ∧ ∃ l, t.outbox = s.outbox ++ [.boreCredit a (1 - (segOf k.route 0).dir) (boreFld k 23 8)] ++ l

/-- The pieces of the message are counted; the collective that has nothing more to receive or send is done. -/
def PiecesCounted (s t : State) (a : Nat) (x : Coll) (from_ : Nat) (k : Packet) : Prop :=
  (¬(x.due ≤ k.plen / 64 ∧ x.send = []) → ∃ y ∈ (t.bore a).colls, y.core = x.core ∧ y.number = x.number ∧ y.due = x.due - k.plen / 64 ∧
      y.seen = x.seen ++ (piecesOf k).map (fun e => (from_, e.1)) ∧ y.send = x.send ∧ y.status = x.status) ∧
    (x.due ≤ k.plen / 64 → x.send = [] → (∀ y ∈ (t.bore a).colls, y.core ≠ x.core) ∧
      (((s.core x.core).flights.find? fun g => g.fid == x.fid) ≠ none → FlightDone t x.core x.fid))

end Sys2Proof.Claims

/-- BORE_MESSAGE (R376, R381, R385, R386, R388, R389). A message of new pieces of a data-moving collective places its bytes. A message of partial sums for this member's own shard is
reduced with the member's values, converted once and written; for another shard it is reduced and, without a credit, waits to go on. One whose header disagrees ends the collective with SHAPE,
setting MISM. One of a collective that has not started here stays. A PERMUTE packet for a member further on that agrees with this core's own collective waits, without a credit,
to go on with its count one lower.
Model's choices: log entries 38 and 39. -/
def Obligations.BoreMessagesArePerformed : Prop :=
  (∀ (s : State) (a i m p l : Nat) (mesh : List (Nat × Nat)) (k : Packet) (x : Coll), Takes s i 7 k → (segOf k.route 0).axis = a →
    s.gate.filter = false ∨ k.gen = s.genNow → boreFld k 40 4 = 6 → k.rmark ≠ 0 →
    ((s.bore a).colls.find? fun c => c.core == boreFld k 23 8 && c.number == k.xid) = some x → x.agrees k = true →
    s.member a = some (m, p, l) → (s.bore a).waits (boreFld k 37 1) (boreFld k 23 8) k.xid = false → (s.bore a).nextSend = none →
    (s.bore a).mayUse (boreFld k 37 1) (boreFld k 23 8) = false →
    let on := { k with route := boreWord a (boreFld k 37 1) m p l, rmark := k.rmark - 1, src := s.coord, gen := s.genNow }
    ∃ t, exec (.boreMessage a i [] mesh) s = .next t ∧ MessageTaken s t a i k ∧
      (t.bore a).held = (s.bore a).held ++ [(boreFld k 37 1, on)] ∧
      (t.bore a).colls = (s.bore a).colls ∧ SameMem s t ∧ BoreFrame x.core [] s t) ∧
  ∀ (s : State) (a i : Nat) (mesh : List (Nat × Nat)) (k : Packet) (x : Coll), MessageOf s a i k x →
    let half := boreFld k 37 1
    let smem := boreFld k 31 6
    let qs := (piecesOf k).map Prod.fst
    let d := x.d1.t
    let b := (s.bore a).waits half x.core k.xid
    (HeaderAgrees k x → x.started = true → b = false → x.reduces = false → x.land = false → (∀ q ∈ qs, (smem, q) ∉ x.seen) → 0 < k.plen →
      let place (j : Nat) : Option Nat := if 64 * boreFld k 0 23 + j < x.d0.t.flatPos.length then
        (d.flatPos[x.flatAt smem (64 * boreFld k 0 23 + j)]?).map (d.addr x.core) else none
      (∀ q ∈ d.flatPos, s.cellStatus (d.addr x.core q) = 0 ∧ inScratch (d.addr x.core q) = true) →
      ((x.flatAt smem <$> List.range x.d0.t.flatPos.length).filterMap (fun o => (d.flatPos[o]?).map (d.addr x.core))).Nodup →
      ∃ t, exec (.boreMessage a i [] mesh) s = .next t ∧ MessageTaken s t a i k ∧ PiecesCounted s t a x smem k ∧
        (∀ j z, j < k.plen / 64 * 64 → place j = some z → t.byte z = k.data.getD j 0#8) ∧
        (∀ z, (∀ j, j < k.plen / 64 * 64 → place j ≠ some z) → t.byte z = s.byte z) ∧ BoreFrame x.core [] s t) ∧
    (HeaderAgrees k x → x.started = true → b = false → x.reduces = true → 2 ≤ x.p → x.gone = [] → 0 < k.plen →
      (∀ q ∈ qs, (0, q) ∉ x.seen ∧ 16 * q + 16 ≤ x.vals.length ∧ (half = 0 ↔ 16 * q % x.shard < x.shard / 2)) →
      let word (j : Nat) : W32 := (boreF x.op (BitVec.ofNat 32 (natAt k.data (4 * j) 4)) (x.vals.getD (16 * boreFld k 0 23 + j) 0#32)).1
      let pos (j : Nat) : Nat := if x.code = 1 then 16 * boreFld k 0 23 + j else 16 * boreFld k 0 23 + j - x.m * x.shard
      ((∀ q ∈ qs, 16 * q / x.shard = x.m) → x.land = false →
        (∀ q ∈ d.positions, s.cellStatus (d.addr x.core q) = 0 ∧ inScratch (d.addr x.core q) = true) →
        (d.positions.map (d.addr x.core)).Nodup → d.w % 8 = 0 → (∀ j, j < k.plen / 64 * 16 → pos j < d.total) →
        ∃ t, exec (.boreMessage a i [] mesh) s = .next t ∧ MessageTaken s t a i k ∧
          PiecesCounted s t a x 0 k ∧
          (∀ j, j < k.plen / 64 * 16 → t.elem x.core d (pos j) =
            (cvtElem d.fmt (d.num.rmAt d.seed (pos j)) d.num.sat 0 (word j)).1) ∧ BoreFrame x.core [] s t) ∧
      ((∀ q ∈ qs, 16 * q / x.shard ≠ x.m ∧
          x.m ≠ (if half = 0 then (16 * q / x.shard + 1) % x.p else (16 * q / x.shard + x.p - 1) % x.p)) →
        (s.bore a).mayUse half x.core = false → s.member a ≠ none →
        ∃ (t : State) (out : List (Nat × Packet)), exec (.boreMessage a i [] mesh) s = .next t ∧ MessageTaken s t a i k ∧
          (t.bore a).held = (s.bore a).held ++ out ∧ (∀ e ∈ out, e.1 = half ∧ e.2.kind = 7 ∧ e.2.xid = x.number) ∧
          out.flatMap (fun e => e.2.data) = wordBytes ((List.range (k.plen / 64 * 16)).map word) ∧ SameMem s t ∧
          BoreFrame x.core [] s t)) ∧
    (¬HeaderAgrees k x →
      ∃ t, exec (.boreMessage a i [] mesh) s = .next t ∧ MessageTaken s t a i k ∧ t.flag .boreStat a 0 3 = true ∧
        (∀ y ∈ (t.bore a).colls, y.core ≠ x.core) ∧ t.fd .fltSeq 0 0 0 32 = (s.fd .fltSeq 0 0 0 32 + 1) % 2 ^ 32 ∧ SameMem s t ∧
        (∀ g, ((s.core x.core).flights.find? fun g => g.fid == x.fid) = some g → g.status = 0 →
          ((t.core x.core).flights.find? fun g => g.fid == x.fid) = some { g with phase := .done, status := 3, addr := 0 }) ∧
        BoreFrame x.core [] s t) ∧
    (HeaderAgrees k x → x.started = false → exec (.boreMessage a i [] mesh) s = .next s)

/-- BORE_CREDIT, BORE_WATCHDOG, BORE_AXCFG and BABORT (R376, R377, R394, R409, R558). A credit that comes back frees the oldest spent one, or lends a slot, and a packet that waited for it is sent. A
collective idle for longer than BORE_WDOG is reported once. BORE_AXCFG takes its fields, or sets BORE_STAT's refusal bit while collectives or the gate are at work. BABORT in a quiet chip ends
every collective and empties the stores.
Model's choices: log entry 40. -/
def Obligations.BoreEventsComplete : Prop :=
  ∀ (s : State) (a : Nat),
    (∀ dir core, let key := creditKey dir core
      let sp := Sparse.get [] (s.bore a).spent key
      (s.bore a).nextSend = none → (∀ y ∈ (s.bore a).colls, y.core = core → y.started = true ∧ y.due ≠ 0) →
      ((∀ e ∈ (s.bore a).held, creditKey e.1 (creditCore e.2) ≠ key) → (∀ y ∈ (s.bore a).colls, y.send = []) →
        ∃ t, exec (.boreCredit a dir core) s = .next t ∧ Sparse.get [] (t.bore a).spent key = sp.tail ∧
          Sparse.get 0 (t.bore a).extra key = Sparse.get 0 (s.bore a).extra key + (if sp = [] then 1 else 0) ∧
          (t.bore a).colls = (s.bore a).colls ∧ (t.bore a).held = (s.bore a).held ∧ (∀ e, e ≠ a → t.bore e = s.bore e) ∧ SameRegs [] s t ∧
          SameMem s t ∧ t.ports = s.ports ∧ t.cores = s.cores) ∧
      (∀ e, ((s.bore a).held.find? fun h => h.1 == dir && creditCore h.2 == core) = some e → dir < 2 → core < 512 →
        sp.length = 2 + Sparse.get 0 (s.bore a).extra key → s.legal e.2.route e.2.kind 0 false = true →
        ∃ t, exec (.boreCredit a dir core) s = .next t ∧ (t.bore a).held = (s.bore a).held.erase e ∧
          (Sparse.get [] (t.bore a).spent key).length = sp.length ∧ (t.bore a).colls = (s.bore a).colls ∧ SameMem s t ∧
          t.cores = s.cores ∧ SameRegs (.lnkDrop :: .lnkStat :: logRegs) s t)) ∧
    (∀ core idle x, ((s.bore a).colls.find? fun c => c.core == core && c.started && !c.reported) = some x →
      s.fd .boreWdog a 0 0 32 ≠ 0 → s.fd .boreWdog a 0 0 32 < idle →
      ∃ t, exec (.boreWatchdog a core idle) s = .next t ∧ t.flag .boreStat a 0 4 = true ∧ t.gate.hlink = true ∧
        (t.bore a).colls = replFirst (fun y => y.core == x.core && y.number == x.number) (fun _ => { x with reported := true }) (s.bore a).colls ∧
        t.fd .fltSeq 0 0 0 32 = (s.fd .fltSeq 0 0 0 32 + 1) % 2 ^ 32 ∧ SameRegs (.boreStat :: logRegs) s t ∧ SameMem s t ∧ t.cores = s.cores) ∧
    (∀ ag v, MayWrite s ag .boreAxcfg →
      (s.fd .boreStat a 0 16 9 = 0 → s.fd .gateStat 0 0 0 2 ≠ 2 →
        ∃ t, exec (.boreAxcfg ag a v) s = .next t ∧ t.fd .boreAxcfg a 0 0 6 = v % 64 ∧ t.fd .boreAxcfg a 0 8 6 = v / 2 ^ 8 % 64 ∧
          t.flag .boreAxcfg a 0 31 = v.testBit 31 ∧ (∀ e, e ≠ a → t.rd .boreAxcfg e 0 = s.rd .boreAxcfg e 0) ∧ SameRegs [.boreAxcfg] s t ∧
          OnlyRegs s t) ∧
      (s.fd .boreStat a 0 16 9 ≠ 0 ∨ s.fd .gateStat 0 0 0 2 = 2 →
        ∃ t, exec (.boreAxcfg ag a v) s = .next t ∧ t.flag .boreStat a 0 6 = true ∧ SameRegs [.boreStat] s t ∧ OnlyRegs s t)) ∧
    (∀ ag, MayWrite s ag .rcvCtl →
      (s.quiet = true →
        ∃ t, exec (.babort ag) s = .next t ∧
          (∀ e, e < 4 → (t.bore e).colls = [] ∧ (t.bore e).held = [] ∧ (t.bore e).nums = [] ∧
            ∀ y ∈ (s.bore e).colls, ((s.core y.core).flights.find? fun g => g.fid == y.fid) ≠ none → FlightDone t y.core y.fid) ∧
          t.inbox = s.inbox.filter (fun k => !(k.kind == 7 || k.kind == 8)) ∧ t.gate = { s.gate with filter := true } ∧ SameMem s t ∧ SameUnits s t ∧
          SameRegs [.boreStat, .coreStat, .dmaStat] s t) ∧
      (s.quiet = false →
        ∃ t, exec (.babort ag) s = .next t ∧ t.flag .rcvStat 0 0 0 = true ∧ SameRegs [.rcvStat] s t ∧ OnlyRegs s t))


/-! ### Gate -/

namespace Sys2Proof.Claims

/-- What the gate's own commands leave alone. -/
def GateFrame (rs : List Reg) (s t : State) : Prop :=
  SameRegs (.gateStat :: rs) s t ∧ SameMem s t ∧ SameUnits s t ∧ t.xfers = s.xfers ∧ t.sources = s.sources ∧ t.ebbs = s.ebbs ∧
    t.chip = s.chip ∧ t.rings = s.rings ∧ t.cqs = s.cqs

/-- The contribution of a chip (Table 11.6): bits by OR, STAGED by AND, the fields at 48 and 56 by minimum, those at 32 and 40 by maximum. -/
def Combined (w : W64) (ws : List W64) (hlink hthr : Bool) : Prop :=
  (∀ k, k < 24 → (w.getLsbD k = true ↔ (∃ v ∈ ws, v.getLsbD k = true) ∨ (k = 19 ∧ hlink = true) ∨ (k = 18 ∧ hthr = true))) ∧
    (w.getLsbD 24 = true ↔ ∀ v ∈ ws, v.getLsbD 24 = true) ∧
    ∀ v ∈ ws, fld w 56 8 ≤ fld v 56 8 ∧ fld w 48 8 ≤ fld v 48 8 ∧ fld v 40 8 ≤ fld w 40 8 ∧ fld v 32 8 ≤ fld w 32 8

/-- The collector holds nothing, no core has anything latched, and a GCONT that waited has ended with ADDR (R399, R558). -/
def GateEmptied (s t : State) : Prop :=
  t.gate.words = [] ∧ t.gate.ebb = [] ∧ t.gate.msgs = [] ∧ t.gate.hlink = false ∧ t.gate.hthr = s.throttled ∧ t.gate.complete = false ∧
    t.fd .gateStat 0 0 0 4 = 0 ∧ t.fd .gateStat 0 0 14 11 = 0 ∧ (∀ n, n < 256 → (t.core n).gateLat = 0#64) ∧
    ∀ n f, n < 256 → s.gcontWaiting n = some f → FlightDone t n f.fid

/-- Gate messages that waited for a credit are discarded; the Bores are as they were otherwise (R399). -/
def GateUnsent (s t : State) : Prop :=
  ∀ a, t.bore a = if a < 4 then { s.bore a with held := (s.bore a).held.filter fun e => e.2.kind != 8 } else s.bore a

end Sys2Proof.Claims

/-- GCONT (R219, R397 to R399): with the gate enabled and no word of the core yet taken, the collector takes the operand's bits with the core's latch and
STAGED, clears the latch and counts the contribution; a second contribution waits; with the gate disabled it ends with ADDR.
CHIP_CONTRIBUTION and GATE_MESSAGE (R35, R399 to R403). Once every core and both Ebb dies have delivered, the chip's word combines theirs with the chip's own bits and goes out as
this member's message of phase X, or waits for a credit. A message of the current or the next step is recorded once; it and one of the step before go on while they have hops left,
or wait for a credit; one of any other step sets MISM and is recorded in the fault log; with the gate disabled a message is discarded; the last input of
phase W makes the job-wide word of all inputs.
Model's choices: log entry 41. -/
def Obligations.GateWordsPropagate : Prop :=
  (∀ (s : State) (n : Nat) (f : Flight), StartsNext s n 8 0x75 f →
    (s.flag .gateCfg 0 0 0 = true → Sparse.get 0#64 s.gate.words n = 0#64 →
      ∃ t, exec (.gcont n) s = .next t ∧ EndsWith n 8 0 0 0xFF s t ∧
        Sparse.get 0#64 t.gate.words n = ((vAt f.slots 0) &&& 0xFFFFFFFF00F0E0E0#64) ||| ((s.core n).gateLat &&& 0xF0F#64) ||| 0x1000000#64 ∧
        (∀ m, m ≠ n → Sparse.get 0#64 t.gate.words m = Sparse.get 0#64 s.gate.words m) ∧ (t.core n).gateLat = 0#64 ∧
        t.fd .gateStat 0 0 16 9 = (s.fd .gateStat 0 0 16 9 + 1) % 512 ∧
        t.fd .gateStat 0 0 0 2 = (if s.fd .gateStat 0 0 0 2 = 0 then 1 else s.fd .gateStat 0 0 0 2) ∧
        SameRegs [.gateStat, .coreStat, .dmaStat, .trcMem, .trcStat] s t ∧ SameMem s t ∧ SameUnits s t ∧ SameCores n s t ∧
        t.ebbs = s.ebbs ∧ t.bores = s.bores ∧ t.ports = s.ports ∧ t.chip = s.chip) ∧
    (s.flag .gateCfg 0 0 0 = true → Sparse.get 0#64 s.gate.words n ≠ 0#64 →
      ∃ t, exec (.gcont n) s = .next t ∧ Started n s t ∧ t.gate = s.gate ∧ (t.core n).gateLat = (s.core n).gateLat) ∧
    (s.flag .gateCfg 0 0 0 = false →
      ∃ t, exec (.gcont n) s = .next t ∧ EndsWith n 8 1 0 0xFF s t ∧ t.gate = s.gate ∧ (t.core n).gateLat = (s.core n).gateLat)) ∧
  (∀ s : State,
    ((s.flag .gateCfg 0 0 0 = true ∧ s.fd .gateStat 0 0 0 2 = 1 ∧ s.isStranded = false ∧
        (∀ n, n < 256 → Sparse.get 0#64 s.gate.words n ≠ 0#64) ∧ ∀ e, e < 2 → Sparse.get 0#64 s.gate.ebb e ≠ 0#64) →
      ∃ t, exec .chipContribution s = .next t ∧
        Combined (t.rd .gateContrib 0 0) ((s.gate.words ++ s.gate.ebb).map Prod.snd) s.gate.hlink (s.gate.hthr || s.throttled) ∧
        t.gate.hlink = false ∧ t.gate.hthr = s.throttled ∧ t.gate.words = s.gate.words ∧ t.fd .gateStat 0 0 0 2 = 2 ∧
        (∀ m p l d, s.member 0 = some (m, p, l) → (s.bore 0).nextSend = none → d < 2 → gateHops d m p l ≠ 0 →
          ((s.bore 0).mayUse d 256 = false → ∃ k, (d, k) ∈ (t.bore 0).held ∧ k.kind = 8 ∧
            k.data = leBytes 8 (t.rd .gateContrib 0 0).toNat ++ leBytes 6 s.jobStep ++ leBytes 2 0) ∧
          ((s.bore 0).mayUse d 256 = true → s.legal (BitVec.ofNat 64 (6 + d * 256)) 8 0 false = true →
            (Sparse.get [] (t.bore 0).spent (creditKey d 256)).length = (Sparse.get [] (s.bore 0).spent (creditKey d 256)).length + 1)) ∧
        t.cores = s.cores ∧ GateFrame (.gateContrib :: .lnkDrop :: .lnkStat :: logRegs) s t) ∧
    (¬(s.flag .gateCfg 0 0 0 = true ∧ s.fd .gateStat 0 0 0 2 = 1 ∧ s.isStranded = false ∧
        (∀ n, n < 256 → Sparse.get 0#64 s.gate.words n ≠ 0#64) ∧ ∀ e, e < 2 → Sparse.get 0#64 s.gate.ebb e ≠ 0#64) →
      exec .chipContribution s = .next s) ∧
    ∀ (i : Nat) (k : Packet) (m p l : Nat), Takes s i 8 k →
      let phase := k.addr / 2 ^ 42 % 4
      let d := k.addr / 2 ^ 41 % 2
      let o := k.addr / 2 ^ 35 % 64
      let step := natAt k.data 8 6
      let g : GateMsg := ⟨phase, o, step, BitVec.ofNat 64 (natAt k.data 0 8)⟩
      let dist := if d = 0 then (m + p - o) % p else (o + p - m) % p
      let goesOn (t : State) : Prop :=
        (gateHops d o p l ≤ dist → t.bores = s.bores ∧ t.ports = s.ports ∧ t.outbox = s.outbox ++ [.boreCredit phase (1 - d) 256]) ∧
        (dist < gateHops d o p l → (s.bore phase).mayUse d 256 = false →
          (d, k) ∈ (t.bore phase).held ∧ (t.bore phase).held.length = (s.bore phase).held.length + 1) ∧
        (dist < gateHops d o p l → (s.bore phase).mayUse d 256 = true → s.legal k.route 8 0 false = true →
          (t.bore phase).held = (s.bore phase).held ∧
          (Sparse.get [] (t.bore phase).spent (creditKey d 256)).length = (Sparse.get [] (s.bore phase).spent (creditKey d 256)).length + 1)
      (s.flag .gateCfg 0 0 0 = false → ∃ t, exec (.gateMessage i) s = .next t ∧ t.inbox = s.inbox.eraseIdx i ∧
        t.outbox = s.outbox ++ [.boreCredit phase (1 - d) 256] ∧ t.gate = s.gate ∧ t.bores = s.bores ∧ t.cores = s.cores ∧ GateFrame [] s t) ∧
      (s.member phase = some (m, p, l) → s.gate.filter = false ∨ k.gen = s.genNow → s.flag .gateCfg 0 0 0 = true →
      (segOf k.route 0).hops ≠ 0 → (s.bore phase).nextSend = none →
      (step = (s.jobStep + 1) % 2 ^ 48 ∨ (step = s.jobStep ∧ s.fd .gateStat 0 0 0 2 ≠ 2) →
        ∃ t, exec (.gateMessage i) s = .next t ∧ t.inbox = s.inbox.eraseIdx i ∧
          t.gate = { s.gate with msgs := if s.gate.msgs.any (fun h => h.phase == phase && h.origin == o && h.step == step) then s.gate.msgs
                                         else s.gate.msgs ++ [g] } ∧
          goesOn t ∧ t.cores = s.cores ∧ GateFrame (.lnkDrop :: .lnkStat :: logRegs) s t) ∧
      (step = s.jobStep → s.fd .gateStat 0 0 0 2 = 2 → s.fd .gateStat 0 0 2 2 = 3 → phase = 3 → s.gate.complete = false → o ≠ m →
        (s.gate.msgs.any fun h => h.phase == 3 && h.origin == o && h.step == step) = false →
        (∀ q, q < p → q ≠ m → q ≠ o → ∃ h ∈ s.gateInputs 3, h.origin = q) →
        ∃ t, exec (.gateMessage i) s = .next t ∧ t.gate.complete = true ∧
          t.gate.input = ((s.gateInputs 3).map (·.word) ++ [g.word]).foldl gateMeet s.gate.input ∧
          t.cores = s.cores ∧ GateFrame (.lnkDrop :: .lnkStat :: logRegs) s t) ∧
      ((step + 1) % 2 ^ 48 = s.jobStep → step ≠ s.jobStep → step ≠ (s.jobStep + 1) % 2 ^ 48 →
        ∃ t, exec (.gateMessage i) s = .next t ∧ t.inbox = s.inbox.eraseIdx i ∧ t.gate = s.gate ∧ goesOn t ∧ t.cores = s.cores ∧
          GateFrame (.lnkDrop :: .lnkStat :: logRegs) s t) ∧
      ((step + 1) % 2 ^ 48 ≠ s.jobStep → step ≠ s.jobStep → step ≠ (s.jobStep + 1) % 2 ^ 48 →
        ∃ t, exec (.gateMessage i) s = .next t ∧ t.inbox = s.inbox.eraseIdx i ∧ t.gate = s.gate ∧ t.flag .gateStat 0 0 9 = true ∧
          t.fd .fltSeq 0 0 0 32 = (s.fd .fltSeq 0 0 0 32 + 1) % 2 ^ 32 ∧ t.bores = s.bores ∧ t.cores = s.cores ∧ GateFrame logRegs s t)))

namespace Sys2Proof.Claims

/-- Where the noise record of an axis goes (R392). -/
def NoiseAt (s : State) (a : Nat) : Nat := s.fd .boreNsaddr a 0 0 44

/-- The axis has a noise record, and its place is in HBM and aligned (R392). -/
def NoiseKept (s : State) (a : Nat) : Bool :=
  s.flag .boreNsaddr a 0 63 && NoiseAt s a % 32 == 0 && regionOf (NoiseAt s a) == .hbm && regionOf (NoiseAt s a + 31) == .hbm

/-- The pairwise sum over the 256 cores of an axis' accumulators (R392). -/
def noiseTotal (l : List (Nat × W32)) : W32 :=
  ((pairUp fun x y => (fadd32 x y).1)^[8] (Sparse.getN 0#32 l 0 256)).headD 0#32

/-- The 32 bytes of a noise record (Table 11.9): the step, the two sums, collectives and elements. -/
def NoiseRecordIs (s : State) (a : Nat) (bs : List Byte) : Prop :=
  bs = leBytes 6 s.jobStep ++ leBytes 2 0 ++ leBytes 4 (noiseTotal (s.bore a).sql).toNat ++ leBytes 4 (noiseTotal (s.bore a).sqr).toNat ++
    leBytes 4 (Sparse.getN 0 (s.bore a).ncol 0 256).sum ++ leBytes 4 (Sparse.getN 0 (s.bore a).nelem 0 256).sum ++ leBytes 8 0

end Sys2Proof.Claims

/-- JOB_WIDE_GATE_WORD, GATE_WATCHDOG, GATE_DISABLE and GABORT (R168, R303, R392, R398, R399, R406, R407, R558). The finished word and its step are in GATE_WORD and GATE_STEP, every CORE_STEP counts on, a staged die goes to HOLD, the
noise record of an axis whose place is writable memory stands there and its accumulators are empty, and the collector starts the next step with the contributions that waited. A word overdue beyond GATE_WDOG is reported once. Clearing EN, or GABORT in a quiet chip, empties the collector.
Model's choices: log entries 41, 42 and 46. -/
def Obligations.GateStepsComplete : Prop :=
  ∀ s : State,
    (s.gate.complete = true →
      ∃ t, exec .jobWideGateWord s = .next t ∧ t.rd .gateWord 0 0 = s.gate.input ∧ t.fd .gateStep 0 0 0 48 = s.jobStep ∧
        (∀ n, n < 256 → t.fd .coreStep n 0 0 48 = (s.fd .coreStep n 0 0 48 + 1) % 2 ^ 48) ∧
        (∀ e, e < 2 → t.fd .ebbStep e 0 0 48 = (s.fd .ebbStep e 0 0 48 + 1) % 2 ^ 48 ∧
          (s.ebbState e = 1 → t.ebbState e = 2 ∧ (t.ebb e).hold = true ∧ (t.ebb e).step = s.jobStep ∧
            (t.ebb e).commit = !gateOverflow s.gate.input) ∧
          (s.ebbState e ≠ 1 → t.ebbState e = s.ebbState e)) ∧
        (t.ebb 0).entry.isSome = true ∧ t.gate.ebb = [] ∧ t.gate.complete = false ∧ t.gate.reported = false ∧
        t.gate.msgs = s.gate.msgs.filter (fun g => g.step == (s.jobStep + 1) % 2 ^ 48) ∧
        (∀ n, n < 256 → Sparse.get 0#64 t.gate.words n = match s.gcontWaiting n with
          | some f => coreWord (vAt f.slots 0) (s.core n).gateLat
          | none => 0#64) ∧
        (∀ n f, n < 256 → s.gcontWaiting n = some f → FlightDone t n f.fid ∧ (t.core n).gateLat = 0#64) ∧
        ((∀ n, n < 256 → s.gcontWaiting n = none) → t.fd .gateStat 0 0 0 4 = 0 ∧ t.cores = s.cores) ∧
        (∀ a, a < 4 → NoiseKept s a = true → (∀ x, x < 32 → s.cellStatus (NoiseAt s a + x) = 0) →
          MemoryOpen s [] ((List.range 32).map (NoiseAt s a + ·)) →
          (∀ b, b < 4 → b ≠ a → NoiseKept s b = true → NoiseAt s a + 32 ≤ NoiseAt s b ∨ NoiseAt s b + 32 ≤ NoiseAt s a) →
          NoiseRecordIs s a (t.bytes (NoiseAt s a) 32) ∧ (t.bore a).noise = none) ∧
        (∀ a, a < 4 → s.flag .boreNsaddr a 0 63 = true →
          (t.bore a).sql = [] ∧ (t.bore a).sqr = [] ∧ (t.bore a).ncol = [] ∧ (t.bore a).nelem = []) ∧
        (∀ x, (∀ a, a < 4 → NoiseKept s a = true → ¬(NoiseAt s a ≤ x ∧ x < NoiseAt s a + 32)) → t.byte x = s.byte x) ∧
        (∀ a, (t.bore a).colls = (s.bore a).colls ∧ (t.bore a).held = (s.bore a).held ∧ (t.bore a).spent = (s.bore a).spent) ∧
        SameUnits s t ∧ t.ports = s.ports ∧ t.chip = s.chip) ∧
    (s.gate.complete = false → exec .jobWideGateWord s = .next s) ∧
    (∀ us, s.fd .gateStat 0 0 0 2 ≠ 0 → s.gate.reported = false → s.fd .gateWdog 0 0 0 32 ≠ 0 → s.fd .gateWdog 0 0 0 32 < us →
      ∃ t, exec (.gateWatchdog us) s = .next t ∧ t.flag .gateStat 0 0 8 = true ∧ t.gate = { s.gate with reported := true } ∧
        t.outbox = s.outbox ++ [.mgmt 8 [s.fd .gateStat 0 0 2 2, s.gateAwaited]] ∧
        t.fd .fltSeq 0 0 0 32 = (s.fd .fltSeq 0 0 0 32 + 1) % 2 ^ 32 ∧ t.cores = s.cores ∧ t.bores = s.bores ∧ GateFrame logRegs s t ∧
        exec (.gateWatchdog us) t = .next t) ∧
    (∀ a, MayWrite s a .gateCfg → s.flag .gateCfg 0 0 0 = true →
      ∃ t, exec (.gateDisable a) s = .next t ∧ t.flag .gateCfg 0 0 0 = false ∧ SameBits .gateCfg 0 0 (~~~1#64) s t ∧ GateEmptied s t ∧
        t.gate.filter = s.gate.filter ∧ GateUnsent s t ∧ t.ports = s.ports ∧ t.outbox = s.outbox ∧
        GateFrame [.gateCfg, .coreStat, .dmaStat] s t) ∧
    (∀ a, MayWrite s a .gateCfg → s.flag .gateCfg 0 0 0 = false → exec (.gateDisable a) s = .next s) ∧
    (∀ a, MayWrite s a .rcvCtl → s.quiet = true →
      ∃ t, exec (.gabort a) s = .next t ∧ GateEmptied s t ∧ t.gate.filter = true ∧ GateUnsent s t ∧ t.ports = s.ports ∧
        t.outbox = s.outbox ∧ GateFrame [.coreStat, .dmaStat] s t)


/-! ### Ebb dies -/

namespace Sys2Proof.Claims

/-- Nothing but Ebb dies, the registers `rs` and the fault log has changed outside the memories. -/
def EbbFrame (rs : List Reg) (s t : State) : Prop :=
  SameRegs (rs ++ logRegs) s t ∧ SameUnits s t ∧ t.cores = s.cores ∧ t.inbox = s.inbox ∧ t.xfers = s.xfers ∧ t.sources = s.sources ∧
    t.bores = s.bores ∧ t.chip = s.chip ∧ t.rings = s.rings ∧ t.cqs = s.cqs

/-- A die's registers and state are as they were for every other die. -/
def OnlyDie (e : Nat) (s t : State) : Prop :=
  (∀ d, d ≠ e → t.ebb d = s.ebb d) ∧ ∀ r d i, d ≠ e → r.info.blk = .ebb → t.rd r d i = s.rd r d i

/-- The hold of a die's staging area has ended (R287). -/
def HoldEnded (e : Nat) (s t : State) : Prop :=
  (t.ebb e).hold = false ∧ t.fd .ebbStgcnt e 0 0 40 = if (s.ebb e).hold then 0 else s.fd .ebbStgcnt e 0 0 40

/-- The marks that the completions of the dies in `es` add to (R306). -/
def MarksSignalled (es : List Nat) (s t : State) : Prop :=
  ∀ n m, n < 256 → t.markCount n m = min (s.markCount n m +
    (es.filter fun e => s.flag .ebbDonecore e (n / 64) (n % 64) && s.fd .ebbDone e 0 0 6 == m).length) 0xFFFF

/-- The bytes of a range in the die's slow tier or in HBM are there, pass their check, and may be read or written. -/
abbrev RangeGood (s : State) (e a n : Nat) (slow : Bool) : Prop :=
  ∀ x, a ≤ x → x < a + n → regionOf x = (if slow then .slow e else .hbm) ∧ s.cellStatus x = 0

end Sys2Proof.Claims

/-- STAGING_WRITE and EBB_GATE_WORD (R283 to R288, R400). Bytes written to a die's slow tier count towards EBB_STGCNT if they land in its staging area, an element with an infinity or a NaN among them is flagged,
and more bytes than EBB_STGLEN are reported; a write
into a staging area on hold is kept for later (R287). In IDLE with the staged bytes complete the die delivers its word, its latch and the outcome of its checks, and is STAGED.
Model's choices: log entries 43 and 44. -/
def Obligations.StagingAndGateWords : Prop :=
  ∀ (s : State) (e : Nat), e < 2 →
    (∀ (addr : Nat) (data : List Byte), inSlow e addr data.length = true → RangeGood s e addr data.length true →
      MemoryOpen s [] ((List.range data.length).map (addr + ·)) →
      let as := ((List.range data.length).map (addr + ·)).filter fun a => s.stagingDie a == some e
      let base := s.fd .ebbStgbase e 0 0 44
      let elem (t : State) (a : Nat) : W32 := t.word32 (base + (a - base) / 4 * 4)
      ∃ t, exec (.stagingWrite e addr data) s = .next t ∧ OnlyBytes addr data s t ∧
        t.fd .ebbStgcnt e 0 0 40 = (s.fd .ebbStgcnt e 0 0 40 + as.length) % 2 ^ 40 ∧
        (t.flag .ebbStat e 0 1 = true ↔ s.flag .ebbStat e 0 1 = true ∨ ∃ a ∈ as, elem t a &&& 0x7FFFFFFF#32 = 0x7F800000#32) ∧
        (t.flag .ebbStat e 0 0 = true ↔ s.flag .ebbStat e 0 0 = true ∨ ∃ a ∈ as, isNan32 (elem t a) = true) ∧
        (t.flag .ebbStat e 0 9 = true ↔ s.flag .ebbStat e 0 9 = true ∨
          (as ≠ [] ∧ s.fd .ebbStglen e 0 0 40 < s.fd .ebbStgcnt e 0 0 40 + as.length)) ∧
        t.ebbState e = s.ebbState e ∧ OnlyDie e s t ∧ t.gate = s.gate ∧ EbbFrame [.ebbStgcnt, .ebbStat] s t) ∧
    (∀ (addr : Nat) (data : List Byte) (j : Nat), inSlow e addr data.length = true → s.chip.closed = false →
      j < data.length → s.stagingDie (addr + j) = some e → (s.ebb e).hold = true →
      exec (.stagingWrite e addr data) s = .next { s with held := s.held ++ [.stagingWrite e addr data] }) ∧
    ((s.flag .gateCfg 0 0 0 = true ∧ s.ebbState e = 0 ∧ s.isStranded = false ∧ s.fd .ebbStglen e 0 0 40 ≤ s.fd .ebbStgcnt e 0 0 40) →
      ∃ t, exec (.ebbGateWord e) s = .next t ∧ t.ebbState e = 1 ∧ (t.ebb e).checked = true ∧ (t.ebb e).latch = 0#64 ∧
        Sparse.get 0#64 t.gate.ebb e =
          (0xFFFF000001000000#64 ||| (s.ebb e).latch ||| if (s.ebbChecks e).isSome then 0x1000#64 else 0#64) ∧
        (t.flag .ebbStat e 0 10 = true ↔ s.flag .ebbStat e 0 10 = true ∨ (s.ebbChecks e).isSome = true) ∧
        t.flag .gateStat 0 0 (14 + e) = true ∧ t.fd .gateStat 0 0 0 2 = max 1 (s.fd .gateStat 0 0 0 2) ∧
        t.gate.words = s.gate.words ∧ OnlyDie e s t ∧ SameMem s t ∧ EbbFrame [.ebbStat, .gateStat] s t) ∧
    (¬(s.flag .gateCfg 0 0 0 = true ∧ s.ebbState e = 0 ∧ s.isStranded = false ∧ s.fd .ebbStglen e 0 0 40 ≤ s.fd .ebbStgcnt e 0 0 40) →
      exec (.ebbGateWord e) s = .next s)

/-- STRANDLINE_WRITE, UPDATE_PASS, PASS_COMPLETE, CLRFLT and EABORT (R293 to R295, R303 to R309, R554, R558). The entry stands at its place in HBM; a die that skips the step signals its marks and is IDLE. A pass over good
data of one segment leaves the rule program's values in the state streams and, of an FP32 segment, in the weights, and frees the staging area. PASS_COMPLETE signals the marks and makes the mirror
stream due. CLRFLT frees a die in FAULT, whose hold in a skipped step lasts until the strandline entry is written; EABORT a die in IDLE or STAGED.
Model's choices: log entries 44 to 46. -/
def Obligations.UpdateStepsComplete : Prop :=
  ∀ s : State,
    (∀ b, (s.ebb 0).entry = some b → b.length = 256 →
      let base := 0x7FFF000000 + 256 * (natAt b 96 6 % 65536)
      let skip (e : Nat) : Bool := s.ebbState e == 2 && (s.ebb e).strand && !(s.ebb e).commit
      (s.ebb 0).srecDue = false → s.noiseDue = false → MemoryOpen s [] ((List.range 256).map (base + ·)) → (∀ x, base ≤ x → x < base + 256 → s.cellStatus x = 0) →
      ∃ t, exec .strandlineWrite s = .next t ∧ OnlyBytes base b s t ∧ (t.ebb 0).entry = none ∧ (t.ebb 0).srm = false ∧
        (∀ e, e < 2 → (skip e = true → t.ebbState e = 0 ∧ (t.ebb e).checked = false ∧ HoldEnded e s t) ∧
          (skip e = false → t.ebbState e = s.ebbState e) ∧ (t.ebb e).strand = false ∧
          (if (s.ebb e).strand = true ∧ (s.ebb e).commit = false then HoldEnded e s t else (t.ebb e).hold = (s.ebb e).hold)) ∧
        MarksSignalled ([0, 1].filter skip) s t ∧ t.gate = s.gate ∧ EbbFrame [.ebbStat, .ebbStgcnt, .mark, .coreStat] s t) ∧
    ((s.ebb 0).entry = none → exec .strandlineWrite s = .next s) ∧
    (∀ e, e < 2 → s.passReady e = true → MemoryOpen s (s.passAddrs e).1 (s.passAddrs e).2 →
      (∀ q ∈ s.segments e, q.2.ok e = true) →
      (∃ t, exec (.updatePass e) s = .next t ∧ OnlyDie e s t ∧ t.gate = s.gate ∧ (t.ebb e).commit = true ∧
        ((t.ebbState e = 3 ∧ (t.ebb e).passed = true ∧ (t.ebb e).hold = false) ∨
          (t.ebbState e = 4 ∧ t.flag .ebbStat e 0 14 = true ∧ (t.ebb e).snap = none))) ∧
      ∀ g, s.segments e = [(0, g)] →
        let ns := (s.ruleHdr e g.rule).2.1
        let ng := (s.ruleHdr e g.rule).2.2
        RangeGood s e g.st (4 * g.n * ns) true → RangeGood s e g.g (4 * g.n * ng) true →
        (g.wen = true → RangeGood s e g.w g.wtotal false ∧ ∃ r, s.segRec e g (s.ebb e).wstep = .inl r) →
        (g.usesRec = true → RangeGood s e g.sr 128 true ∧ ∀ x, g.sr ≤ x → x < g.sr + 128 → s.stagingDie x = none) → (g.fmt.narrow = true → g.n % 32 = 0) →
        ∃ t, exec (.updatePass e) s = .next t ∧ t.ebbState e = 3 ∧ (t.ebb e).passed = true ∧ HoldEnded e s t ∧
          (∀ i k, i < g.n → k < ns → t.word32 (g.st + 4 * g.n * k + 4 * i) = (s.runElem e g i).1.getD k 0#32) ∧
          (g.wen = true → g.fmt = .fp32 → ∀ i, i < g.n → t.word32 (g.w + 4 * i) = canon32 (s.runElem e g i).2.1) ∧
          (∀ x, ¬(g.st ≤ x ∧ x < g.st + 4 * g.n * ns) → ¬(g.wen = true ∧ g.w ≤ x ∧ x < g.w + g.wtotal) →
            ¬(g.usesRec = true ∧ g.sr ≤ x ∧ x < g.sr + 128) → t.byte x = s.byte x) ∧
          OnlyDie e s t ∧ EbbFrame [.ebbStat, .ebbStgcnt] s t) ∧
    (∀ e, s.ebbState e = 3 → (s.ebb e).passed = true → s.noiseDue = false →
      ∃ t, exec (.passComplete e) s = .next t ∧ t.ebbState e = 0 ∧ (t.ebb e).checked = false ∧ (t.ebb e).passed = false ∧
        (t.ebb e).mirDue = (if s.mirEn e then some (s.ebb e).step else none) ∧ MarksSignalled [e] s t ∧ OnlyDie e s t ∧ SameMem s t ∧
        t.gate = s.gate ∧ EbbFrame [.ebbStat, .mark, .coreStat] s t) ∧
    (∀ a e, MayWrite s a .ebbCtl →
      (s.ebbState e = 4 →
        ∃ t, exec (.clrflt a e) s = .next t ∧ t.ebbState e = 0 ∧ (t.ebb e).checked = false ∧
          (if (s.ebb e).strand = true ∧ (s.ebb e).commit = false then (t.ebb e).hold = (s.ebb e).hold ∧ (t.ebb e).strand = true
            else HoldEnded e s t) ∧ OnlyDie e s t ∧ SameMem s t ∧
          t.gate = s.gate ∧ EbbFrame [.ebbStat, .ebbStgcnt] s t) ∧
      (s.ebbState e ≠ 4 → exec (.clrflt a e) s = .next s)) ∧
    (∀ a, MayWrite s a .rcvCtl → s.quiet = true →
      ∃ t, exec (.eabort a) s = .next t ∧
        (∀ e, e < 2 → (s.ebbState e < 2 → t.ebbState e = 0 ∧ t.fd .ebbStgcnt e 0 0 40 = 0 ∧ (t.ebb e).latch = 0#64 ∧
            (t.ebb e).checked = false) ∧
          (2 ≤ s.ebbState e → t.ebb e = s.ebb e ∧ t.rd .ebbStat e 0 = s.rd .ebbStat e 0 ∧ t.rd .ebbStgcnt e 0 = s.rd .ebbStgcnt e 0)) ∧
        SameMem s t ∧ t.gate = s.gate ∧ EbbFrame [.ebbStat, .ebbStgcnt] s t)

namespace Sys2Proof.Claims

/-- A mirror slot holds a whole image (R310, R561): its trailer (Table 9.7) is valid, its length fits, its checksum agrees, and every byte can be read. -/
abbrev WholeImage (s : State) (e slot step len crc : Nat) : Prop :=
  let base := s.mirRxBase e + slot * s.mirSlot e
  let tr := s.bytes (base + s.mirSlot e - 64) 64
  natAt tr 0 6 = step ∧ natAt tr 6 5 = len ∧ natAt tr 14 1 = 1 ∧ natAt tr 16 4 = crc ∧ len + 64 ≤ s.mirSlot e ∧
    (crc32 (s.bytes base len)).toNat = crc ∧ ∀ x, base ≤ x → x < base + s.mirSlot e → s.cellStatus x = 0

/-- The trailer of a slot or half at `a` (Table 9.7). -/
def TrailerAt (t : State) (a step len src crc : Nat) : Prop := t.bytes a 64 = slotTrailer step len src crc

/-- A record of this class has been written (R569). -/
def Recorded (s t : State) : Prop := t.fd .fltSeq 0 0 0 32 = (s.fd .fltSeq 0 0 0 32 + 1) % 2 ^ 32

end Sys2Proof.Claims

/-- The MIRROR and RESTORE commands (R309 to R312, R561, R562, R566, R576, R611). A due stream goes to the buddy; an accepted one stands in its slot with its trailer and is acknowledged, a refused one is answered so; the matching
acknowledgement is recorded, another one goes to the log; one that is late is reported once; clearing EN ends the wait. SEND streams a whole image back; an armed die takes it into its state area and sets DONE;
BUILD writes the FP32 weights of a segment from its state.
Model's choices: log entry 47. -/
def Obligations.MirrorsAndRestoresComplete : Prop :=
  ∀ (s : State) (e : Nat), e < 2 →
    let Ring (a n : Nat) : List Nat := (List.range n).map (a + ·)
    (∀ k, (s.ebb e).mirDue = some k → s.mirEn e = true → (s.ebb e).mirror = none → s.portUp (18 + e) = true → s.isStranded = false →
      RangeGood s e (s.mirTxBase e) (s.mirTxLen e) true → MemoryOpen s (Ring (s.mirTxBase e) (s.mirTxLen e)) [] →
      let slot := 1 - s.fd .ebbMirstat e 0 48 1
      ∃ t, exec (.mirrorStream e) s = .next t ∧
        t.outbox = s.outbox ++ [.stream e 0 [s.coord, k, s.mirTxLen e, slot] (s.bytes (s.mirTxBase e) (s.mirTxLen e))] ∧
        (t.ebb e).mirror = some (k, slot) ∧ (t.ebb e).mirDue = none ∧ t.flag .ebbMirstat e 0 49 = true ∧ OnlyDie e s t ∧ SameMem s t ∧
        t.gate = s.gate ∧ EbbFrame [.ebbMirstat] s t) ∧
    (∀ src step len slot (data : List Byte), len ≤ data.length → src < 2 ^ 24 → step < 2 ^ 48 → slot < 2 →
      let size := s.mirSlot e
      let base := s.mirRxBase e + slot * size
      (s.isStranded = false → src = s.mirBuddy e → len + 64 ≤ size → RangeGood s e base size true →
        (∀ x, base ≤ x → x < base + size → s.stagingDie x = none) → MemoryOpen s [] (Ring base size) →
        ∃ t, exec (.mirrorReceive e src step len slot data) s = .next t ∧ t.bytes base len = data.take len ∧
          TrailerAt t (base + size - 64) step len src (crc32 (data.take len)).toNat ∧
          t.outbox = s.outbox ++ [.streamAck e 1 step slot] ∧
          (∀ x, ¬(base ≤ x ∧ x < base + len) → ¬(base + size - 64 ≤ x ∧ x < base + size) → t.byte x = s.byte x) ∧ t.ebbs = s.ebbs ∧
          t.gate = s.gate ∧ EbbFrame [] s t) ∧
      (s.isStranded = true ∨ src ≠ s.mirBuddy e ∨ size < len + 64 →
        exec (.mirrorReceive e src step len slot data) s = .next { s with outbox := s.outbox ++ [.streamAck e 0 step slot] })) ∧
    (∀ step slot, step < 2 ^ 48 → slot < 2 →
      ((s.ebb e).mirror = some (step, slot) →
        ∃ t, exec (.mirrorAck e step slot false) s = .next t ∧ t.fd .ebbMirstat e 0 0 48 = step ∧ t.fd .ebbMirstat e 0 48 1 = slot ∧
          t.flag .ebbMirstat e 0 49 = false ∧ t.flag .ebbMirstat e 0 50 = true ∧ (t.ebb e).mirror = none ∧ OnlyDie e s t ∧ SameMem s t ∧
          EbbFrame [.ebbMirstat] s t) ∧
      ((s.ebb e).mirror ≠ some (step, slot) →
        ∃ t, exec (.mirrorAck e step slot false) s = .next t ∧ Recorded s t ∧ t.ebbs = s.ebbs ∧ SameMem s t ∧ EbbFrame [] s t) ∧
      ((s.ebb e).mirror ≠ none →
        ∃ t, exec (.mirrorAck e step slot true) s = .next t ∧ Recorded s t ∧ t.flag .ebbStat e 0 12 = true ∧ t.ebbs = s.ebbs ∧
          SameMem s t ∧ EbbFrame [.ebbStat] s t)) ∧
    (∀ us, (s.ebb e).mirror ≠ none → (s.ebb e).mirLate = false → s.fd .ebbMirwd e 0 0 32 ≠ 0 → s.fd .ebbMirwd e 0 0 32 < us →
      ∃ t, exec (.mirrorTimeout e us) s = .next t ∧ Recorded s t ∧ t.flag .ebbStat e 0 13 = true ∧ (t.ebb e).mirLate = true ∧
        (t.ebb e).latch = (s.ebb e).latch ||| 0x20000#64 ∧ (t.ebb e).mirror = (s.ebb e).mirror ∧ OnlyDie e s t ∧ SameMem s t ∧
        EbbFrame [.ebbStat] s t ∧ exec (.mirrorTimeout e us) t = .next t) ∧
    (∀ a, MayWrite s a .ebbMircfg →
      (s.mirEn e = true → ∃ t, exec (.mirrorDisable a e) s = .next t ∧ t.mirEn e = false ∧ SameBits .ebbMircfg e 3 (~~~0x1000000#64) s t ∧
        t.flag .ebbMirstat e 0 49 = false ∧ (t.ebb e).mirDue = none ∧ (t.ebb e).mirror = none ∧ OnlyDie e s t ∧ SameMem s t ∧
        EbbFrame [.ebbMircfg, .ebbMirstat] s t) ∧
      (s.mirEn e = false → exec (.mirrorDisable a e) s = .next s)) ∧
    (∀ a, MayWrite s a .ebbRestore →
      (∀ slot step len crc, slot < 2 → s.ebbState e = 0 → WholeImage s e slot step len crc → s.portUp (18 + e) = true → s.isStranded = false →
        ∃ t, exec (.restoreSend a e slot) s = .next t ∧ t.fd .ebbRestore e 0 4 1 = slot ∧
          t.outbox = s.outbox ++ [.stream e 1 [s.coord, step, len, crc] (s.bytes (s.mirRxBase e + slot * s.mirSlot e) len)] ∧
          SameBits .ebbRestore e 0 (~~~0x10#64) s t ∧ t.ebbs = s.ebbs ∧ SameMem s t ∧ EbbFrame [.ebbRestore] s t) ∧
      (∀ slot, s.ebbState e ≠ 0 →
        ∃ t, exec (.restoreSend a e slot) s = .next t ∧ t.flag .ebbStat e 0 11 = true ∧ Recorded s t ∧ t.ebbs = s.ebbs ∧ SameMem s t ∧
          t.outbox = s.outbox ∧ EbbFrame [.ebbStat] s t) ∧
      (∀ g, s.segments e = [(0, g)] → g.wen = true → g.fmt = .fp32 → s.ebbState e = 0 → RangeGood s e g.st (4 * g.n) true →
        RangeGood s e g.w (4 * g.n) false → MemoryOpen s (Ring g.st (4 * g.n)) (Ring g.w (4 * g.n)) →
        ∃ t, exec (.restoreBuild a e) s = .next t ∧ t.flag .ebbRestore e 0 6 = true ∧
          (∀ i, i < g.n → t.word32 (g.w + 4 * i) = canon32 (s.word32 (g.st + 4 * i))) ∧
          (∀ x, ¬(g.w ≤ x ∧ x < g.w + 4 * g.n) → t.byte x = s.byte x) ∧ OnlyDie e s t ∧ EbbFrame [.ebbRestore, .ebbStat] s t) ∧
      (s.ebbState e ≠ 0 →
        ∃ t, exec (.restoreBuild a e) s = .next t ∧ t.flag .ebbStat e 0 11 = true ∧ Recorded s t ∧ t.ebbs = s.ebbs ∧ SameMem s t ∧
          EbbFrame [.ebbStat] s t)) ∧
    (∀ src step len crc (data : List Byte),
      let base := s.mirTxBase e
      let armed := s.flag .ebbRestore e 0 5 = true ∧ s.ebbState e = 0 ∧ s.fd .ebbStgcnt e 0 0 40 = 0 ∧ src = s.mirBuddy e ∧ len ≤ s.mirTxLen e ∧
        s.isStranded = false
      (armed → len = data.length → (crc32 data).toNat = crc → RangeGood s e base len true →
        (∀ x, base ≤ x → x < base + len → s.stagingDie x = none) → MemoryOpen s [] (Ring base len) →
        ∃ t, exec (.restoreReceive e src step len crc data) s = .next t ∧ OnlyBytes base data s t ∧ t.flag .ebbRestore e 0 6 = true ∧
          t.flag .ebbRestore e 0 5 = false ∧ t.ebbs = s.ebbs ∧ EbbFrame [.ebbRestore] s t) ∧
      (¬armed → ∃ t, exec (.restoreReceive e src step len crc data) s = .next t ∧ t.flag .ebbRestore e 0 7 = true ∧ Recorded s t ∧
        t.ebbs = s.ebbs ∧ SameMem s t ∧ EbbFrame [.ebbRestore] s t))

/-- The SNAPSHOT and EXPORT commands, RULECHK, TIDE_LSCFG and TIDE_SCHEDULE_WRITE (R279, R289, R297, R301, R313 to R318). A request is latched; the copy of the selected streams with its trailer stands in the half that is not current, which becomes current once no
export is busy. An export takes its tag and its packets carry the half's image in order; abort, timeout and a refusal end it with ERR, an acknowledgement with DONE. A rule check sets or clears the program's
valid bit. Tide settings are taken if R279 and R301 admit them, and refused otherwise.
Model's choices: log entries 45 and 47. -/
def Obligations.SnapshotsExportsAndSettings : Prop :=
  ∀ (s : State) (e : Nat), e < 2 →
    (∀ a, MayWrite s a .ebbSnapcfg →
      ∃ t, exec (.snapshotRequest a e) s = .next t ∧ t.flag .ebbSnapcfg e 2 8 = true ∧ SameBits .ebbSnapcfg e 2 (~~~0x100#64) s t ∧
        (∀ i, i ≠ 2 → t.rd .ebbSnapcfg e i = s.rd .ebbSnapcfg e i) ∧ OnlyRegs s t ∧ SameRegs [.ebbSnapcfg] s t) ∧
    (∀ k, (s.ebb e).snap = some k → s.isStranded = false → ¬((s.ebbState e = 2 ∨ s.ebbState e = 3) ∧ (s.ebb e).step = k) →
      let runs := s.snapRuns e
      let z := (runs.map Prod.snd).sum
      let h := 1 - s.fd .ebbSnapstat e 0 48 1
      let base := s.snapBase e h
      let body := runs.flatMap fun r => s.bytes r.1 r.2
      z + 64 ≤ s.snapHalf e → k < 2 ^ 48 → RangeGood s e base (z + 64) true → (∀ x, base ≤ x → x < base + z + 64 → s.stagingDie x = none) →
      (∀ r ∈ runs, RangeGood s e r.1 r.2 true) →
      MemoryOpen s (runs.flatMap fun r => (List.range r.2).map (r.1 + ·)) ((List.range z).map (base + ·)) →
      ∃ t, exec (.snapshotCopy e) s = .next t ∧ OnlyBytes base (body ++ slotTrailer k z s.coord (crc32 body).toNat) s t ∧
        (t.ebb e).snap = none ∧ t.flag .ebbSnapcfg e 2 8 = false ∧
        (s.flag .ebbExpstat e 0 49 = false → t.fd .ebbSnapstat e 0 48 1 = h ∧ t.fd .ebbSnapstat e 0 0 48 = k ∧
          t.flag .ebbSnapstat e 0 50 = true ∧ (t.ebb e).swap = none) ∧
        (s.flag .ebbExpstat e 0 49 = true → t.fd .ebbSnapstat e 0 48 1 = 1 - h ∧ t.flag .ebbSnapstat e 0 49 = true ∧ (t.ebb e).swap = some k) ∧
        OnlyDie e s t ∧ t.gate = s.gate ∧ EbbFrame [.ebbSnapcfg, .ebbSnapstat] s t) ∧
    (∀ k, (s.ebb e).swap = some k → k < 2 ^ 48 →
      (s.flag .ebbExpstat e 0 49 = false →
        ∃ t, exec (.snapshotSwap e) s = .next t ∧ t.fd .ebbSnapstat e 0 48 1 = 1 - s.fd .ebbSnapstat e 0 48 1 ∧ t.fd .ebbSnapstat e 0 0 48 = k ∧
          t.flag .ebbSnapstat e 0 50 = true ∧ (t.ebb e).swap = none ∧ OnlyDie e s t ∧ SameMem s t ∧ EbbFrame [.ebbSnapstat] s t) ∧
      (s.flag .ebbExpstat e 0 49 = true → exec (.snapshotSwap e) s = .next s)) ∧
    (∀ a v, MayWrite s a .ebbExpctl → v < 2 ^ 32 →
      let port := v / 16 % 2
      let h := s.fd .ebbSnapstat e 0 48 1
      let base := s.snapBase e h
      let z := if h = 0 then (s.ebb e).len0 else (s.ebb e).len1
      let total := natAt (s.bytes (base + z) 64) 6 5 + 64
      let ready := s.flag .ebbExpstat e 0 49 = false ∧ s.flag .ebbSnapstat e 0 50 = true ∧ s.portUp (16 + port) = true ∧ s.isStranded = false ∧
        s.domain ≠ 0
      (ready → (∀ x, base ≤ x → x < base + total → s.cellStatus x = 0) →
        ∃ (t : State) (sent : List Packet), exec (.exportStart a e v) s = .next t ∧
          (t.ebb e).exportTag = some (v / 2 ^ 16 % 2 ^ 16) ∧ t.flag .ebbExpstat e 0 49 = true ∧ t.fd .ebbExpstat e 0 52 1 = port ∧
          t.fd .ebbExpstat e 0 53 1 = h ∧ t.fd .ebbExpstat e 0 0 48 = s.fd .ebbSnapstat e 0 0 48 ∧
          (let all := sent ++ (t.ebb e).exportOut
           all.flatMap (fun k => k.data) = s.bytes base total ∧
             ∀ k ∈ all, k.kind = 9 ∧ k.xid = v / 2 ^ 16 % 2 ^ 16 ∧ k.tlen = total ∧ k.plen = k.data.length ∧ k.plen ≤ 4096) ∧
          OnlyDie e s t ∧ SameMem s t ∧ EbbFrame [.ebbExpctl, .ebbExpstat, .lnkStat] s t) ∧
      (¬ready → ∃ t, exec (.exportStart a e v) s = .next t ∧ t.flag .ebbExpstat e 0 51 = true ∧ Recorded s t ∧ t.ebbs = s.ebbs ∧
        SameMem s t ∧ t.ports = s.ports ∧ EbbFrame [.ebbExpctl, .ebbExpstat] s t)) ∧
    (let Failed (t : State) : Prop := (t.ebb e).exportTag = none ∧ (t.ebb e).exportOut = [] ∧ t.flag .ebbExpstat e 0 49 = false ∧
        t.flag .ebbExpstat e 0 51 = true ∧ Recorded s t ∧ OnlyDie e s t ∧ SameMem s t;
      (∀ a, MayWrite s a .ebbExpctl →
        (s.flag .ebbExpstat e 0 49 = true → ∃ t, exec (.exportAbort a e) s = .next t ∧ Failed t ∧ EbbFrame [.ebbExpstat] s t) ∧
        (s.flag .ebbExpstat e 0 49 = false → exec (.exportAbort a e) s = .next s)) ∧
      (∀ us, (s.ebb e).exportTag ≠ none → (s.ebb e).exportOut = [] → s.fd .rteXcfg 0 0 32 32 ≤ us →
        ∃ t, exec (.exportTimeout e us) s = .next t ∧ Failed t ∧ EbbFrame [.ebbExpstat] s t) ∧
      (∀ i k, Takes s i 10 k → (s.ebb e).exportTag = some k.xid → (e = 1 → (s.ebb 0).exportTag ≠ some k.xid) →
        (k.status = 0 → ∃ t, exec (.exportAck i) s = .next t ∧ (t.ebb e).exportTag = none ∧ t.flag .ebbExpstat e 0 49 = false ∧
          t.flag .ebbExpstat e 0 50 = true ∧ t.inbox = s.inbox.eraseIdx i ∧ OnlyDie e s t ∧ SameMem s t ∧ SameRegs [.ebbExpstat] s t) ∧
        (k.status ≠ 0 → ∃ t, exec (.exportAck i) s = .next t ∧ Failed t ∧ t.inbox = s.inbox.eraseIdx i ∧
          SameRegs (.ebbExpstat :: logRegs) s t)) ∧
      (∀ i k, Takes s i 10 k → (∀ d, d < 2 → (s.ebb d).exportTag ≠ some k.xid) →
        ∃ t, exec (.exportAck i) s = .next t ∧ Recorded s t ∧ t.inbox = s.inbox.eraseIdx i ∧ t.ebbs = s.ebbs ∧ SameRegs logRegs s t)) ∧
    (∀ a v, MayWrite s a .ebbRulechk →
      ∃ t, exec (.rulechk a e v) s = .next t ∧ t.flag .ebbRuleval e 0 (v % 8) = s.ruleOk e (v % 8) ∧
        (∀ k, k ≠ v % 8 → t.flag .ebbRuleval e 0 k = s.flag .ebbRuleval e 0 k) ∧ OnlyRegs s t ∧ OnlyDie e s t ∧ SameRegs [.ebbRuleval] s t) ∧
    (∀ a v, MayWrite s a .tideLscfg →
      let emax := toSigned 8 (v / 2 ^ 24 % 256)
      let emin := toSigned 8 (v / 2 ^ 16 % 256)
      (emin ≤ emax → -126 ≤ emin → emax ≤ 126 →
        ∃ t, exec (.tideLscfg a e v) s = .next t ∧ t.rd .tideLscfg e 0 = BitVec.ofNat 64 (v % 2 ^ 32) ∧ OnlyDie e s t ∧ OnlyRegs s t ∧
          SameRegs [.tideLscfg] s t) ∧
      (¬(emin ≤ emax ∧ -126 ≤ emin ∧ emax ≤ 126) →
        ∃ t, exec (.tideLscfg a e v) s = .next t ∧ t.flag .tideLsevt e 0 2 = true ∧ OnlyDie e s t ∧ OnlyRegs s t ∧ SameRegs [.tideLsevt] s t)) ∧
    ∀ a r off size v b, r ∈ [Reg.tideCfg, .tideWarm, .tideLen, .tideLr, .tideBeta] → off < 0x20000 → MayWrite s a r →
      r.hit (0x2600000 + e * 0x20000 + off) = some ⟨r, e, 0, b⟩ →
      let w := (writeFields false (r.fields 0) b size (v <<< (8 * b)) (s.rd r e 0)).1
      ((s.ebb e).checked = false → scheduleBad r w = false →
        ∃ t, exec (.tideScheduleWrite a e off size v) s = .next t ∧ t.rd r e 0 = w ∧ OnlyDie e s t ∧ OnlyRegs s t ∧ SameRegs [r] s t) ∧
      ((s.ebb e).checked = false → scheduleBad r w = true →
        ∃ t, exec (.tideScheduleWrite a e off size v) s = .next t ∧ t.flag .tideLsevt e 0 2 = true ∧ OnlyDie e s t ∧ OnlyRegs s t ∧
          SameRegs [.tideLsevt] s t) ∧
      ((s.ebb e).checked = true →
        ∃ t, exec (.tideScheduleWrite a e off size v) s = .next t ∧ t.flag .ebbStat e 0 11 = true ∧ Recorded s t ∧ t.ebbs = s.ebbs ∧
          SameMem s t ∧ EbbFrame [.ebbStat] s t)


/-! ### Memories, clocks, power -/

namespace Sys2Proof.Claims

/-- What an event of a memory's or the clock's own leaves alone: all but the registers `rs`, the chip's own bookkeeping and what is sent. -/
def RegEvent (rs : List Reg) (s t : State) : Prop :=
  ∃ regs chip out ctr, t = { s with regs := regs, chip := chip, outbox := out, freeCtr := ctr } ∧ SameRegs rs s t

/-- An access that is refused (R27): it is answered, a record is offered to the fault log, and nothing else changes. -/
def Refused (answer : Emission) (s t : State) : Prop :=
  t.outbox = s.outbox ++ [answer] ∧ Recorded s t ∧ OnlyRegsAndReports s t ∧ SameRegs logRegs s t

end Sys2Proof.Claims

/-- HBM_ACCESS, SLOW_TIER_ACCESS, HBM_TEMP_READING, HBM_REFRESH, SLOW_TIER_REFRESH, FLT_CLR (R27, R281, R423, R426, R431 to R436, R439, R448, R571). A read answers the unit's bytes, a write changes the bytes it selects; a unit of HBM that fails its check
answers so, without its bytes; only Ebb die 0 writes the strandline region; an access that is refused answers ADDR with a record; one to a memory being scrubbed is held, one to closed memories is discarded and counted. Of the slow-tier requests the oldest of
the highest class is performed. A reading sets temperature, peak and throttle level by Table 13.3, and a change of level is logged. Refresh changes no state. CLR empties the log.
Model's choices: log entries 53, 54 and 70. -/
def Obligations.MemoryCommandsComplete : Prop :=
  ∀ s : State,
    (∀ a addr mask data, let u := addr / 64 * 64
      let unit := (List.range 64).map (u + ·)
      (regionOf u = .hbm ∨ regionOf u = .strandline → MemoryOpen s unit [] →
        (s.isBad u = false →
          exec (.hbmAccess a addr false mask data) s = .next { s with outbox := s.outbox ++ [.memory u 0 (s.bytes u 64)] }) ∧
        (s.isBad u = true →
          ∃ t, exec (.hbmAccess a addr false mask data) s = .next t ∧
            t.outbox = s.outbox ++ [.memory u 5 (List.replicate 64 0#8)] ∧ t.flag .hbmStat (stackOf u) 0 0 = true ∧
            t.fd .hbmChkcnt (stackOf u) 0 0 32 = min (s.fd .hbmChkcnt (stackOf u) 0 0 32 + 1) (2 ^ 32 - 1) ∧ Recorded s t ∧
            SameMem s t ∧ SameRegs (.hbmStat :: .hbmChkcnt :: .hbmChkaddr :: logRegs) s t ∧ t.cores = s.cores ∧ t.chip = s.chip)) ∧
      (regionOf u = .hbm ∨ (regionOf u = .strandline ∧ agentCode a = 0x104) → MemoryOpen s [] unit → s.isBad u = false →
        ∃ t, exec (.hbmAccess a addr true mask data) s = .next t ∧ t.outbox = s.outbox ++ [.memory u 0 []] ∧
          (∀ x, t.byte x = if u ≤ x ∧ x < u + 64 ∧ mask.getLsbD (x - u) = true then data.getD (x - u) 0#8 else s.byte x) ∧
          t.isBad u = false ∧ SameUnits s t ∧ SameRegs [] s t ∧ t.cores = s.cores ∧ t.chip = s.chip) ∧
      (∀ write, (regionOf u = .strandline ∧ write = true ∧ agentCode a ≠ 0x104) ∨ (regionOf u ≠ .hbm ∧ regionOf u ≠ .strandline) →
        ∃ t, exec (.hbmAccess a addr write mask data) s = .next t ∧ Refused (.memory u 1 []) s t) ∧
      (∀ c, c = Instr.hbmAccess a addr false mask data → regionOf u = .hbm ∨ regionOf u = .strandline →
        (s.chip.closed = false → s.scrubbing u = true → exec c s = .next { s with held := s.held ++ [c] }) ∧
        (s.chip.closed = true → ∃ t, exec c s = .next t ∧ OnlyRegs s t ∧ SameRegs [.secSwdrop] s t ∧
          t.fd .secSwdrop 0 0 0 32 = min (s.fd .secSwdrop 0 0 0 32 + 1) (2 ^ 32 - 1)))) ∧
    (∀ (die : Nat) (l r : List SlowReq) (q : SlowReq), (∀ x ∈ l, q.cls < x.cls) → (∀ x ∈ r, q.cls ≤ x.cls) → die < 2 →
      (∀ n, q.write = none → q.len = n → 0 < n → RangeGood s die q.addr n true → MemoryOpen s ((List.range n).map (q.addr + ·)) [] →
        exec (.slowTierAccess die (l ++ q :: r)) s = .next { s with outbox := s.outbox ++ [.memory q.addr 0 (s.bytes q.addr n)] }) ∧
      (∀ bs, q.write = some bs → bs ≠ [] → RangeGood s die q.addr bs.length true → MemoryOpen s [] ((List.range bs.length).map (q.addr + ·)) →
        (∀ x, q.addr ≤ x → x < q.addr + bs.length → s.stagingDie x = none) →
        ∃ t, exec (.slowTierAccess die (l ++ q :: r)) s = .next t ∧ OnlyBytes q.addr bs s t ∧ t.outbox = s.outbox ++ [.memory q.addr 0 []] ∧
          SameRegs [] s t ∧ SameUnits s t ∧ t.ebbs = s.ebbs ∧ t.cores = s.cores) ∧
      (∀ n, 0 < n → (q.write = none ∧ q.len = n ∨ ∃ bs, q.write = some bs ∧ bs.length = n) →
        regionOf q.addr ≠ .slow die ∨ regionOf (q.addr + n - 1) ≠ .slow die →
        ∃ t, exec (.slowTierAccess die (l ++ q :: r)) s = .next t ∧ Refused (.memory q.addr 1 []) s t)) ∧
    (∀ die, exec (.slowTierAccess die []) s = .next s) ∧
    (∀ stack temp, temp < 256 →
      let thr := s.fd .hbmThr stack 0 0 8
      let hyst := s.fd .hbmThr stack 0 8 4
      let band := s.fd .hbmThr stack 0 12 4
      let level := s.fd .hbmTemp stack 0 16 2
      let met := if thr + 2 * band ≤ temp then 3 else if thr + band ≤ temp then 2 else if thr ≤ temp then 1 else 0
      let below := level ≠ 0 ∧ temp + hyst < thr + (level - 1) * band
      ∃ t, exec (.hbmTempReading stack temp) s = .next t ∧ t.fd .hbmTemp stack 0 0 8 = temp ∧
        t.fd .hbmTemp stack 0 8 8 = max temp (s.fd .hbmTemp stack 0 8 8) ∧
        (level < met → t.fd .hbmTemp stack 0 16 2 = met) ∧
        (met ≤ level → ¬below → t.fd .hbmTemp stack 0 16 2 = level) ∧
        (met ≤ level → below → t.fd .hbmTemp stack 0 16 2 = if 32 ≤ Sparse.get 0 s.chip.cool stack + 1 then level - 1 else level) ∧
        (t.fd .hbmTemp stack 0 16 2 ≠ level → t.flag .hbmStat stack 0 1 = true) ∧
        (thr + 3 * band ≤ temp → t.flag .hbmStat stack 0 2 = true) ∧
        (t.fd .hbmTemp stack 0 16 2 ≠ 0 → t.gate.hthr = true) ∧
        t.chip.log = s.chip.log ++ (if t.fd .hbmTemp stack 0 16 2 = level then [] else
          [((s.rd .clkTick 0 0).toNat, stack, t.fd .hbmTemp stack 0 16 2)]) ∧
        t.fd .hbmThrtime stack 0 0 32 = min (s.fd .hbmThrtime stack 0 0 32 + (if level = 0 then 0 else 32)) (2 ^ 32 - 1) ∧
        SameRegs [.hbmTemp, .hbmStat, .hbmThrtime] s t ∧ SameMem s t ∧ SameUnits s t ∧ t.cores = s.cores) ∧
    (∀ k, exec (.hbmRefresh k) s = .next s ∧ exec (.slowTierRefresh k) s = .next s) ∧
    (∀ a, MayWrite s a .fltCtl →
      ∃ t, exec (.fltClr a) s = .next t ∧ t.rd .fltHead 0 0 = 0#64 ∧ t.fltSince = 0 ∧ t.fltHeld = 0 ∧ SameRegs [.fltHead] s t ∧
        OnlyRegsAndReports s t)

/-- The clock, tick, power and temperature events (R482, R484, R485, R489 to R501): a pending set point takes effect at a frame boundary from its tick on; the root PLL's holdover, stretches and a stretched window are recorded; a
tick exchange sends this chip's tick, and its reply sets the offset, the tick until the first lock, and the lock; a correction moves the tick by one; samples set averages and peaks and act at the limits of Table 15.5, each time with the set point 16 and no
request pending; a wave of cores leaves reset.
Model's choices: log entries 55 to 57. -/
def Obligations.ClockAndPowerEventsComplete : Prop :=
  ∀ s : State,
    (∀ settled, let kreq := s.fd .clkSetpt 0 0 0 5
      let kcur := s.fd .clkSetpt 0 0 8 5
      let due := (s.rd .clkSetat 0 0).toNat
      let acts := s.flag .clkSetpt 0 0 22 = true ∧ s.tick % 16 = 0 ∧ due ≤ s.tick ∧ (kcur ≤ kreq ∨ settled = true)
      (acts → ∃ t, exec (.setpointChange settled) s = .next t ∧ t.fd .clkSetpt 0 0 8 5 = kreq ∧ t.fd .clkSetpt 0 0 0 5 = kreq ∧
        t.flag .clkSetpt 0 0 22 = false ∧ t.flag .clkSetpt 0 0 23 = false ∧
        (t.flag .clkSetpt 0 0 21 = true ↔ s.flag .clkSetpt 0 0 21 = true ∨ (kreq < kcur ∧ due < s.tick)) ∧ RegEvent [.clkSetpt] s t) ∧
      (¬acts → exec (.setpointChange settled) s = .next s)) ∧
    (s.flag .clkStat 0 0 0 = true → ∃ t, exec .refclkLoss s = .next t ∧ t.flag .clkStat 0 0 2 = true ∧ t.flag .clkStat 0 0 3 = true ∧
      t.outbox = s.outbox ++ [.mgmt 2 []] ∧ RegEvent [.clkStat] s t) ∧
    (∃ t, exec .refclkReturn s = .next t ∧ t.flag .clkStat 0 0 2 = false ∧ SameBits .clkStat 0 0 (~~~4#64) s t ∧ RegEvent [.clkStat] s t) ∧
    (∀ mv, (s.chip.coreOn = true → s.fd .clkDroop 0 0 0 8 ≤ mv → ∃ t, exec (.clockStretch mv) s = .next t ∧
        t.fd .clkStretch 0 0 0 32 = min (s.fd .clkStretch 0 0 0 32 + 1) (2 ^ 32 - 1) ∧ RegEvent [.clkStretch] s t) ∧
      (s.chip.coreOn = false ∨ mv < s.fd .clkDroop 0 0 0 8 → exec (.clockStretch mv) s = .next s)) ∧
    (∀ n cycles, ∃ t, exec (.stretchWindow n cycles) s = .next t ∧
      t.fd .clkStrwin 0 0 0 16 = max (min n 0xFFFF) (s.fd .clkStrwin 0 0 0 16) ∧
      (t.flag .clkStat 0 0 4 = true ↔ s.flag .clkStat 0 0 4 = true ∨ cycles < 200 * n) ∧ RegEvent [.clkStrwin, .clkStat] s t) ∧
    (let p := s.fd .clkTickcfg 0 0 0 4
     let child := s.flag .clkTickcfg 0 0 31 = true ∧ s.flag .clkTickcfg 0 0 30 = false ∧ s.portUp p = true
     (child → ∀ t2 t3, exec (.tickExchange false p t2 t3) s =
        .next { s with chip := { s.chip with tickSent := some s.tick }, outbox := s.outbox ++ [.control p 4 [s.tick]] }) ∧
      (∀ reply q t2 t3, ¬child ∨ q ≠ p ∨ (reply = true ∧ s.chip.tickSent = none) → exec (.tickExchange reply q t2 t3) s = .next s)) ∧
    (∀ t1 t2 t3 : Nat, s.flag .clkTickcfg 0 0 31 = true → s.flag .clkTickcfg 0 0 30 = false → s.portUp (s.fd .clkTickcfg 0 0 0 4) = true →
      s.chip.tickSent = some t1 →
      let t4 := s.tick
      ∃ (t : State) (off : Int), exec (.tickExchange true (s.fd .clkTickcfg 0 0 0 4) t2 t3) s = .next t ∧ t.chip.tickSent = none ∧
        (2 * off = ((t2 : Int) - t1) - ((t4 : Int) - t3) ∨ (2 * off - (((t2 : Int) - t1) - ((t4 : Int) - t3))).natAbs = 1) ∧
        BitVec.ofNat 16 (t.fd .clkTickstat 0 0 0 16) = BitVec.ofInt 16 (max (-32767) (min 32767 off)) ∧
        t.rd .clkTick 0 0 = (if s.flag .clkTickstat 0 0 30 then s.rd .clkTick 0 0 else BitVec.ofInt 64 (t4 + off)) ∧
        t.chip.slew = (if s.flag .clkTickstat 0 0 30 then off else 0) ∧
        t.chip.goodEx = (if off.natAbs ≤ 1 then s.chip.goodEx + 1 else 0) ∧
        (4 ≤ t.chip.goodEx → t.flag .clkTickstat 0 0 30 = true ∧ t.flag .clkTickstat 0 0 31 = true) ∧
        (s.flag .clkTickstat 0 0 30 = true → 64 < off.natAbs → t.flag .clkTickstat 0 0 31 = false ∧ t.flag .clkTickstat 0 0 29 = true) ∧
        RegEvent [.clkTick, .clkTickstat] s t) ∧
    (let due := s.flag .clkTickstat 0 0 30 = true ∧ s.chip.slew ≠ 0 ∧ (s.chip.slewAt = 0 ∨ s.chip.slewAt + 1024 ≤ s.tick)
     (due → ∃ t, exec .tickSlew s = .next t ∧ t.chip.slew = s.chip.slew - s.chip.slew.sign ∧ t.chip.slewAt = s.tick ∧
        (0 < s.chip.slew → t.rd .clkTick 0 0 = s.rd .clkTick 0 0 + 1#64) ∧
        (s.chip.slew < 0 → t.rd .clkTick 0 0 = s.rd .clkTick 0 0 ∧ t.chip.tickHold = true) ∧ RegEvent [.clkTick] s t) ∧
      (¬due → exec .tickSlew s = .next s)) ∧
    (∀ watts, let ws := (watts :: s.chip.watts).take 100
      let peak := 10 ≤ ws.length ∧ 43000 < (ws.take 10).sum
      ∃ t, exec (.powerSample watts) s = .next t ∧ t.chip = { s.chip with watts := ws } ∧
        (ws.length = 100 → t.fd .pwrMeas 0 0 0 16 = min (ws.sum / 100) 0xFFFF) ∧
        (10 ≤ ws.length → t.fd .pwrMeas 0 0 16 16 = max (min ((ws.take 10).sum / 10) 0xFFFF) (s.fd .pwrMeas 0 0 16 16)) ∧
        (t.flag .pwrStat 0 0 0 = true ↔ s.flag .pwrStat 0 0 0 = true ∨ (ws.length = 100 ∧ 100 * s.fd .pwrCap 0 0 0 16 < ws.sum)) ∧
        (t.flag .pwrStat 0 0 1 = true ↔ s.flag .pwrStat 0 0 1 = true ∨ peak) ∧
        (peak → t.flag .clkSetpt 0 0 23 = true ∧ t.fd .clkSetpt 0 0 0 5 = 16 ∧ t.fd .clkSetpt 0 0 8 5 = 16 ∧ t.flag .clkSetpt 0 0 22 = false ∧
          t.flag .pwrStat 0 0 3 = true) ∧
        (¬peak → t.rd .clkSetpt 0 0 = s.rd .clkSetpt 0 0) ∧ RegEvent [.pwrMeas, .pwrStat, .clkSetpt] s t) ∧
    (∀ temp, temp < 256 →
      let hot := if s.flag .clkSetpt 0 0 23 = true ∧ 105 ≤ temp then s.chip.hot + 1 else 0
      ∃ t, exec (.junctionSample temp) s = .next t ∧ t.fd .pwrTemp 0 0 0 8 = temp ∧
        t.fd .pwrTemp 0 0 16 8 = max temp (s.fd .pwrTemp 0 0 16 8) ∧ t.chip.hot = hot ∧
        (s.fd .pwrTemp 0 0 8 8 ≤ temp → t.flag .pwrStat 0 0 2 = true) ∧ 
        (105 ≤ temp → t.flag .clkSetpt 0 0 23 = true ∧ t.fd .clkSetpt 0 0 0 5 = 16 ∧ t.fd .clkSetpt 0 0 8 5 = 16 ∧ t.flag .clkSetpt 0 0 22 = false ∧
          t.flag .pwrStat 0 0 3 = true) ∧
        (temp < 105 → RegEvent [.pwrTemp, .pwrStat] s t) ∧
        (temp < 115 → hot < 1000 → RegEvent [.pwrTemp, .pwrStat, .clkSetpt] s t) ∧
        (115 ≤ temp ∨ 1000 ≤ hot → s.chip.cut = false → t.flag .pwrStat 0 0 4 = true ∧ t.chip.trip = true ∧ t.chip.coreOn = false ∧
          t.chip.cut = true ∧ t.cores = [] ∧ t.mem = [] ∧ ∀ p, p < 20 → t.fd .lnkStat p 0 0 3 = 0)) ∧
    (s.chip.coreOn = true → s.chip.waves < 8 → s.sec ≠ 6 ∨ s.chip.waves < 7 → exec .coreWave s = .next { s with chip := { s.chip with waves := s.chip.waves + 1 } }) ∧
    (s.chip.coreOn = false ∨ 8 ≤ s.chip.waves → exec .coreWave s = .next s)


/-! ### Power-up, resets, tenant switch, self-test -/

namespace Sys2Proof.Claims

/-- What needs main power and is no register is gone (R524, R536): memories and their check state, accumulators, kernels, lanes, execution state, host
interface, ports, packets, transfers, Bores, gate and Ebb dies, the CXL port's configuration, accesses held and memory keys. -/
def MainLost (t : State) : Prop :=
  t.mem = [] ∧ t.bad = [] ∧ t.acc = [] ∧ t.accBad = [] ∧ t.imBad = [] ∧ t.kern = [] ∧ t.kernBad = [] ∧ t.kernHdr = [] ∧ t.lanes = [] ∧
    t.laneF = [] ∧ t.cores = [] ∧ t.rings = [] ∧ t.cqs = [] ∧ t.snoop = [] ∧ t.biOut = [] ∧ t.ports = [] ∧ t.inbox = [] ∧ t.xfers = [] ∧
    t.sources = [] ∧ t.bores = [] ∧ t.gate = {} ∧ t.ebbs = [] ∧ t.cxl = {} ∧ t.held = [] ∧ t.chip.memKeys = []

/-- What the fuses, the flash and the owner record hold is as it was. -/
def SameFuses (s t : State) : Prop := t.chip.toNonVolatile = s.chip.toNonVolatile

/-- Nothing has changed but registers in `rs`, the chip's bookkeeping (not its fuses) and what is sent. -/
def ChipEvent (rs : List Reg) (s t : State) : Prop := RegEvent rs s t ∧ SameFuses s t

/-- SEC_STATE.STATE. -/
def secOf (s : State) : Nat := s.fd .secState 0 0 0 4

/-- A request from an owner of the chip, in a state that admits it (Table 16.5, R521). -/
abbrev Asked (s : State) (states : List Nat) : Prop := s.chip.anchor.isSome = true ∧ secOf s ∈ states

/-- Every die has a new pair of memory keys of 32 B each (R445). -/
def KeysOf (t : State) : Prop :=
  ∀ d, d < 10 → (Sparse.get ([], []) t.chip.memKeys d).1.length = 32 ∧ (Sparse.get ([], []) t.chip.memKeys d).2.length = 32

end Sys2Proof.Claims

/-- The commands of power-up (R497, R508, R509, R529 to R534, R537, R595, R598). Standby power brings every register to its reset value; the standby domain samples its index and shows the fused version; the PLL locks with the tick at 0; an image that passes every check
runs, its components in the memories of their processors, and the chip is in BOOT, one that fails leaves it in FAIL with the failing check; main domains start in their slot and power up in turn; training starts scrubs, under new memory keys, and the core
domain; the last scrub makes the chip READY, or STRANDED, with the bank group unlocked.
Model's choices: log entries 7, 53, 65 and 70. -/
def Obligations.PowerUpCompletes : Prop :=
  ∀ s : State,
    (∀ c, c = Instr.powerOnReset ∨ c = .standbyPowerLoss →
      ∃ t, exec c s = .next t ∧ (∀ r n i, t.rd r n i = Reg.reset r n i) ∧ MainLost t ∧ SameFuses s t ∧ t.chip.released = false ∧
        t.chip.mainPg = false ∧ t.chip.started = false ∧ t.chip.domains = 0 ∧ t.chip.stranded = false ∧ t.chip.sessions = []) ∧
    (∀ b bad, s.chip.released = false → ∃ t, exec (.standbyResetRelease b bad) s = .next t ∧ t.chip.released = true ∧ t.chip.bidx = b % 16 ∧
      t.fd .secState 0 0 16 8 = s.chip.fuseSvn % 256 ∧ (bad = true → t.flag .rstStat 0 0 7 = true) ∧
      (bad = false → t.rd .rstStat 0 0 = s.rd .rstStat 0 0) ∧ ChipEvent [.secState, .rstStat] s t) ∧
    (s.chip.released = true → s.flag .clkStat 0 0 0 = false →
      ∃ t, exec .pllLock s = .next t ∧ t.flag .clkStat 0 0 0 = true ∧ t.rd .clkTick 0 0 = 0#64 ∧ ChipEvent [.clkStat, .clkTick] s t) ∧
    (secOf s = 0 → s.chip.released = true → s.flag .clkStat 0 0 0 = true → s.flag .rstStat 0 0 7 = false →
      let m := s.chip.flash
      (s.imageFails m = none → ∃ t, exec .imageVerified s = .next t ∧ secOf t = 2 ∧ t.fd .secState 0 0 24 8 = natAt m 6 1 ∧
        t.fd .secState 0 0 12 2 = natAt m 7 1 % 4 ∧ t.chip.measured = (sliceB m 16 48, sliceB m 64 48) ∧ t.flag .csrLock 0 0 0 = true ∧
        t.chip.loaded = (sliceB m 17172 (natAt m 8 4), sliceB m (17172 + natAt m 8 4) (natAt m 12 4)) ∧
        (∀ p, p < 20 → t.fd .lnkVer p 0 0 8 = natAt m 112 1 ∧ t.fd .lnkVer p 0 8 8 = natAt m 113 1) ∧
        (t.flag .mgtCred 0 0 48 = true ↔ s.chip.anchor.isSome = true) ∧
        ChipEvent [.secState, .csrLock, .lnkVer, .mgtCred] s t) ∧
      (∀ k, s.imageFails m = some k → ∃ t, exec .imageVerified s = .next t ∧ secOf t = 1 ∧ t.flag .secEvt 0 0 k = true ∧
        t.outbox = s.outbox ++ [.mgmt 12 [k]] ∧ ChipEvent [.secState, .secEvt] s t)) ∧
    (∀ ms, s.chip.mainPg = false → ∃ t, exec (.mainPg ms) s = .next t ∧ t.chip.mainPg = true ∧
      (t.chip.trip = true ↔ s.chip.trip = true ∧ ms < 10) ∧ ChipEvent [] s t) ∧
    (∀ ms, let b := s.chip.bidx
      s.chip.mainPg = true → s.chip.started = false → secOf s = 2 → b ≤ ms → ms % 16 = b →
      ∃ t, exec (.mainDomainStart ms) s = .next t ∧ t.chip.started = true ∧ (ms ≠ b → t.flag .rstStat 0 0 4 = true) ∧ ChipEvent [.rstStat] s t) ∧
    (s.chip.started = true → s.chip.cut = false → s.chip.domains < 5 →
      ∃ t, exec .domainPowerUp s = .next t ∧ t.chip = { s.chip with domains := s.chip.domains + 1 } ∧ ChipEvent [] s t) ∧
    (secOf s = 2 → 4 ≤ s.chip.domains → s.chip.trained = false →
      (s.chip.rngBad = false → ∃ t, exec (.memoryTrainingComplete false) s = .next t ∧ secOf t = 3 ∧ t.chip.trained = true ∧ t.chip.coreOn = true ∧
        t.chip.waves = 0 ∧ t.fd .secSession 0 0 0 32 = min (s.fd .secSession 0 0 0 32 + 1) (2 ^ 32 - 1) ∧ KeysOf t ∧ t.rd .memScrub 0 0 = 0x6FF#64 ∧
        t.fd .clkSetpt 0 0 0 5 = 16 ∧ t.fd .clkSetpt 0 0 8 5 = 16 ∧
        ChipEvent [.secState, .secSession, .memScrub, .clkSetpt] s t) ∧
      (∃ t, exec (.memoryTrainingComplete true) s = .next t ∧ secOf t = 2 ∧ t.chip.trained = true ∧ t.flag .rstStat 0 0 6 = true ∧
        t.chip.coreOn = s.chip.coreOn ∧ ChipEvent [.rstStat] s t)) ∧
    (∀ k, k < 10 → let b := if k < 8 then k else k + 1
      s.flag .memScrub 0 0 b = true → s.chip.severNext = false → s.chip.resetNext = false →
      (secOf s ≠ 6 → ∃ t, exec (.scrubComplete k) s = .next t ∧ t.flag .memScrub 0 0 b = false ∧ SameBits .memScrub 0 0 (~~~(1#64 <<< b)) s t ∧
        (∀ a, inMemory k a = true → t.byte a = 0#8 ∧ t.isBad a = false) ∧
        (∀ a, inMemory k a = false → t.byte a = s.byte a ∧ t.isBad a = s.isBad a) ∧ SameUnits s t ∧ t.cores = s.cores ∧
        (secOf s = 3 → s.rd .memScrub 0 0 = 1#64 <<< b → secOf t = if s.chip.stranded then 7 else 4) ∧
        (secOf s = 3 → s.rd .memScrub 0 0 = 1#64 <<< b → t.flag .csrLock 0 0 1 = false ∧ SameBits .csrLock 0 0 (~~~2#64) s t) ∧
        (secOf s ≠ 3 ∨ s.rd .memScrub 0 0 ≠ 1#64 <<< b → secOf t = secOf s ∧ t.rd .csrLock 0 0 = s.rd .csrLock 0 0) ∧
        SameRegs [.memScrub, .secState, .csrLock] s t ∧ SameFuses s t))

/-- The resets and the tenant switch (R523 to R525, R543 to R545, Tables 16.6, 17.4), the self-test (R539 to R541), the entropy source (R513). A main-power reset brings its registers to their reset values, unlocks the bank group, and a firmware reset those of Table 17.4, and what needs main power is gone; a firmware reset does not restore what a thermal trip has cut.
A tenant switch stops the cores, ends rings, IDE and SPDM sessions, and drops packets of the old domain that wait for new keys; once the chip is quiet the requests that wait are discarded and counted, the memories close, scrubs start under new keys and the tenant's
memories lose power; then power comes back, and with every scrub done and the last wave of cores out of reset the switch's registers are at their reset values and the chip is READY.
Model's choices: log entries 7, 58 to 60, 62 and 71. -/
def Obligations.ResetsAndSwitchesComplete : Prop :=
  ∀ s : State,
    (∀ fell, ∃ t, exec (.mainPowerReset fell) s = .next t ∧ MainLost t ∧ SameFuses s t ∧
      (∀ r n i, mainResets r = true → r ≠ .clkSetpt → r ≠ .rstStat → r ≠ .secState → t.rd r n i = Reg.reset r n i) ∧
      (∀ r n i, mainResets r = false → r ∉ [Reg.clkSetpt, .rstStat, .secState, .csrLock] → t.rd r n i = s.rd r n i) ∧
      t.flag .csrLock 0 0 1 = false ∧ SameBits .csrLock 0 0 (~~~2#64) s t ∧ secOf t = min (secOf s) 2 ∧ t.fd .clkSetpt 0 0 0 5 = 16 ∧ t.fd .clkSetpt 0 0 8 5 = 16 ∧ t.fd .rstStat 0 0 0 4 = 2 ∧
      t.chip.mainPg = (s.chip.mainPg && !fell) ∧ t.chip.started = false ∧ t.chip.domains = 0 ∧ t.chip.coreOn = false ∧
      (fell = true → s.chip.started = true → t.flag .rstStat 0 0 5 = true)) ∧
    (Asked s [1, 2, 3, 4, 5, 7] →
      ∃ t, exec .firmwareReset s = .next t ∧ t.chip.cut = s.chip.cut ∧ MainLost t ∧ SameFuses s t ∧ secOf t = 0 ∧ t.fd .rstStat 0 0 0 4 = 3 ∧
        (∀ r n i, firmwareResets r = true → r ∉ [Reg.clkStat, .rstStat, .secState] → t.rd r n i = Reg.reset r n i) ∧
        (∀ r n i, firmwareResets r = false → r ∉ [Reg.clkStat, .rstStat, .secState] → t.rd r n i = s.rd r n i) ∧
        t.chip.measured = ([], []) ∧ t.chip.sessions = [] ∧ t.chip.started = false) ∧
    (Asked s [6] →
      exec .firmwareReset s = .next { s with chip := { s.chip with resetNext := true } }) ∧
    (Asked s [4, 5, 7] →
      ∃ t, exec .tenantSwitch s = .next t ∧ secOf t = 6 ∧ t.fd .rteDomain 0 0 0 16 = 0 ∧ (∀ n, n < 256 → t.flag .coreCtl n 0 0 = true) ∧
        t.rings = [] ∧ t.cqs = [] ∧ t.chip.ideSess = none ∧ t.chip.sessions = [] ∧ t.chip.handshakes = [] ∧ SameFuses s t ∧
        (∀ p, p < 20 → (t.port p).later = (s.port p).later.filter fun e => e.2.dom != s.fd .rteDomain 0 0 0 16) ∧
        SameMem s t ∧ SameUnits s t ∧
        SameRegs [.secState, .rteDomain, .coreCtl, .coreStat, .dmaStat, .cxlRingstat, .cxlCqstat, .cxlLinkstat] s t) ∧
    (∀ late, secOf s = 6 → s.chip.closed = false → late = true ∨ s.drained = true → s.chip.rngBad = false →
      ∃ t, exec (.memoryClose late) s = .next t ∧ t.chip.closed = true ∧ t.chip.coreOn = false ∧ t.rd .memScrub 0 0 = 0x6FF#64 ∧
        t.flag .csrLock 0 0 1 = true ∧ (∀ a, inScratch a = true → t.byte a = 0#8) ∧ (∀ a, inScratch a = false → t.byte a = s.byte a) ∧
        t.acc = [] ∧ t.kern = [] ∧ t.lanes = [] ∧ t.cores = [] ∧ t.inbox = [] ∧ t.xfers = [] ∧ t.sources = [] ∧ t.bores = [] ∧ t.ebbs = [] ∧
        t.held = s.held.filter fromHost ∧
        t.fd .secSwdrop 0 0 0 32 =
          min (s.fd .secSwdrop 0 0 0 32 + (s.inbox.length + (s.held.filter fun c => !fromHost c).length)) (2 ^ 32 - 1) ∧
        (∀ n i, t.rd .ebbSeg n i = Reg.reset .ebbSeg n i ∧ t.rd .ebbRule n i = Reg.reset .ebbRule n i) ∧ KeysOf t ∧
        t.snoop = [] ∧ (∀ n, n < 256 → t.rd .spdBankst n 0 = 0xAAAAAAAAAAAAAAAA#64) ∧ secOf t = 6 ∧ SameFuses s t) ∧
    (secOf s = 6 → s.chip.closed = true → s.chip.coreOn = false → s.chip.cut = false →
      ∃ t, exec .switchPowerRestore s = .next t ∧ t.chip.coreOn = true ∧ t.chip.waves = 0 ∧
        (∀ n, n < 256 → t.rd .spdBankst n 0 = 0#64) ∧ t.fd .clkSetpt 0 0 8 5 = 16 ∧ secOf t = 6 ∧ SameMem s t ∧
        ChipEvent [.spdBankpwr, .spdBankst, .clkSetpt] s t) ∧
    (s.chip.cut = true → exec .switchPowerRestore s = .next s) ∧
    (secOf s = 6 → s.chip.closed = true → s.chip.coreOn = true → s.chip.keysWait = false → s.chip.severNext = false → s.chip.resetNext = false →
      s.fd .tstStat 0 0 0 2 ≠ 1 →
      let Ends (t : State) : Prop := secOf t = (if s.chip.stranded then 7 else 4) ∧ t.chip.closed = false ∧ t.cores = [] ∧
        (∀ r n i, switchResets r = true → t.rd r n i = Reg.reset r n i) ∧ t.fd .rstStat 0 0 0 4 = 4 ∧ t.flag .csrLock 0 0 1 = false ∧
        t.fd .secSession 0 0 0 32 = min (s.fd .secSession 0 0 0 32 + 1) (2 ^ 32 - 1) ∧ SameFuses s t
      (s.chip.waves = 7 → s.rd .memScrub 0 0 = 0#64 → ∃ t, exec .coreWave s = .next t ∧ Ends t ∧ SameMem s t) ∧
      (∀ k, k < 10 → s.chip.waves = 8 → s.rd .memScrub 0 0 = 1#64 <<< (if k < 8 then k else k + 1) →
        ∃ t, exec (.scrubComplete k) s = .next t ∧ Ends t ∧
          ∀ a, t.byte a = (if inMemory k a then 0#8 else s.byte a) ∧ t.isBad a = (!inMemory k a && s.isBad a))) ∧
    (s.chip.anchor.isSome = true → secOf s = 4 ∨ secOf s = 7 → s.fd .rteDomain 0 0 0 16 = 0 → s.fd .tstStat 0 0 0 2 ≠ 1 →
      ∃ t, exec .selfTest s = .next t ∧ t.flag .tstCtl 0 0 0 = true ∧ t.rd .tstStat 0 0 = 0x11#64 ∧ (∀ i, t.rd .tstFailcore 0 i = 0#64) ∧
        ChipEvent [.tstCtl, .tstStat, .tstFailcore] s t) ∧
    (∀ cores unit, let p := s.fd .tstStat 0 0 4 4
      s.fd .tstStat 0 0 0 2 = 1 → 1 ≤ p → p ≤ 6 → secOf s ≠ 6 →
      ∃ t, exec (.selfTestPhase cores unit) s = .next t ∧ t.fd .tstStat 0 0 4 4 = p + 1 ∧
        (∀ n, n < 256 → (t.flag .tstFailcore 0 (n / 64) (n % 64) = true ↔ s.flag .tstFailcore 0 (n / 64) (n % 64) = true ∨ n ∈ cores)) ∧
        ((∃ n ∈ cores, n < 256) ∨ unit = true → t.flag .tstStat 0 0 (23 + p) = true) ∧ SameMem s t ∧ SameFuses s t ∧
        (p < 6 → ChipEvent [.tstStat, .tstFailcore] s t) ∧ (p = 6 → secOf t = 6)) ∧
    (∃ t, exec .rngHealthFail s = .next t ∧ t.chip = { s.chip with rngBad := true } ∧ t.flag .secEvt 0 0 6 = true ∧
      t.outbox = s.outbox ++ [.mgmt 17 []] ∧ ChipEvent [.secEvt] s t) ∧
    (∃ t, exec .entropyHealthPass s = .next t ∧ t.chip = { s.chip with rngBad := false, keysWait := false, memKeys := t.chip.memKeys } ∧
      (if s.chip.keysWait then KeysOf t else t.chip.memKeys = s.chip.memKeys) ∧
      t.rd .memScrub 0 0 = (if s.chip.keysWait then 0x6FF#64 else s.rd .memScrub 0 0) ∧ ChipEvent [.memScrub] s t)


/-! ### Requests to Headland -/

namespace Sys2Proof.Claims

/-- A request turned away for its state: SEC_EVT.REQREF is set, management is told, nothing else has changed. -/
def TurnedAway (code : Nat) (s t : State) : Prop :=
  t.flag .secEvt 0 0 5 = true ∧ t.outbox = s.outbox ++ [.mgmt 1 [code]] ∧ t.chip = s.chip ∧ RegEvent [.secEvt] s t

end Sys2Proof.Claims

/-- Requests that set registers or the chip's identity (R411, R413, R436, R452, R484 to R488, R500, R516, R538, R598, Table 16.5): coordinates while every port is down and the index agrees, fingerprints, the domain tag, which makes a READY chip a job's, transit tags, the set point with its tick
unless it is refused, power limit, HBM threshold within 70 to 95, IDE policy. In any other state, or without an owner, the request is turned away.
Model's choices: log entries 10, 30 and 61. -/
def Obligations.SettingRequestsComplete : Prop :=
  ∀ s : State,
    (∀ v, v < 2 ^ 24 → Asked s [4, 5] → (∀ p, p < 20 → s.fd .lnkStat p 0 0 3 = 0 ∨ s.fd .lnkStat p 0 0 3 = 6) → boardOf v = s.chip.bidx →
      ∃ t, exec (.setCoordinates v) s = .next t ∧ t.fd .rteCoord 0 0 0 24 = v ∧ t.chip = s.chip ∧ RegEvent [.rteCoord] s t) ∧
    (∀ v, v < 2 ^ 24 → Asked s [4, 5] → (∃ p, p < 20 ∧ s.fd .lnkStat p 0 0 3 ≠ 0 ∧ s.fd .lnkStat p 0 0 3 ≠ 6) ∨ boardOf v ≠ s.chip.bidx →
      exec (.setCoordinates v) s = .next { s with outbox := s.outbox ++ [.mgmt 1 [10]] }) ∧
    (∀ k fp, k < 64 → Asked s [4, 5] →
      ∃ t, exec (.installFingerprints k fp) s = .next t ∧
        (∀ j, Sparse.get [] t.chip.fingers j = if j = k then fp else Sparse.get [] s.chip.fingers j) ∧ ChipEvent [] s t) ∧
    (∀ v, Asked s [4] → s.fd .rteDomain 0 0 0 16 = 0 →
      ∃ t, exec (.setRteDomain v) s = .next t ∧ t.fd .rteDomain 0 0 0 16 = v % 2 ^ 16 ∧ secOf t = (if v % 2 ^ 16 = 0 then 4 else 5) ∧
        t.chip = s.chip ∧ RegEvent [.rteDomain, .secState] s t) ∧
    (∀ v, Asked s [4] → s.fd .rteDomain 0 0 0 16 ≠ 0 → ∃ t, exec (.setRteDomain v) s = .next t ∧ TurnedAway 12 s t) ∧
    (∀ v, Asked s [4, 5] → ∃ t, exec (.setRteTransit v) s = .next t ∧ t.rd .rteTransit 0 0 = v ∧ t.chip = s.chip ∧ RegEvent [.rteTransit] s t) ∧
    (∀ k due, Asked s [3, 4, 5, 6, 7] →
      let refused := 16 < k ∨ (k < 4 ∧ s.fd .csrId 0 0 16 8 = 1) ∨ (s.flag .clkSetpt 0 0 23 = true ∧
        ¬(s.fd .pwrTemp 0 0 0 8 < s.fd .pwrTemp 0 0 8 8 ∧ s.fd .pwrMeas 0 0 0 16 < s.fd .pwrCap 0 0 0 16))
      (¬refused → ∃ t, exec (.setpointRequest k due) s = .next t ∧ t.fd .clkSetpt 0 0 0 5 = k ∧ t.flag .clkSetpt 0 0 22 = true ∧
        t.rd .clkSetat 0 0 = due ∧ t.fd .clkSetpt 0 0 8 5 = s.fd .clkSetpt 0 0 8 5 ∧ t.chip = s.chip ∧ RegEvent [.clkSetpt, .clkSetat] s t) ∧
      (refused → ∃ t, exec (.setpointRequest k due) s = .next t ∧ t.flag .clkSetpt 0 0 20 = true ∧ t.outbox = s.outbox ++ [.mgmt 9 [k]] ∧
        SameBits .clkSetpt 0 0 (~~~0x100000#64) s t ∧ t.chip = s.chip ∧ RegEvent [.clkSetpt] s t)) ∧
    (∀ v, Asked s [3, 4, 5, 6, 7] → ∃ t, exec (.setPwrCap v) s = .next t ∧ t.fd .pwrCap 0 0 0 16 = v % 2 ^ 16 ∧ t.chip = s.chip ∧
      RegEvent [.pwrCap] s t) ∧
    (∀ k thr hyst band, k < 8 → thr < 256 → hyst < 16 → band < 16 → Asked s [3, 4, 5, 6, 7] →
      ∃ t, exec (.setHbmThr k thr hyst band) s = .next t ∧ t.fd .hbmThr k 0 0 8 = max 70 (min 95 thr) ∧ t.fd .hbmThr k 0 8 4 = hyst ∧
        t.fd .hbmThr k 0 12 4 = max 1 band ∧ (∀ j, j ≠ k → t.rd .hbmThr j 0 = s.rd .hbmThr j 0) ∧ t.chip = s.chip ∧ RegEvent [.hbmThr] s t) ∧
    (∀ req, Asked s [4] → ∃ t, exec (.setIdePolicy req) s = .next t ∧ t.flag .cxlIdepol 0 0 0 = req ∧ t.chip = s.chip ∧ RegEvent [.cxlIdepol] s t) ∧
    (∀ c code states, (c, code, states) ∈ [(Instr.setCoordinates 0, 10, [4, 5]), (.installFingerprints 0 [], 11, [4, 5]), (.setRteDomain 1, 12, [4]),
        (.setRteTransit 0#64, 13, [4, 5]), (.setpointRequest 8 0#64, 14, [3, 4, 5, 6, 7]), (.setPwrCap 1, 15, [3, 4, 5, 6, 7]),
        (.setHbmThr 0 80 2 5, 16, [3, 4, 5, 6, 7]), (.setIdePolicy true, 17, [4])] → ¬Asked s states →
      ∃ t, exec c s = .next t ∧ TurnedAway code s t)

/-- Requests about image, fuses, owner, severance and debug, Shingle's mailbox, the management network (R510 to R512, R520 to R522, R525, R526, R557, R564 to R568). A manifest that passes puts the delivered image into flash; the fused version rises to the running one; a slot is revoked for good by another slot's keys;
an owner is installed once, by the hash of a certificate that the client of an open session has presented, and changed by one that chains to it; severance strands the chip, stops its cores and is announced; re-admission starts the self-test; a valid token
starts the switch to debug; a mailbox request stops or releases cores of a job; liveness, its timeout, heartbeat, which a PERIOD of 0 turns off, and connections, which need the entropy source and an offer of the suite.
Model's choices: log entries 10, 51, 61 and 65. -/
def Obligations.SecurityRequestsComplete : Prop :=
  ∀ s : State,
    (∀ image stored, Asked s [0, 1, 2, 3, 4, 5, 7] →
      (s.manifestFails image = none → ∃ t, exec (.imageDelivery image stored) s = .next t ∧ t.chip = { s.chip with flash := stored } ∧
        t.outbox = s.outbox ++ [.mgmt 15 [match s.imageFails stored with | some k => 1 + k | none => 0]] ∧ RegEvent [] s t) ∧
      (∀ k, s.manifestFails image = some k →
        exec (.imageDelivery image stored) s = .next { s with outbox := s.outbox ++ [.mgmt 15 [1 + k]] })) ∧
    (Asked s [0, 1, 2, 3, 4, 5, 7] →
      ∃ t, exec .svnCommit s = .next t ∧ t.chip = { s.chip with fuseSvn := max s.chip.fuseSvn (s.fd .secState 0 0 24 8) } ∧
        t.fd .secState 0 0 16 8 = t.chip.fuseSvn % 256 ∧ secOf t = secOf s ∧ RegEvent [.secState] s t) ∧
    (∀ slot signer rp sp rsa slh, Asked s [0, 1, 2, 3, 4, 5, 7] →
      let good := slot < 4 ∧ slot ≠ signer ∧ ¬(2 ≤ secOf s ∧ s.fd .secState 0 0 12 2 = slot) ∧
        s.slotSigned signer rp sp (BitVec.ofNat 8 slot :: Config.identityHash) rsa slh = true
      (good → exec (.revokeSlot slot signer rp sp rsa slh) s = .next { s with chip := { s.chip with revoked := s.chip.revoked ||| 2 ^ slot } }) ∧
      (¬good → exec (.revokeSlot slot signer rp sp rsa slh) s = .next { s with outbox := s.outbox ++ [.mgmt 1 [6]] })) ∧
    (∀ h, (s.chip.anchor = none → h ∈ s.chip.anchors →
        ∃ t, exec (.ownerInstall h) s = .next t ∧ t.chip = { s.chip with owner := some h, ownerDiff := 0 } ∧
          t.flag .mgtCred 0 0 48 = true ∧ RegEvent [.mgtCred] s t) ∧
      (s.chip.anchor ≠ none ∨ h ∉ s.chip.anchors → ∃ t, exec (.ownerInstall h) s = .next t ∧ TurnedAway 7 s t)) ∧
    (∀ h chains, (s.chip.anchor ≠ none → chains = true → ∃ t, exec (.ownerChange h chains) s = .next t ∧
        t.chip = { s.chip with owner := some h, ownerDiff := 0 } ∧ t.flag .mgtCred 0 0 48 = true ∧ RegEvent [.mgtCred] s t) ∧
      (s.chip.anchor = none ∨ chains = false → ∃ t, exec (.ownerChange h chains) s = .next t ∧ TurnedAway 8 s t)) ∧
    (Asked s [4, 5, 7] → ∃ t, exec .sever s = .next t ∧ secOf t = 7 ∧ t.chip = { s.chip with stranded := true } ∧
      (∀ n, n < 256 → t.flag .coreCtl n 0 0 = true) ∧ t.flag .gateCfg 0 0 0 = false ∧ Recorded s t ∧
      (∀ p, p < 20 → s.fd .lnkStat p 0 0 3 = 5 → .control p 3 [1] ∈ t.outbox) ∧
      (∀ e, e < 2 → (t.ebb e).mirDue = none ∧ (t.ebb e).mirror = none ∧ (t.ebb e).snap = none ∧ t.ebbState e ≠ 3) ∧ SameMem s t ∧ SameUnits s t) ∧
    (Asked s [6] → exec .sever s = .next { s with chip := { s.chip with severNext := true } }) ∧
    (secOf s = 7 → ∃ t, exec .strandedAnnounce s = .next t ∧
      t = { s with outbox := s.outbox ++ ((List.range 20).filter fun p => s.fd .lnkStat p 0 0 3 == 5).map (fun p => .control p 3 [1]) }) ∧
    (secOf s ≠ 7 → exec .strandedAnnounce s = .next s) ∧
    (Asked s [7] → s.fd .tstStat 0 0 0 2 ≠ 1 → ∃ t, exec .reAdmit s = .next t ∧ t.chip = { s.chip with readmit := true } ∧
      t.flag .tstCtl 0 0 0 = true ∧ t.rd .tstStat 0 0 = 0x11#64 ∧ RegEvent [.tstCtl, .tstStat, .tstFailcore] s t) ∧
    (∀ slot rp sp nonce rsa slh, Asked s [4] →
      let good := Config.nonceIssued nonce = true ∧ s.slotSigned slot rp sp (Config.identityHash ++ nonce) rsa slh = true
      (good → ∃ t, exec (.debugUnlock slot rp sp nonce rsa slh) s = .next t ∧ secOf t = 6 ∧ t.chip.dbgNext = true ∧ SameFuses s t ∧
        (∀ n, n < 256 → t.flag .coreCtl n 0 0 = true) ∧ SameMem s t ∧ SameUnits s t) ∧
      (¬good → exec (.debugUnlock slot rp sp nonce rsa slh) s = .next { s with outbox := s.outbox ++ [.mgmt 1 [9]] })) ∧
    (∀ ns, (secOf s = 5 →
        (∃ t, exec (.stopSetRequest ns) s = .next t ∧ (∀ n, n ∈ ns → n < 256 → t.flag .coreCtl n 0 0 = true) ∧
          (∀ n, n ∉ ns → t.core n = s.core n ∧ t.rd .coreCtl n 0 = s.rd .coreCtl n 0) ∧ Recorded s t ∧ SameMem s t ∧ SameUnits s t ∧
          SameRegs (.coreCtl :: .coreStat :: .dmaStat :: logRegs) s t) ∧
        (∃ t, exec (.stopClearRequest ns) s = .next t ∧ (∀ n, n ∈ ns → n < 256 → t.flag .coreCtl n 0 0 = false) ∧
          (∀ n, n ∉ ns → t.core n = s.core n ∧ t.rd .coreCtl n 0 = s.rd .coreCtl n 0) ∧ Recorded s t ∧ SameMem s t ∧ SameUnits s t ∧
          SameRegs (.coreCtl :: .coreStat :: .dmaStat :: logRegs) s t)) ∧
      (secOf s ≠ 5 → exec (.stopSetRequest ns) s = .next s ∧ exec (.stopClearRequest ns) s = .next s)) ∧
    (exec .livenessRequest s = .next { s with chip := { s.chip with live := s.tick } }) ∧
    (s.chip.live + 1200000000 ≤ s.tick → ∃ t, exec .shingleTimeout s = .next t ∧ t.flag .mgtHbt 0 0 16 = true ∧
      SameBits .mgtHbt 0 0 (~~~0x10000#64) s t ∧ RegEvent [.mgtHbt] s t) ∧
    (s.tick < s.chip.live + 1200000000 → exec .shingleTimeout s = .next s) ∧
    (s.chip.dtls ≠ 0 → s.fd .mgtHbt 0 0 0 16 ≠ 0 → ∃ t vals, exec .heartbeat s = .next t ∧ t = { s with outbox := s.outbox ++ [.mgmt 16 vals] } ∧
      vals.take 4 = [s.tick, (s.rd .secState 0 0).toNat, (s.rd .gateStep 0 0).toNat, (s.rd .fltHead 0 0).toNat] ∧ vals.length = 10) ∧
    (s.chip.dtls = 0 ∨ s.fd .mgtHbt 0 0 0 16 = 0 → exec .heartbeat s = .next s) ∧
    (∀ offers chains cert hello, let c := Instr.dtlsConnection offers chains cert hello
      (offers = true → s.chip.rngBad = false → chains = true ∨ s.chip.anchor = none →
        ∃ (t : State) (share sig : List Byte), exec c s = .next t ∧
          t.chip = { s.chip with dtls := s.chip.dtls + 1, anchors := s.chip.anchors ++ [cert] } ∧
          t.outbox = s.outbox ++ [.dtls (share ++ s.chain ++ sig), .mgmt 18 [1]] ∧ share.length = 96 ∧
          (s.chip.aliasGone = false →
            sig = Config.aliasRsa s.chip.measured.1 (s.fd .secState 0 0 24 8) (Config.sha384 (hello ++ share ++ s.chain))) ∧ RegEvent [] s t) ∧
      (offers = false ∨ s.chip.rngBad = true → exec c s = .next { s with outbox := s.outbox ++ [.mgmt 18 [0]] }) ∧
      (offers = true → s.chip.rngBad = false → chains = false → s.chip.anchor ≠ none → ∃ t, exec c s = .next t ∧
        t.fd .mgtAuthf 0 0 0 32 = min (s.fd .mgtAuthf 0 0 0 32 + 1) (2 ^ 32 - 1) ∧ t.outbox = s.outbox ++ [.mgmt 18 [0]] ∧ t.chip = s.chip ∧
        RegEvent [.mgtAuthf] s t))

/-! ### Attestation, test port, register writes -/

namespace Sys2Proof.Claims

/-- A response has been sent (and nothing but the chip's bookkeeping and free values has changed). -/
def Answered (code : Nat) (s t : State) : Prop := ∃ bs, t.outbox = s.outbox ++ [.spdm code bs] ∧ ChipEvent [] s t

end Sys2Proof.Claims

/-- The SPDM requests over a transport that is up (R517 to R519): each is answered; CHALLENGE and signed measurements are kept under their nonce, at most eight of them, for the second signature; sessions open after a key exchange and a
verified FINISH and end; IDE keys go with their session. The test port (R604, R605): each instruction shifts its register, which for IDCODE is the identification code, and sets what the pins do; EXTEST, CLAMP and HIGHZ act as BYPASS while MAIN_PG is high.
Model's choices: log entries 9, 10, 52 and 64. -/
def Obligations.AttestationAndTestPortComplete : Prop :=
  (∀ (s : State) (doe : Bool), s.spdmUp doe = true →
    exec (.getVersion doe) s = .next { s with outbox := s.outbox ++ [.spdm 1 [0x13#8]] } ∧
    exec (.getCapabilities doe) s = .next { s with outbox := s.outbox ++ [.spdm 2 (Config.spdmBody 2 0)] } ∧
    (∀ a b, exec (.negotiateAlgorithms doe a b) s =
      .next { s with outbox := s.outbox ++ [if a && b then .spdm 3 (Config.spdmBody 3 0) else .spdm 0 [3#8]] }) ∧
    exec (.getDigests doe) s = .next { s with outbox := s.outbox ++ [.spdm 4 (Config.sha384 s.chain)] } ∧
    (∀ off len, exec (.getCertificate doe 0 off len) s = .next { s with outbox := s.outbox ++ [.spdm 5 ((s.chain.drop off).take len)] }) ∧
    (∀ nonce, ∃ (t : State) (mine msg : List Byte), exec (.challenge doe 0 nonce) s = .next t ∧ Answered 6 s t ∧
      t.chip.signable = ((mine, msg) :: s.chip.signable).take 8 ∧ Config.sha384 s.chain <+: msg ∧ nonce <:+ msg) ∧
    (∀ k nonce, 1 ≤ k → k ≤ 8 →
      exec (.getMeasurements doe k false nonce) s = .next { s with outbox := s.outbox ++ [.spdm 7 (s.measurement k)] } ∧
      ∃ (t : State) (mine : List Byte), exec (.getMeasurements doe k true nonce) s = .next t ∧ Answered 7 s t ∧
        t.chip.signable = ((mine, s.measurement k ++ mine ++ nonce) :: s.chip.signable).take 8) ∧
    (∀ nonce, exec (.getMeasurements doe 0xFF false nonce) s =
      .next { s with outbox := s.outbox ++ [.spdm 7 ((List.range 8).flatMap fun j => s.measurement (j + 1))] }) ∧
    (∀ sess, s.chip.rngBad = false → (doe, sess) ∉ s.chip.sessions → (doe, sess) ∉ s.chip.handshakes →
      ∃ t, exec (.keyExchange doe sess) s = .next t ∧ Answered 8 s t ∧ t.chip = { s.chip with handshakes := s.chip.handshakes ++ [(doe, sess)] }) ∧
    (∀ sess, (doe, sess) ∈ s.chip.handshakes →
      (∃ t, exec (.finish doe sess true) s = .next t ∧ Answered 9 s t ∧
        t.chip = { s.chip with handshakes := s.chip.handshakes.erase (doe, sess), sessions := s.chip.sessions ++ [(doe, sess)] }) ∧
      ∃ t, exec (.finish doe sess false) s = .next t ∧ Answered 0 s t ∧
        t.chip = { s.chip with handshakes := s.chip.handshakes.erase (doe, sess) }) ∧
    (∀ sess, (doe, sess) ∈ s.chip.sessions →
      ∃ t, exec (.endSession doe sess) s = .next t ∧ t.chip.sessions = s.chip.sessions.erase (doe, sess) ∧ t.outbox = s.outbox ++ [.spdm 10 []] ∧
        (doe = true → s.chip.ideSess = some sess → t.chip.ideSess = none ∧ t.fd .cxlLinkstat 0 0 8 2 = 0) ∧
        (doe = false ∨ s.chip.ideSess ≠ some sess → t.chip.ideSess = s.chip.ideSess ∧ SameRegs [] s t) ∧ ChipEvent [.cxlLinkstat] s t) ∧
    (∀ nonce msg ms, s.chip.signable.find? (fun e => e.1 == nonce) = some (nonce, msg) →
      (ms ≤ 10000 → ∃ t, exec (.vendorDefined doe 1 nonce ms) s = .next t ∧ Answered 11 s t ∧ t.chip = s.chip) ∧
      (10000 < ms → exec (.vendorDefined doe 1 nonce ms) s = .next { s with outbox := s.outbox ++ [.spdm 0 [11#8]] }))) ∧
  (∀ (s : State) (tdi levels : List Bool),
    let Shifts (reg : List Bool) (t : State) : Prop := t.outbox = s.outbox ++ [.tdo ((reg ++ tdi).take tdi.length)]
    let pins (k : Nat) : Nat := if s.chip.mainPg then 0 else k;
    (∀ c k, (c, k) ∈ [(Instr.bypass tdi, 0), (.clamp tdi, pins 1), (.highz tdi, pins 2)] →
      ∃ t, exec c s = .next t ∧ Shifts [false] t ∧ t.chip = { s.chip with pins := k } ∧ RegEvent [] s t) ∧
    (∃ t, exec (.idcode tdi) s = .next t ∧ Shifts ((List.range 32).map fun i => (0x1C1A05D3#32).getLsbD i) t ∧
      t.chip = { s.chip with pins := 0 } ∧ RegEvent [] s t) ∧
    (∃ t, exec (.samplePreload levels tdi) s = .next t ∧ Shifts levels t ∧
      t.chip = { s.chip with pins := 0, boundary := (levels ++ tdi).drop tdi.length } ∧ RegEvent [] s t) ∧
    (s.chip.mainPg = false → ∃ t, exec (.extest levels tdi) s = .next t ∧ Shifts levels t ∧
      t.chip = { s.chip with pins := 1, boundary := (levels ++ tdi).drop tdi.length } ∧ RegEvent [] s t) ∧
    (s.chip.mainPg = true → exec (.extest levels tdi) s = exec (.bypass tdi) s))

/-- REGISTER_WRITE (R577 to R581, R585 to R589). A write to an unassigned offset, one of a wrong size or alignment, one to a register the agent may not write, and one of the host while IDE is required and missing is refused: CSR_REFCNT counts it and the
register is as it was. A host write of 16 to 64 B is performed as 8 B writes in ascending order; a host write while the link is down does not arrive. A write of a register without an action of its own (those named in the statement) changes that word alone, field by field, the fields a lock holds excepted.
Model's choices: log entry 29. -/
def Obligations.RegisterWritesComplete : Prop :=
  ∀ (s : State) (a : Agent) (off size : Nat) (v : W64),
    let c := Instr.registerWrite a off size v []
    let Refused : Prop := ∃ t, exec c s = .next t ∧ SameRegs [.csrRefcnt, .csrRefaddr] s t ∧ OnlyRegs s t ∧
      (a = .host ∨ a = .shingle → t.fd .csrRefcnt 0 0 0 32 = min (s.fd .csrRefcnt 0 0 0 32 + 1) (2 ^ 32 - 1))
    (s.arrives a = false → ∀ more, exec (.registerWrite a off size v more) s = .next s) ∧
    (s.arrives a = true → a = .host → s.ideMissing = true → Refused) ∧
    (s.arrives a = true → (size ≠ 4 ∧ size ≠ 8) ∨ off % size ≠ 0 → Refused) ∧
    (s.arrives a = true → ¬(a = .host ∧ s.ideMissing = true) → (size = 4 ∨ size = 8) → off % size = 0 → locate off = none → locate (off + 4) = none → Refused) ∧
    (∀ w more, size = 8 * ((w :: more).length + 1) → size ≤ 64 → off % 8 = 0 →
      (a = .host → ∀ t, exec (.registerWrite a off 8 v []) s = .next t →
        exec (.registerWrite a off size v (w :: more)) s = exec (.registerWrite a (off + 8) (size - 8) w more) t) ∧
      (a = .shingle → ∃ t, exec (.registerWrite a off size v (w :: more)) s = .next t ∧ SameRegs [.csrRefcnt, .csrRefaddr] s t ∧ OnlyRegs s t ∧
        t.fd .csrRefcnt 0 0 0 32 = min (s.fd .csrRefcnt 0 0 0 32 + 1) (2 ^ 32 - 1))) ∧
    (∀ h, s.arrives a = true → ¬(a = .host ∧ s.ideMissing = true) → locate off = some h → (size = 4 ∨ size = 8 ∧ h.r.info.width = 64) → off % size = 0 →
      ((mayReach a h.r).2 = false → Refused) ∧
      (∀ r ∈ [Reg.gateWdog, .boreWdog, .boreNsaddr, .ebbMirwd, .ebbDone, .ebbStgbase, .ebbDonecore, .coreWaitwd, .cxlSteprec, .rteXcfg, .clkDroop,
          .clkTickcfg], h.r = r → (mayReach a r).2 = true → (r.info.blk = .ebb → (s.ebb h.n).checked = false) →
        let w := s.wordAfter a h size ((v &&& maskOf 64 0 (8 * size)) <<< (8 * h.byte))
        ∃ t, exec c s = .next t ∧ t.rd r h.n h.i = w.1 ∧ (w.2 = false → SameRegs [r] s t) ∧
          (∀ q n i, (q, n, i) ≠ (r, h.n, h.i) → q ≠ .csrRefcnt → q ≠ .csrRefaddr → t.rd q n i = s.rd q n i) ∧ OnlyRegs s t))
end

