-- ==== Sys2Proof/Laws/Sparse.lean ====
section
/-! SUPPORT. Laws of sparse stores: a read after a write, and the canonical form that every operation keeps. -/

namespace Sys2Proof.Machine

variable {α : Type}

/-- A read after a write gives the value written at its key, and what was there elsewhere. -/
@[simp] theorem Sparse.get_set [DecidableEq α] (d : α) (m : List (Nat × α)) (a b : Nat) (v : α) :
    Sparse.get d (Sparse.set d m a v) b = if a = b then v else Sparse.get d m b := by
  induction m with
  | nil =>
    by_cases hv : v = d <;> by_cases hb : a = b <;> simp [Sparse.set, Sparse.get, hv, hb]
  | cons e t ih =>
    obtain ⟨k, w⟩ := e
    simp only [Sparse.set]
    split
    · split
      · simp only [Sparse.get, ih]; split <;> split <;> first | rfl | omega
      · simp only [Sparse.get]
    · split
      · subst_vars
        split
        · simp only [ih, Sparse.get]; split <;> rfl
        · simp only [Sparse.get]; split <;> rfl
      · simp only [Sparse.get, ih]; split <;> split <;> first | rfl | omega

theorem Sparse.wfFrom_mono [DecidableEq α] (d : α) (lo lo' : Nat) (h : lo' ≤ lo) (m : List (Nat × α))
    (hm : Sparse.wfFrom d lo m = true) : Sparse.wfFrom d lo' m = true := by
  cases m with
  | nil => rfl
  | cons e t =>
    simp only [Sparse.wfFrom, Bool.and_eq_true, decide_eq_true_eq] at hm ⊢
    exact ⟨⟨by omega, hm.1.2⟩, hm.2⟩

theorem Sparse.set_default_id [DecidableEq α] (d : α) (lo a : Nat) (h : a < lo) (m : List (Nat × α))
    (hm : Sparse.wfFrom d lo m = true) : Sparse.set d m a d = m := by
  induction m generalizing lo with
  | nil => simp [Sparse.set]
  | cons e t ih =>
    simp only [Sparse.wfFrom, Bool.and_eq_true, decide_eq_true_eq] at hm
    have : a < e.1 := by omega
    simp [Sparse.set, this, ih (e.1 + 1) (by omega) hm.2]

theorem Sparse.wfFrom_set [DecidableEq α] (d : α) (lo a : Nat) (v : α) (h : lo ≤ a) (m : List (Nat × α))
    (hm : Sparse.wfFrom d lo m = true) : Sparse.wfFrom d lo (Sparse.set d m a v) = true := by
  induction m generalizing lo with
  | nil => by_cases hv : v = d <;> simp [Sparse.set, Sparse.wfFrom, hv, h]
  | cons e t ih =>
    obtain ⟨k, w⟩ := e
    have hm' := hm
    simp only [Sparse.wfFrom, Bool.and_eq_true, decide_eq_true_eq] at hm
    simp only [Sparse.set]
    split
    · rename_i hak
      split
      · rename_i hv
        rw [hv, Sparse.set_default_id d (k + 1) a (by omega) t hm.2]; exact hm'
      · rename_i hv
        simp only [Sparse.wfFrom, Bool.and_eq_true, decide_eq_true_eq]
        exact ⟨⟨h, hv⟩, ⟨by omega, hm.1.2⟩, hm.2⟩
    · split
      · rename_i hak
        subst hak
        split
        · rename_i hv
          rw [hv, Sparse.set_default_id d (a + 1) a (by omega) t hm.2]
          exact Sparse.wfFrom_mono d _ _ (by omega) t hm.2
        · rename_i hv
          simp only [Sparse.wfFrom, Bool.and_eq_true, decide_eq_true_eq]
          exact ⟨⟨h, hv⟩, hm.2⟩
      · simp only [Sparse.wfFrom, Bool.and_eq_true, decide_eq_true_eq]
        exact ⟨hm.1, ih (k + 1) (by omega) hm.2⟩

/-- A write keeps the canonical form. -/
theorem Sparse.wf_set [DecidableEq α] (d : α) (m : List (Nat × α)) (a : Nat) (v : α) (h : Sparse.wf d m = true) :
    Sparse.wf d (Sparse.set d m a v) = true := Sparse.wfFrom_set d 0 a v (Nat.zero_le a) m h

theorem Sparse.wfFrom_drop [DecidableEq α] (d : α) (lo : Nat) (p : Nat → Bool) (m : List (Nat × α))
    (h : Sparse.wfFrom d lo m = true) : Sparse.wfFrom d lo (Sparse.drop p m) = true := by
  induction m generalizing lo with
  | nil => rfl
  | cons e t ih =>
    simp only [Sparse.wfFrom, Bool.and_eq_true, decide_eq_true_eq] at h
    have hd : Sparse.drop p (e :: t) = if p e.1 then Sparse.drop p t else e :: Sparse.drop p t := by
      simp only [Sparse.drop, List.filter_cons]; cases p e.1 <;> simp
    rw [hd]
    split
    · exact Sparse.wfFrom_mono d _ _ (by omega) _ (ih (e.1 + 1) h.2)
    · simp only [Sparse.wfFrom, Bool.and_eq_true, decide_eq_true_eq]
      exact ⟨h.1, ih (e.1 + 1) h.2⟩

/-- Forgetting entries keeps the canonical form. -/
theorem Sparse.wf_drop [DecidableEq α] (d : α) (p : Nat → Bool) (m : List (Nat × α)) (h : Sparse.wf d m = true) :
    Sparse.wf d (Sparse.drop p m) = true := Sparse.wfFrom_drop d 0 p m h

/-- A read after forgetting entries. -/
theorem Sparse.get_drop (d : α) (p : Nat → Bool) (m : List (Nat × α)) (k : Nat) :
    Sparse.get d (Sparse.drop p m) k = if p k then d else Sparse.get d m k := by
  induction m with
  | nil => simp [Sparse.drop, Sparse.get]
  | cons e t ih =>
    have hd : Sparse.drop p (e :: t) = if p e.1 then Sparse.drop p t else e :: Sparse.drop p t := by
      simp only [Sparse.drop, List.filter_cons]; cases p e.1 <;> simp
    rw [hd]
    by_cases he : p e.1 = true
    · simp only [he, if_true, ih, Sparse.get]
      by_cases hk : e.1 = k
      · subst hk; simp [he]
      · simp [hk]
    · simp only [he, Bool.false_eq_true, if_false, Sparse.get, ih]
      by_cases hk : e.1 = k
      · subst hk; simp [he]
      · simp [hk]

end Sys2Proof.Machine
end

