-- ==== Sys2Proof/Laws/State.lean ====
section
/-! SUPPORT. The state's updates: what each leaves as it was, field by field, and register reads after register
writes. -/

namespace Sys2Proof.Machine

variable (s : State)

/-! ### wr changes regs alone -/

@[simp] theorem State.wr_mem (r : Reg) (n i : Nat) (v : W64) : (s.wr r n i v).mem = s.mem := (rfl)
@[simp] theorem State.wr_bad (r : Reg) (n i : Nat) (v : W64) : (s.wr r n i v).bad = s.bad := (rfl)
@[simp] theorem State.wr_acc (r : Reg) (n i : Nat) (v : W64) : (s.wr r n i v).acc = s.acc := (rfl)
@[simp] theorem State.wr_accBad (r : Reg) (n i : Nat) (v : W64) : (s.wr r n i v).accBad = s.accBad := (rfl)
@[simp] theorem State.wr_imBad (r : Reg) (n i : Nat) (v : W64) : (s.wr r n i v).imBad = s.imBad := (rfl)
@[simp] theorem State.wr_kern (r : Reg) (n i : Nat) (v : W64) : (s.wr r n i v).kern = s.kern := (rfl)
@[simp] theorem State.wr_kernBad (r : Reg) (n i : Nat) (v : W64) : (s.wr r n i v).kernBad = s.kernBad := (rfl)
@[simp] theorem State.wr_kernHdr (r : Reg) (n i : Nat) (v : W64) : (s.wr r n i v).kernHdr = s.kernHdr := (rfl)
@[simp] theorem State.wr_lanes (r : Reg) (n i : Nat) (v : W64) : (s.wr r n i v).lanes = s.lanes := (rfl)
@[simp] theorem State.wr_laneF (r : Reg) (n i : Nat) (v : W64) : (s.wr r n i v).laneF = s.laneF := (rfl)
@[simp] theorem State.wr_cores (r : Reg) (n i : Nat) (v : W64) : (s.wr r n i v).cores = s.cores := (rfl)
@[simp] theorem State.wr_fltSince (r : Reg) (n i : Nat) (v : W64) : (s.wr r n i v).fltSince = s.fltSince := (rfl)
@[simp] theorem State.wr_fltHeld (r : Reg) (n i : Nat) (v : W64) : (s.wr r n i v).fltHeld = s.fltHeld := (rfl)
@[simp] theorem State.wr_rings (r : Reg) (n i : Nat) (v : W64) : (s.wr r n i v).rings = s.rings := (rfl)
@[simp] theorem State.wr_cqs (r : Reg) (n i : Nat) (v : W64) : (s.wr r n i v).cqs = s.cqs := (rfl)
@[simp] theorem State.wr_snoop (r : Reg) (n i : Nat) (v : W64) : (s.wr r n i v).snoop = s.snoop := (rfl)
@[simp] theorem State.wr_biOut (r : Reg) (n i : Nat) (v : W64) : (s.wr r n i v).biOut = s.biOut := (rfl)
@[simp] theorem State.wr_ports (r : Reg) (n i : Nat) (v : W64) : (s.wr r n i v).ports = s.ports := (rfl)
@[simp] theorem State.wr_inbox (r : Reg) (n i : Nat) (v : W64) : (s.wr r n i v).inbox = s.inbox := (rfl)
@[simp] theorem State.wr_xfers (r : Reg) (n i : Nat) (v : W64) : (s.wr r n i v).xfers = s.xfers := (rfl)
@[simp] theorem State.wr_sources (r : Reg) (n i : Nat) (v : W64) : (s.wr r n i v).sources = s.sources := (rfl)
@[simp] theorem State.wr_bores (r : Reg) (n i : Nat) (v : W64) : (s.wr r n i v).bores = s.bores := (rfl)
@[simp] theorem State.wr_gate (r : Reg) (n i : Nat) (v : W64) : (s.wr r n i v).gate = s.gate := (rfl)
@[simp] theorem State.wr_ebbs (r : Reg) (n i : Nat) (v : W64) : (s.wr r n i v).ebbs = s.ebbs := (rfl)
@[simp] theorem State.wr_chip (r : Reg) (n i : Nat) (v : W64) : (s.wr r n i v).chip = s.chip := (rfl)
@[simp] theorem State.wr_outbox (r : Reg) (n i : Nat) (v : W64) : (s.wr r n i v).outbox = s.outbox := (rfl)
@[simp] theorem State.wr_freeCtr (r : Reg) (n i : Nat) (v : W64) : (s.wr r n i v).freeCtr = s.freeCtr := (rfl)
@[simp] theorem State.wr_held (r : Reg) (n i : Nat) (v : W64) : (s.wr r n i v).held = s.held := (rfl)
@[simp] theorem State.wr_fltWait (r : Reg) (n i : Nat) (v : W64) : (s.wr r n i v).fltWait = s.fltWait := (rfl)
@[simp] theorem State.wr_cxl (r : Reg) (n i : Nat) (v : W64) : (s.wr r n i v).cxl = s.cxl := (rfl)
@[simp] theorem State.wr_pending (r : Reg) (n i : Nat) (v : W64) : (s.wr r n i v).pending = s.pending := (rfl)

/-! ### setF changes regs alone -/

@[simp] theorem State.setF_mem (r : Reg) (n i lo len x : Nat) : (s.setF r n i lo len x).mem = s.mem := (rfl)
@[simp] theorem State.setF_bad (r : Reg) (n i lo len x : Nat) : (s.setF r n i lo len x).bad = s.bad := (rfl)
@[simp] theorem State.setF_acc (r : Reg) (n i lo len x : Nat) : (s.setF r n i lo len x).acc = s.acc := (rfl)
@[simp] theorem State.setF_accBad (r : Reg) (n i lo len x : Nat) : (s.setF r n i lo len x).accBad = s.accBad := (rfl)
@[simp] theorem State.setF_imBad (r : Reg) (n i lo len x : Nat) : (s.setF r n i lo len x).imBad = s.imBad := (rfl)
@[simp] theorem State.setF_kern (r : Reg) (n i lo len x : Nat) : (s.setF r n i lo len x).kern = s.kern := (rfl)
@[simp] theorem State.setF_kernBad (r : Reg) (n i lo len x : Nat) : (s.setF r n i lo len x).kernBad = s.kernBad := (rfl)
@[simp] theorem State.setF_kernHdr (r : Reg) (n i lo len x : Nat) : (s.setF r n i lo len x).kernHdr = s.kernHdr := (rfl)
@[simp] theorem State.setF_lanes (r : Reg) (n i lo len x : Nat) : (s.setF r n i lo len x).lanes = s.lanes := (rfl)
@[simp] theorem State.setF_laneF (r : Reg) (n i lo len x : Nat) : (s.setF r n i lo len x).laneF = s.laneF := (rfl)
@[simp] theorem State.setF_cores (r : Reg) (n i lo len x : Nat) : (s.setF r n i lo len x).cores = s.cores := (rfl)
@[simp] theorem State.setF_fltSince (r : Reg) (n i lo len x : Nat) : (s.setF r n i lo len x).fltSince = s.fltSince := (rfl)
@[simp] theorem State.setF_fltHeld (r : Reg) (n i lo len x : Nat) : (s.setF r n i lo len x).fltHeld = s.fltHeld := (rfl)
@[simp] theorem State.setF_rings (r : Reg) (n i lo len x : Nat) : (s.setF r n i lo len x).rings = s.rings := (rfl)
@[simp] theorem State.setF_cqs (r : Reg) (n i lo len x : Nat) : (s.setF r n i lo len x).cqs = s.cqs := (rfl)
@[simp] theorem State.setF_snoop (r : Reg) (n i lo len x : Nat) : (s.setF r n i lo len x).snoop = s.snoop := (rfl)
@[simp] theorem State.setF_biOut (r : Reg) (n i lo len x : Nat) : (s.setF r n i lo len x).biOut = s.biOut := (rfl)
@[simp] theorem State.setF_ports (r : Reg) (n i lo len x : Nat) : (s.setF r n i lo len x).ports = s.ports := (rfl)
@[simp] theorem State.setF_inbox (r : Reg) (n i lo len x : Nat) : (s.setF r n i lo len x).inbox = s.inbox := (rfl)
@[simp] theorem State.setF_xfers (r : Reg) (n i lo len x : Nat) : (s.setF r n i lo len x).xfers = s.xfers := (rfl)
@[simp] theorem State.setF_sources (r : Reg) (n i lo len x : Nat) : (s.setF r n i lo len x).sources = s.sources := (rfl)
@[simp] theorem State.setF_bores (r : Reg) (n i lo len x : Nat) : (s.setF r n i lo len x).bores = s.bores := (rfl)
@[simp] theorem State.setF_gate (r : Reg) (n i lo len x : Nat) : (s.setF r n i lo len x).gate = s.gate := (rfl)
@[simp] theorem State.setF_ebbs (r : Reg) (n i lo len x : Nat) : (s.setF r n i lo len x).ebbs = s.ebbs := (rfl)
@[simp] theorem State.setF_chip (r : Reg) (n i lo len x : Nat) : (s.setF r n i lo len x).chip = s.chip := (rfl)
@[simp] theorem State.setF_outbox (r : Reg) (n i lo len x : Nat) : (s.setF r n i lo len x).outbox = s.outbox := (rfl)
@[simp] theorem State.setF_freeCtr (r : Reg) (n i lo len x : Nat) : (s.setF r n i lo len x).freeCtr = s.freeCtr := (rfl)
@[simp] theorem State.setF_held (r : Reg) (n i lo len x : Nat) : (s.setF r n i lo len x).held = s.held := (rfl)
@[simp] theorem State.setF_fltWait (r : Reg) (n i lo len x : Nat) : (s.setF r n i lo len x).fltWait = s.fltWait := (rfl)
@[simp] theorem State.setF_cxl (r : Reg) (n i lo len x : Nat) : (s.setF r n i lo len x).cxl = s.cxl := (rfl)
@[simp] theorem State.setF_pending (r : Reg) (n i lo len x : Nat) : (s.setF r n i lo len x).pending = s.pending := (rfl)

/-! ### raise changes regs alone -/

@[simp] theorem State.raise_mem (r : Reg) (n i k : Nat) : (s.raise r n i k).mem = s.mem := (rfl)
@[simp] theorem State.raise_bad (r : Reg) (n i k : Nat) : (s.raise r n i k).bad = s.bad := (rfl)
@[simp] theorem State.raise_acc (r : Reg) (n i k : Nat) : (s.raise r n i k).acc = s.acc := (rfl)
@[simp] theorem State.raise_accBad (r : Reg) (n i k : Nat) : (s.raise r n i k).accBad = s.accBad := (rfl)
@[simp] theorem State.raise_imBad (r : Reg) (n i k : Nat) : (s.raise r n i k).imBad = s.imBad := (rfl)
@[simp] theorem State.raise_kern (r : Reg) (n i k : Nat) : (s.raise r n i k).kern = s.kern := (rfl)
@[simp] theorem State.raise_kernBad (r : Reg) (n i k : Nat) : (s.raise r n i k).kernBad = s.kernBad := (rfl)
@[simp] theorem State.raise_kernHdr (r : Reg) (n i k : Nat) : (s.raise r n i k).kernHdr = s.kernHdr := (rfl)
@[simp] theorem State.raise_lanes (r : Reg) (n i k : Nat) : (s.raise r n i k).lanes = s.lanes := (rfl)
@[simp] theorem State.raise_laneF (r : Reg) (n i k : Nat) : (s.raise r n i k).laneF = s.laneF := (rfl)
@[simp] theorem State.raise_cores (r : Reg) (n i k : Nat) : (s.raise r n i k).cores = s.cores := (rfl)
@[simp] theorem State.raise_fltSince (r : Reg) (n i k : Nat) : (s.raise r n i k).fltSince = s.fltSince := (rfl)
@[simp] theorem State.raise_fltHeld (r : Reg) (n i k : Nat) : (s.raise r n i k).fltHeld = s.fltHeld := (rfl)
@[simp] theorem State.raise_rings (r : Reg) (n i k : Nat) : (s.raise r n i k).rings = s.rings := (rfl)
@[simp] theorem State.raise_cqs (r : Reg) (n i k : Nat) : (s.raise r n i k).cqs = s.cqs := (rfl)
@[simp] theorem State.raise_snoop (r : Reg) (n i k : Nat) : (s.raise r n i k).snoop = s.snoop := (rfl)
@[simp] theorem State.raise_biOut (r : Reg) (n i k : Nat) : (s.raise r n i k).biOut = s.biOut := (rfl)
@[simp] theorem State.raise_ports (r : Reg) (n i k : Nat) : (s.raise r n i k).ports = s.ports := (rfl)
@[simp] theorem State.raise_inbox (r : Reg) (n i k : Nat) : (s.raise r n i k).inbox = s.inbox := (rfl)
@[simp] theorem State.raise_xfers (r : Reg) (n i k : Nat) : (s.raise r n i k).xfers = s.xfers := (rfl)
@[simp] theorem State.raise_sources (r : Reg) (n i k : Nat) : (s.raise r n i k).sources = s.sources := (rfl)
@[simp] theorem State.raise_bores (r : Reg) (n i k : Nat) : (s.raise r n i k).bores = s.bores := (rfl)
@[simp] theorem State.raise_gate (r : Reg) (n i k : Nat) : (s.raise r n i k).gate = s.gate := (rfl)
@[simp] theorem State.raise_ebbs (r : Reg) (n i k : Nat) : (s.raise r n i k).ebbs = s.ebbs := (rfl)
@[simp] theorem State.raise_chip (r : Reg) (n i k : Nat) : (s.raise r n i k).chip = s.chip := (rfl)
@[simp] theorem State.raise_outbox (r : Reg) (n i k : Nat) : (s.raise r n i k).outbox = s.outbox := (rfl)
@[simp] theorem State.raise_freeCtr (r : Reg) (n i k : Nat) : (s.raise r n i k).freeCtr = s.freeCtr := (rfl)
@[simp] theorem State.raise_held (r : Reg) (n i k : Nat) : (s.raise r n i k).held = s.held := (rfl)
@[simp] theorem State.raise_fltWait (r : Reg) (n i k : Nat) : (s.raise r n i k).fltWait = s.fltWait := (rfl)
@[simp] theorem State.raise_cxl (r : Reg) (n i k : Nat) : (s.raise r n i k).cxl = s.cxl := (rfl)
@[simp] theorem State.raise_pending (r : Reg) (n i k : Nat) : (s.raise r n i k).pending = s.pending := (rfl)

/-! ### raiseMask changes regs alone -/

@[simp] theorem State.raiseMask_mem (r : Reg) (n i : Nat) (m : W64) : (s.raiseMask r n i m).mem = s.mem := (rfl)
@[simp] theorem State.raiseMask_bad (r : Reg) (n i : Nat) (m : W64) : (s.raiseMask r n i m).bad = s.bad := (rfl)
@[simp] theorem State.raiseMask_acc (r : Reg) (n i : Nat) (m : W64) : (s.raiseMask r n i m).acc = s.acc := (rfl)
@[simp] theorem State.raiseMask_accBad (r : Reg) (n i : Nat) (m : W64) : (s.raiseMask r n i m).accBad = s.accBad := (rfl)
@[simp] theorem State.raiseMask_imBad (r : Reg) (n i : Nat) (m : W64) : (s.raiseMask r n i m).imBad = s.imBad := (rfl)
@[simp] theorem State.raiseMask_kern (r : Reg) (n i : Nat) (m : W64) : (s.raiseMask r n i m).kern = s.kern := (rfl)
@[simp] theorem State.raiseMask_kernBad (r : Reg) (n i : Nat) (m : W64) : (s.raiseMask r n i m).kernBad = s.kernBad := (rfl)
@[simp] theorem State.raiseMask_kernHdr (r : Reg) (n i : Nat) (m : W64) : (s.raiseMask r n i m).kernHdr = s.kernHdr := (rfl)
@[simp] theorem State.raiseMask_lanes (r : Reg) (n i : Nat) (m : W64) : (s.raiseMask r n i m).lanes = s.lanes := (rfl)
@[simp] theorem State.raiseMask_laneF (r : Reg) (n i : Nat) (m : W64) : (s.raiseMask r n i m).laneF = s.laneF := (rfl)
@[simp] theorem State.raiseMask_cores (r : Reg) (n i : Nat) (m : W64) : (s.raiseMask r n i m).cores = s.cores := (rfl)
@[simp] theorem State.raiseMask_fltSince (r : Reg) (n i : Nat) (m : W64) : (s.raiseMask r n i m).fltSince = s.fltSince := (rfl)
@[simp] theorem State.raiseMask_fltHeld (r : Reg) (n i : Nat) (m : W64) : (s.raiseMask r n i m).fltHeld = s.fltHeld := (rfl)
@[simp] theorem State.raiseMask_rings (r : Reg) (n i : Nat) (m : W64) : (s.raiseMask r n i m).rings = s.rings := (rfl)
@[simp] theorem State.raiseMask_cqs (r : Reg) (n i : Nat) (m : W64) : (s.raiseMask r n i m).cqs = s.cqs := (rfl)
@[simp] theorem State.raiseMask_snoop (r : Reg) (n i : Nat) (m : W64) : (s.raiseMask r n i m).snoop = s.snoop := (rfl)
@[simp] theorem State.raiseMask_biOut (r : Reg) (n i : Nat) (m : W64) : (s.raiseMask r n i m).biOut = s.biOut := (rfl)
@[simp] theorem State.raiseMask_ports (r : Reg) (n i : Nat) (m : W64) : (s.raiseMask r n i m).ports = s.ports := (rfl)
@[simp] theorem State.raiseMask_inbox (r : Reg) (n i : Nat) (m : W64) : (s.raiseMask r n i m).inbox = s.inbox := (rfl)
@[simp] theorem State.raiseMask_xfers (r : Reg) (n i : Nat) (m : W64) : (s.raiseMask r n i m).xfers = s.xfers := (rfl)
@[simp] theorem State.raiseMask_sources (r : Reg) (n i : Nat) (m : W64) : (s.raiseMask r n i m).sources = s.sources := (rfl)
@[simp] theorem State.raiseMask_bores (r : Reg) (n i : Nat) (m : W64) : (s.raiseMask r n i m).bores = s.bores := (rfl)
@[simp] theorem State.raiseMask_gate (r : Reg) (n i : Nat) (m : W64) : (s.raiseMask r n i m).gate = s.gate := (rfl)
@[simp] theorem State.raiseMask_ebbs (r : Reg) (n i : Nat) (m : W64) : (s.raiseMask r n i m).ebbs = s.ebbs := (rfl)
@[simp] theorem State.raiseMask_chip (r : Reg) (n i : Nat) (m : W64) : (s.raiseMask r n i m).chip = s.chip := (rfl)
@[simp] theorem State.raiseMask_outbox (r : Reg) (n i : Nat) (m : W64) : (s.raiseMask r n i m).outbox = s.outbox := (rfl)
@[simp] theorem State.raiseMask_freeCtr (r : Reg) (n i : Nat) (m : W64) : (s.raiseMask r n i m).freeCtr = s.freeCtr := (rfl)
@[simp] theorem State.raiseMask_held (r : Reg) (n i : Nat) (m : W64) : (s.raiseMask r n i m).held = s.held := (rfl)
@[simp] theorem State.raiseMask_fltWait (r : Reg) (n i : Nat) (m : W64) : (s.raiseMask r n i m).fltWait = s.fltWait := (rfl)
@[simp] theorem State.raiseMask_cxl (r : Reg) (n i : Nat) (m : W64) : (s.raiseMask r n i m).cxl = s.cxl := (rfl)
@[simp] theorem State.raiseMask_pending (r : Reg) (n i : Nat) (m : W64) : (s.raiseMask r n i m).pending = s.pending := (rfl)

/-! ### count changes regs alone -/

@[simp] theorem State.count_mem (r : Reg) (n i lo len k : Nat) : (s.count r n i lo len k).mem = s.mem := (rfl)
@[simp] theorem State.count_bad (r : Reg) (n i lo len k : Nat) : (s.count r n i lo len k).bad = s.bad := (rfl)
@[simp] theorem State.count_acc (r : Reg) (n i lo len k : Nat) : (s.count r n i lo len k).acc = s.acc := (rfl)
@[simp] theorem State.count_accBad (r : Reg) (n i lo len k : Nat) : (s.count r n i lo len k).accBad = s.accBad := (rfl)
@[simp] theorem State.count_imBad (r : Reg) (n i lo len k : Nat) : (s.count r n i lo len k).imBad = s.imBad := (rfl)
@[simp] theorem State.count_kern (r : Reg) (n i lo len k : Nat) : (s.count r n i lo len k).kern = s.kern := (rfl)
@[simp] theorem State.count_kernBad (r : Reg) (n i lo len k : Nat) : (s.count r n i lo len k).kernBad = s.kernBad := (rfl)
@[simp] theorem State.count_kernHdr (r : Reg) (n i lo len k : Nat) : (s.count r n i lo len k).kernHdr = s.kernHdr := (rfl)
@[simp] theorem State.count_lanes (r : Reg) (n i lo len k : Nat) : (s.count r n i lo len k).lanes = s.lanes := (rfl)
@[simp] theorem State.count_laneF (r : Reg) (n i lo len k : Nat) : (s.count r n i lo len k).laneF = s.laneF := (rfl)
@[simp] theorem State.count_cores (r : Reg) (n i lo len k : Nat) : (s.count r n i lo len k).cores = s.cores := (rfl)
@[simp] theorem State.count_fltSince (r : Reg) (n i lo len k : Nat) : (s.count r n i lo len k).fltSince = s.fltSince := (rfl)
@[simp] theorem State.count_fltHeld (r : Reg) (n i lo len k : Nat) : (s.count r n i lo len k).fltHeld = s.fltHeld := (rfl)
@[simp] theorem State.count_rings (r : Reg) (n i lo len k : Nat) : (s.count r n i lo len k).rings = s.rings := (rfl)
@[simp] theorem State.count_cqs (r : Reg) (n i lo len k : Nat) : (s.count r n i lo len k).cqs = s.cqs := (rfl)
@[simp] theorem State.count_snoop (r : Reg) (n i lo len k : Nat) : (s.count r n i lo len k).snoop = s.snoop := (rfl)
@[simp] theorem State.count_biOut (r : Reg) (n i lo len k : Nat) : (s.count r n i lo len k).biOut = s.biOut := (rfl)
@[simp] theorem State.count_ports (r : Reg) (n i lo len k : Nat) : (s.count r n i lo len k).ports = s.ports := (rfl)
@[simp] theorem State.count_inbox (r : Reg) (n i lo len k : Nat) : (s.count r n i lo len k).inbox = s.inbox := (rfl)
@[simp] theorem State.count_xfers (r : Reg) (n i lo len k : Nat) : (s.count r n i lo len k).xfers = s.xfers := (rfl)
@[simp] theorem State.count_sources (r : Reg) (n i lo len k : Nat) : (s.count r n i lo len k).sources = s.sources := (rfl)
@[simp] theorem State.count_bores (r : Reg) (n i lo len k : Nat) : (s.count r n i lo len k).bores = s.bores := (rfl)
@[simp] theorem State.count_gate (r : Reg) (n i lo len k : Nat) : (s.count r n i lo len k).gate = s.gate := (rfl)
@[simp] theorem State.count_ebbs (r : Reg) (n i lo len k : Nat) : (s.count r n i lo len k).ebbs = s.ebbs := (rfl)
@[simp] theorem State.count_chip (r : Reg) (n i lo len k : Nat) : (s.count r n i lo len k).chip = s.chip := (rfl)
@[simp] theorem State.count_outbox (r : Reg) (n i lo len k : Nat) : (s.count r n i lo len k).outbox = s.outbox := (rfl)
@[simp] theorem State.count_freeCtr (r : Reg) (n i lo len k : Nat) : (s.count r n i lo len k).freeCtr = s.freeCtr := (rfl)
@[simp] theorem State.count_held (r : Reg) (n i lo len k : Nat) : (s.count r n i lo len k).held = s.held := (rfl)
@[simp] theorem State.count_fltWait (r : Reg) (n i lo len k : Nat) : (s.count r n i lo len k).fltWait = s.fltWait := (rfl)
@[simp] theorem State.count_cxl (r : Reg) (n i lo len k : Nat) : (s.count r n i lo len k).cxl = s.cxl := (rfl)
@[simp] theorem State.count_pending (r : Reg) (n i lo len k : Nat) : (s.count r n i lo len k).pending = s.pending := (rfl)

/-! ### dropRegs changes regs alone -/

@[simp] theorem State.dropRegs_mem (p : Reg → Bool) : (s.dropRegs p).mem = s.mem := (rfl)
@[simp] theorem State.dropRegs_bad (p : Reg → Bool) : (s.dropRegs p).bad = s.bad := (rfl)
@[simp] theorem State.dropRegs_acc (p : Reg → Bool) : (s.dropRegs p).acc = s.acc := (rfl)
@[simp] theorem State.dropRegs_accBad (p : Reg → Bool) : (s.dropRegs p).accBad = s.accBad := (rfl)
@[simp] theorem State.dropRegs_imBad (p : Reg → Bool) : (s.dropRegs p).imBad = s.imBad := (rfl)
@[simp] theorem State.dropRegs_kern (p : Reg → Bool) : (s.dropRegs p).kern = s.kern := (rfl)
@[simp] theorem State.dropRegs_kernBad (p : Reg → Bool) : (s.dropRegs p).kernBad = s.kernBad := (rfl)
@[simp] theorem State.dropRegs_kernHdr (p : Reg → Bool) : (s.dropRegs p).kernHdr = s.kernHdr := (rfl)
@[simp] theorem State.dropRegs_lanes (p : Reg → Bool) : (s.dropRegs p).lanes = s.lanes := (rfl)
@[simp] theorem State.dropRegs_laneF (p : Reg → Bool) : (s.dropRegs p).laneF = s.laneF := (rfl)
@[simp] theorem State.dropRegs_cores (p : Reg → Bool) : (s.dropRegs p).cores = s.cores := (rfl)
@[simp] theorem State.dropRegs_fltSince (p : Reg → Bool) : (s.dropRegs p).fltSince = s.fltSince := (rfl)
@[simp] theorem State.dropRegs_fltHeld (p : Reg → Bool) : (s.dropRegs p).fltHeld = s.fltHeld := (rfl)
@[simp] theorem State.dropRegs_rings (p : Reg → Bool) : (s.dropRegs p).rings = s.rings := (rfl)
@[simp] theorem State.dropRegs_cqs (p : Reg → Bool) : (s.dropRegs p).cqs = s.cqs := (rfl)
@[simp] theorem State.dropRegs_snoop (p : Reg → Bool) : (s.dropRegs p).snoop = s.snoop := (rfl)
@[simp] theorem State.dropRegs_biOut (p : Reg → Bool) : (s.dropRegs p).biOut = s.biOut := (rfl)
@[simp] theorem State.dropRegs_ports (p : Reg → Bool) : (s.dropRegs p).ports = s.ports := (rfl)
@[simp] theorem State.dropRegs_inbox (p : Reg → Bool) : (s.dropRegs p).inbox = s.inbox := (rfl)
@[simp] theorem State.dropRegs_xfers (p : Reg → Bool) : (s.dropRegs p).xfers = s.xfers := (rfl)
@[simp] theorem State.dropRegs_sources (p : Reg → Bool) : (s.dropRegs p).sources = s.sources := (rfl)
@[simp] theorem State.dropRegs_bores (p : Reg → Bool) : (s.dropRegs p).bores = s.bores := (rfl)
@[simp] theorem State.dropRegs_gate (p : Reg → Bool) : (s.dropRegs p).gate = s.gate := (rfl)
@[simp] theorem State.dropRegs_ebbs (p : Reg → Bool) : (s.dropRegs p).ebbs = s.ebbs := (rfl)
@[simp] theorem State.dropRegs_chip (p : Reg → Bool) : (s.dropRegs p).chip = s.chip := (rfl)
@[simp] theorem State.dropRegs_outbox (p : Reg → Bool) : (s.dropRegs p).outbox = s.outbox := (rfl)
@[simp] theorem State.dropRegs_freeCtr (p : Reg → Bool) : (s.dropRegs p).freeCtr = s.freeCtr := (rfl)
@[simp] theorem State.dropRegs_held (p : Reg → Bool) : (s.dropRegs p).held = s.held := (rfl)
@[simp] theorem State.dropRegs_fltWait (p : Reg → Bool) : (s.dropRegs p).fltWait = s.fltWait := (rfl)
@[simp] theorem State.dropRegs_cxl (p : Reg → Bool) : (s.dropRegs p).cxl = s.cxl := (rfl)
@[simp] theorem State.dropRegs_pending (p : Reg → Bool) : (s.dropRegs p).pending = s.pending := (rfl)

/-! ### setCore changes cores alone -/

@[simp] theorem State.setCore_regs (n : Nat) (c : CoreSt) : (s.setCore n c).regs = s.regs := (rfl)
@[simp] theorem State.setCore_mem (n : Nat) (c : CoreSt) : (s.setCore n c).mem = s.mem := (rfl)
@[simp] theorem State.setCore_bad (n : Nat) (c : CoreSt) : (s.setCore n c).bad = s.bad := (rfl)
@[simp] theorem State.setCore_acc (n : Nat) (c : CoreSt) : (s.setCore n c).acc = s.acc := (rfl)
@[simp] theorem State.setCore_accBad (n : Nat) (c : CoreSt) : (s.setCore n c).accBad = s.accBad := (rfl)
@[simp] theorem State.setCore_imBad (n : Nat) (c : CoreSt) : (s.setCore n c).imBad = s.imBad := (rfl)
@[simp] theorem State.setCore_kern (n : Nat) (c : CoreSt) : (s.setCore n c).kern = s.kern := (rfl)
@[simp] theorem State.setCore_kernBad (n : Nat) (c : CoreSt) : (s.setCore n c).kernBad = s.kernBad := (rfl)
@[simp] theorem State.setCore_kernHdr (n : Nat) (c : CoreSt) : (s.setCore n c).kernHdr = s.kernHdr := (rfl)
@[simp] theorem State.setCore_lanes (n : Nat) (c : CoreSt) : (s.setCore n c).lanes = s.lanes := (rfl)
@[simp] theorem State.setCore_laneF (n : Nat) (c : CoreSt) : (s.setCore n c).laneF = s.laneF := (rfl)
@[simp] theorem State.setCore_fltSince (n : Nat) (c : CoreSt) : (s.setCore n c).fltSince = s.fltSince := (rfl)
@[simp] theorem State.setCore_fltHeld (n : Nat) (c : CoreSt) : (s.setCore n c).fltHeld = s.fltHeld := (rfl)
@[simp] theorem State.setCore_rings (n : Nat) (c : CoreSt) : (s.setCore n c).rings = s.rings := (rfl)
@[simp] theorem State.setCore_cqs (n : Nat) (c : CoreSt) : (s.setCore n c).cqs = s.cqs := (rfl)
@[simp] theorem State.setCore_snoop (n : Nat) (c : CoreSt) : (s.setCore n c).snoop = s.snoop := (rfl)
@[simp] theorem State.setCore_biOut (n : Nat) (c : CoreSt) : (s.setCore n c).biOut = s.biOut := (rfl)
@[simp] theorem State.setCore_ports (n : Nat) (c : CoreSt) : (s.setCore n c).ports = s.ports := (rfl)
@[simp] theorem State.setCore_inbox (n : Nat) (c : CoreSt) : (s.setCore n c).inbox = s.inbox := (rfl)
@[simp] theorem State.setCore_xfers (n : Nat) (c : CoreSt) : (s.setCore n c).xfers = s.xfers := (rfl)
@[simp] theorem State.setCore_sources (n : Nat) (c : CoreSt) : (s.setCore n c).sources = s.sources := (rfl)
@[simp] theorem State.setCore_bores (n : Nat) (c : CoreSt) : (s.setCore n c).bores = s.bores := (rfl)
@[simp] theorem State.setCore_gate (n : Nat) (c : CoreSt) : (s.setCore n c).gate = s.gate := (rfl)
@[simp] theorem State.setCore_ebbs (n : Nat) (c : CoreSt) : (s.setCore n c).ebbs = s.ebbs := (rfl)
@[simp] theorem State.setCore_chip (n : Nat) (c : CoreSt) : (s.setCore n c).chip = s.chip := (rfl)
@[simp] theorem State.setCore_outbox (n : Nat) (c : CoreSt) : (s.setCore n c).outbox = s.outbox := (rfl)
@[simp] theorem State.setCore_freeCtr (n : Nat) (c : CoreSt) : (s.setCore n c).freeCtr = s.freeCtr := (rfl)
@[simp] theorem State.setCore_held (n : Nat) (c : CoreSt) : (s.setCore n c).held = s.held := (rfl)
@[simp] theorem State.setCore_fltWait (n : Nat) (c : CoreSt) : (s.setCore n c).fltWait = s.fltWait := (rfl)
@[simp] theorem State.setCore_cxl (n : Nat) (c : CoreSt) : (s.setCore n c).cxl = s.cxl := (rfl)
@[simp] theorem State.setCore_pending (n : Nat) (c : CoreSt) : (s.setCore n c).pending = s.pending := (rfl)

/-! ### modCore changes cores alone -/

@[simp] theorem State.modCore_regs (n : Nat) (f : CoreSt → CoreSt) : (s.modCore n f).regs = s.regs := (rfl)
@[simp] theorem State.modCore_mem (n : Nat) (f : CoreSt → CoreSt) : (s.modCore n f).mem = s.mem := (rfl)
@[simp] theorem State.modCore_bad (n : Nat) (f : CoreSt → CoreSt) : (s.modCore n f).bad = s.bad := (rfl)
@[simp] theorem State.modCore_acc (n : Nat) (f : CoreSt → CoreSt) : (s.modCore n f).acc = s.acc := (rfl)
@[simp] theorem State.modCore_accBad (n : Nat) (f : CoreSt → CoreSt) : (s.modCore n f).accBad = s.accBad := (rfl)
@[simp] theorem State.modCore_imBad (n : Nat) (f : CoreSt → CoreSt) : (s.modCore n f).imBad = s.imBad := (rfl)
@[simp] theorem State.modCore_kern (n : Nat) (f : CoreSt → CoreSt) : (s.modCore n f).kern = s.kern := (rfl)
@[simp] theorem State.modCore_kernBad (n : Nat) (f : CoreSt → CoreSt) : (s.modCore n f).kernBad = s.kernBad := (rfl)
@[simp] theorem State.modCore_kernHdr (n : Nat) (f : CoreSt → CoreSt) : (s.modCore n f).kernHdr = s.kernHdr := (rfl)
@[simp] theorem State.modCore_lanes (n : Nat) (f : CoreSt → CoreSt) : (s.modCore n f).lanes = s.lanes := (rfl)
@[simp] theorem State.modCore_laneF (n : Nat) (f : CoreSt → CoreSt) : (s.modCore n f).laneF = s.laneF := (rfl)
@[simp] theorem State.modCore_fltSince (n : Nat) (f : CoreSt → CoreSt) : (s.modCore n f).fltSince = s.fltSince := (rfl)
@[simp] theorem State.modCore_fltHeld (n : Nat) (f : CoreSt → CoreSt) : (s.modCore n f).fltHeld = s.fltHeld := (rfl)
@[simp] theorem State.modCore_rings (n : Nat) (f : CoreSt → CoreSt) : (s.modCore n f).rings = s.rings := (rfl)
@[simp] theorem State.modCore_cqs (n : Nat) (f : CoreSt → CoreSt) : (s.modCore n f).cqs = s.cqs := (rfl)
@[simp] theorem State.modCore_snoop (n : Nat) (f : CoreSt → CoreSt) : (s.modCore n f).snoop = s.snoop := (rfl)
@[simp] theorem State.modCore_biOut (n : Nat) (f : CoreSt → CoreSt) : (s.modCore n f).biOut = s.biOut := (rfl)
@[simp] theorem State.modCore_ports (n : Nat) (f : CoreSt → CoreSt) : (s.modCore n f).ports = s.ports := (rfl)
@[simp] theorem State.modCore_inbox (n : Nat) (f : CoreSt → CoreSt) : (s.modCore n f).inbox = s.inbox := (rfl)
@[simp] theorem State.modCore_xfers (n : Nat) (f : CoreSt → CoreSt) : (s.modCore n f).xfers = s.xfers := (rfl)
@[simp] theorem State.modCore_sources (n : Nat) (f : CoreSt → CoreSt) : (s.modCore n f).sources = s.sources := (rfl)
@[simp] theorem State.modCore_bores (n : Nat) (f : CoreSt → CoreSt) : (s.modCore n f).bores = s.bores := (rfl)
@[simp] theorem State.modCore_gate (n : Nat) (f : CoreSt → CoreSt) : (s.modCore n f).gate = s.gate := (rfl)
@[simp] theorem State.modCore_ebbs (n : Nat) (f : CoreSt → CoreSt) : (s.modCore n f).ebbs = s.ebbs := (rfl)
@[simp] theorem State.modCore_chip (n : Nat) (f : CoreSt → CoreSt) : (s.modCore n f).chip = s.chip := (rfl)
@[simp] theorem State.modCore_outbox (n : Nat) (f : CoreSt → CoreSt) : (s.modCore n f).outbox = s.outbox := (rfl)
@[simp] theorem State.modCore_freeCtr (n : Nat) (f : CoreSt → CoreSt) : (s.modCore n f).freeCtr = s.freeCtr := (rfl)
@[simp] theorem State.modCore_held (n : Nat) (f : CoreSt → CoreSt) : (s.modCore n f).held = s.held := (rfl)
@[simp] theorem State.modCore_fltWait (n : Nat) (f : CoreSt → CoreSt) : (s.modCore n f).fltWait = s.fltWait := (rfl)
@[simp] theorem State.modCore_cxl (n : Nat) (f : CoreSt → CoreSt) : (s.modCore n f).cxl = s.cxl := (rfl)
@[simp] theorem State.modCore_pending (n : Nat) (f : CoreSt → CoreSt) : (s.modCore n f).pending = s.pending := (rfl)

/-! ### emit changes outbox alone -/

@[simp] theorem State.emit_regs (e : Emission) : (s.emit e).regs = s.regs := (rfl)
@[simp] theorem State.emit_mem (e : Emission) : (s.emit e).mem = s.mem := (rfl)
@[simp] theorem State.emit_bad (e : Emission) : (s.emit e).bad = s.bad := (rfl)
@[simp] theorem State.emit_acc (e : Emission) : (s.emit e).acc = s.acc := (rfl)
@[simp] theorem State.emit_accBad (e : Emission) : (s.emit e).accBad = s.accBad := (rfl)
@[simp] theorem State.emit_imBad (e : Emission) : (s.emit e).imBad = s.imBad := (rfl)
@[simp] theorem State.emit_kern (e : Emission) : (s.emit e).kern = s.kern := (rfl)
@[simp] theorem State.emit_kernBad (e : Emission) : (s.emit e).kernBad = s.kernBad := (rfl)
@[simp] theorem State.emit_kernHdr (e : Emission) : (s.emit e).kernHdr = s.kernHdr := (rfl)
@[simp] theorem State.emit_lanes (e : Emission) : (s.emit e).lanes = s.lanes := (rfl)
@[simp] theorem State.emit_laneF (e : Emission) : (s.emit e).laneF = s.laneF := (rfl)
@[simp] theorem State.emit_cores (e : Emission) : (s.emit e).cores = s.cores := (rfl)
@[simp] theorem State.emit_fltSince (e : Emission) : (s.emit e).fltSince = s.fltSince := (rfl)
@[simp] theorem State.emit_fltHeld (e : Emission) : (s.emit e).fltHeld = s.fltHeld := (rfl)
@[simp] theorem State.emit_rings (e : Emission) : (s.emit e).rings = s.rings := (rfl)
@[simp] theorem State.emit_cqs (e : Emission) : (s.emit e).cqs = s.cqs := (rfl)
@[simp] theorem State.emit_snoop (e : Emission) : (s.emit e).snoop = s.snoop := (rfl)
@[simp] theorem State.emit_biOut (e : Emission) : (s.emit e).biOut = s.biOut := (rfl)
@[simp] theorem State.emit_ports (e : Emission) : (s.emit e).ports = s.ports := (rfl)
@[simp] theorem State.emit_inbox (e : Emission) : (s.emit e).inbox = s.inbox := (rfl)
@[simp] theorem State.emit_xfers (e : Emission) : (s.emit e).xfers = s.xfers := (rfl)
@[simp] theorem State.emit_sources (e : Emission) : (s.emit e).sources = s.sources := (rfl)
@[simp] theorem State.emit_bores (e : Emission) : (s.emit e).bores = s.bores := (rfl)
@[simp] theorem State.emit_gate (e : Emission) : (s.emit e).gate = s.gate := (rfl)
@[simp] theorem State.emit_ebbs (e : Emission) : (s.emit e).ebbs = s.ebbs := (rfl)
@[simp] theorem State.emit_chip (e : Emission) : (s.emit e).chip = s.chip := (rfl)
@[simp] theorem State.emit_freeCtr (e : Emission) : (s.emit e).freeCtr = s.freeCtr := (rfl)
@[simp] theorem State.emit_held (e : Emission) : (s.emit e).held = s.held := (rfl)
@[simp] theorem State.emit_fltWait (e : Emission) : (s.emit e).fltWait = s.fltWait := (rfl)
@[simp] theorem State.emit_cxl (e : Emission) : (s.emit e).cxl = s.cxl := (rfl)
@[simp] theorem State.emit_pending (e : Emission) : (s.emit e).pending = s.pending := (rfl)

/-! ### report changes outbox alone -/

@[simp] theorem State.report_regs (c : Nat) (v : List Nat) : (s.report c v).regs = s.regs := (rfl)
@[simp] theorem State.report_mem (c : Nat) (v : List Nat) : (s.report c v).mem = s.mem := (rfl)
@[simp] theorem State.report_bad (c : Nat) (v : List Nat) : (s.report c v).bad = s.bad := (rfl)
@[simp] theorem State.report_acc (c : Nat) (v : List Nat) : (s.report c v).acc = s.acc := (rfl)
@[simp] theorem State.report_accBad (c : Nat) (v : List Nat) : (s.report c v).accBad = s.accBad := (rfl)
@[simp] theorem State.report_imBad (c : Nat) (v : List Nat) : (s.report c v).imBad = s.imBad := (rfl)
@[simp] theorem State.report_kern (c : Nat) (v : List Nat) : (s.report c v).kern = s.kern := (rfl)
@[simp] theorem State.report_kernBad (c : Nat) (v : List Nat) : (s.report c v).kernBad = s.kernBad := (rfl)
@[simp] theorem State.report_kernHdr (c : Nat) (v : List Nat) : (s.report c v).kernHdr = s.kernHdr := (rfl)
@[simp] theorem State.report_lanes (c : Nat) (v : List Nat) : (s.report c v).lanes = s.lanes := (rfl)
@[simp] theorem State.report_laneF (c : Nat) (v : List Nat) : (s.report c v).laneF = s.laneF := (rfl)
@[simp] theorem State.report_cores (c : Nat) (v : List Nat) : (s.report c v).cores = s.cores := (rfl)
@[simp] theorem State.report_fltSince (c : Nat) (v : List Nat) : (s.report c v).fltSince = s.fltSince := (rfl)
@[simp] theorem State.report_fltHeld (c : Nat) (v : List Nat) : (s.report c v).fltHeld = s.fltHeld := (rfl)
@[simp] theorem State.report_rings (c : Nat) (v : List Nat) : (s.report c v).rings = s.rings := (rfl)
@[simp] theorem State.report_cqs (c : Nat) (v : List Nat) : (s.report c v).cqs = s.cqs := (rfl)
@[simp] theorem State.report_snoop (c : Nat) (v : List Nat) : (s.report c v).snoop = s.snoop := (rfl)
@[simp] theorem State.report_biOut (c : Nat) (v : List Nat) : (s.report c v).biOut = s.biOut := (rfl)
@[simp] theorem State.report_ports (c : Nat) (v : List Nat) : (s.report c v).ports = s.ports := (rfl)
@[simp] theorem State.report_inbox (c : Nat) (v : List Nat) : (s.report c v).inbox = s.inbox := (rfl)
@[simp] theorem State.report_xfers (c : Nat) (v : List Nat) : (s.report c v).xfers = s.xfers := (rfl)
@[simp] theorem State.report_sources (c : Nat) (v : List Nat) : (s.report c v).sources = s.sources := (rfl)
@[simp] theorem State.report_bores (c : Nat) (v : List Nat) : (s.report c v).bores = s.bores := (rfl)
@[simp] theorem State.report_gate (c : Nat) (v : List Nat) : (s.report c v).gate = s.gate := (rfl)
@[simp] theorem State.report_ebbs (c : Nat) (v : List Nat) : (s.report c v).ebbs = s.ebbs := (rfl)
@[simp] theorem State.report_chip (c : Nat) (v : List Nat) : (s.report c v).chip = s.chip := (rfl)
@[simp] theorem State.report_freeCtr (c : Nat) (v : List Nat) : (s.report c v).freeCtr = s.freeCtr := (rfl)
@[simp] theorem State.report_held (c : Nat) (v : List Nat) : (s.report c v).held = s.held := (rfl)
@[simp] theorem State.report_fltWait (c : Nat) (v : List Nat) : (s.report c v).fltWait = s.fltWait := (rfl)
@[simp] theorem State.report_cxl (c : Nat) (v : List Nat) : (s.report c v).cxl = s.cxl := (rfl)
@[simp] theorem State.report_pending (c : Nat) (v : List Nat) : (s.report c v).pending = s.pending := (rfl)

/-! ### setByte changes mem alone -/

@[simp] theorem State.setByte_regs (a : Nat) (b : Byte) : (s.setByte a b).regs = s.regs := (rfl)
@[simp] theorem State.setByte_bad (a : Nat) (b : Byte) : (s.setByte a b).bad = s.bad := (rfl)
@[simp] theorem State.setByte_acc (a : Nat) (b : Byte) : (s.setByte a b).acc = s.acc := (rfl)
@[simp] theorem State.setByte_accBad (a : Nat) (b : Byte) : (s.setByte a b).accBad = s.accBad := (rfl)
@[simp] theorem State.setByte_imBad (a : Nat) (b : Byte) : (s.setByte a b).imBad = s.imBad := (rfl)
@[simp] theorem State.setByte_kern (a : Nat) (b : Byte) : (s.setByte a b).kern = s.kern := (rfl)
@[simp] theorem State.setByte_kernBad (a : Nat) (b : Byte) : (s.setByte a b).kernBad = s.kernBad := (rfl)
@[simp] theorem State.setByte_kernHdr (a : Nat) (b : Byte) : (s.setByte a b).kernHdr = s.kernHdr := (rfl)
@[simp] theorem State.setByte_lanes (a : Nat) (b : Byte) : (s.setByte a b).lanes = s.lanes := (rfl)
@[simp] theorem State.setByte_laneF (a : Nat) (b : Byte) : (s.setByte a b).laneF = s.laneF := (rfl)
@[simp] theorem State.setByte_cores (a : Nat) (b : Byte) : (s.setByte a b).cores = s.cores := (rfl)
@[simp] theorem State.setByte_fltSince (a : Nat) (b : Byte) : (s.setByte a b).fltSince = s.fltSince := (rfl)
@[simp] theorem State.setByte_fltHeld (a : Nat) (b : Byte) : (s.setByte a b).fltHeld = s.fltHeld := (rfl)
@[simp] theorem State.setByte_rings (a : Nat) (b : Byte) : (s.setByte a b).rings = s.rings := (rfl)
@[simp] theorem State.setByte_cqs (a : Nat) (b : Byte) : (s.setByte a b).cqs = s.cqs := (rfl)
@[simp] theorem State.setByte_snoop (a : Nat) (b : Byte) : (s.setByte a b).snoop = s.snoop := (rfl)
@[simp] theorem State.setByte_biOut (a : Nat) (b : Byte) : (s.setByte a b).biOut = s.biOut := (rfl)
@[simp] theorem State.setByte_ports (a : Nat) (b : Byte) : (s.setByte a b).ports = s.ports := (rfl)
@[simp] theorem State.setByte_inbox (a : Nat) (b : Byte) : (s.setByte a b).inbox = s.inbox := (rfl)
@[simp] theorem State.setByte_xfers (a : Nat) (b : Byte) : (s.setByte a b).xfers = s.xfers := (rfl)
@[simp] theorem State.setByte_sources (a : Nat) (b : Byte) : (s.setByte a b).sources = s.sources := (rfl)
@[simp] theorem State.setByte_bores (a : Nat) (b : Byte) : (s.setByte a b).bores = s.bores := (rfl)
@[simp] theorem State.setByte_gate (a : Nat) (b : Byte) : (s.setByte a b).gate = s.gate := (rfl)
@[simp] theorem State.setByte_ebbs (a : Nat) (b : Byte) : (s.setByte a b).ebbs = s.ebbs := (rfl)
@[simp] theorem State.setByte_chip (a : Nat) (b : Byte) : (s.setByte a b).chip = s.chip := (rfl)
@[simp] theorem State.setByte_outbox (a : Nat) (b : Byte) : (s.setByte a b).outbox = s.outbox := (rfl)
@[simp] theorem State.setByte_freeCtr (a : Nat) (b : Byte) : (s.setByte a b).freeCtr = s.freeCtr := (rfl)
@[simp] theorem State.setByte_held (a : Nat) (b : Byte) : (s.setByte a b).held = s.held := (rfl)
@[simp] theorem State.setByte_fltWait (a : Nat) (b : Byte) : (s.setByte a b).fltWait = s.fltWait := (rfl)
@[simp] theorem State.setByte_cxl (a : Nat) (b : Byte) : (s.setByte a b).cxl = s.cxl := (rfl)
@[simp] theorem State.setByte_pending (a : Nat) (b : Byte) : (s.setByte a b).pending = s.pending := (rfl)

/-! ### putByte changes mem alone -/

@[simp] theorem State.putByte_regs (w : MWrite) : (s.putByte w).regs = s.regs := (rfl)
@[simp] theorem State.putByte_bad (w : MWrite) : (s.putByte w).bad = s.bad := (rfl)
@[simp] theorem State.putByte_acc (w : MWrite) : (s.putByte w).acc = s.acc := (rfl)
@[simp] theorem State.putByte_accBad (w : MWrite) : (s.putByte w).accBad = s.accBad := (rfl)
@[simp] theorem State.putByte_imBad (w : MWrite) : (s.putByte w).imBad = s.imBad := (rfl)
@[simp] theorem State.putByte_kern (w : MWrite) : (s.putByte w).kern = s.kern := (rfl)
@[simp] theorem State.putByte_kernBad (w : MWrite) : (s.putByte w).kernBad = s.kernBad := (rfl)
@[simp] theorem State.putByte_kernHdr (w : MWrite) : (s.putByte w).kernHdr = s.kernHdr := (rfl)
@[simp] theorem State.putByte_lanes (w : MWrite) : (s.putByte w).lanes = s.lanes := (rfl)
@[simp] theorem State.putByte_laneF (w : MWrite) : (s.putByte w).laneF = s.laneF := (rfl)
@[simp] theorem State.putByte_cores (w : MWrite) : (s.putByte w).cores = s.cores := (rfl)
@[simp] theorem State.putByte_fltSince (w : MWrite) : (s.putByte w).fltSince = s.fltSince := (rfl)
@[simp] theorem State.putByte_fltHeld (w : MWrite) : (s.putByte w).fltHeld = s.fltHeld := (rfl)
@[simp] theorem State.putByte_rings (w : MWrite) : (s.putByte w).rings = s.rings := (rfl)
@[simp] theorem State.putByte_cqs (w : MWrite) : (s.putByte w).cqs = s.cqs := (rfl)
@[simp] theorem State.putByte_snoop (w : MWrite) : (s.putByte w).snoop = s.snoop := (rfl)
@[simp] theorem State.putByte_biOut (w : MWrite) : (s.putByte w).biOut = s.biOut := (rfl)
@[simp] theorem State.putByte_ports (w : MWrite) : (s.putByte w).ports = s.ports := (rfl)
@[simp] theorem State.putByte_inbox (w : MWrite) : (s.putByte w).inbox = s.inbox := (rfl)
@[simp] theorem State.putByte_xfers (w : MWrite) : (s.putByte w).xfers = s.xfers := (rfl)
@[simp] theorem State.putByte_sources (w : MWrite) : (s.putByte w).sources = s.sources := (rfl)
@[simp] theorem State.putByte_bores (w : MWrite) : (s.putByte w).bores = s.bores := (rfl)
@[simp] theorem State.putByte_gate (w : MWrite) : (s.putByte w).gate = s.gate := (rfl)
@[simp] theorem State.putByte_ebbs (w : MWrite) : (s.putByte w).ebbs = s.ebbs := (rfl)
@[simp] theorem State.putByte_chip (w : MWrite) : (s.putByte w).chip = s.chip := (rfl)
@[simp] theorem State.putByte_outbox (w : MWrite) : (s.putByte w).outbox = s.outbox := (rfl)
@[simp] theorem State.putByte_freeCtr (w : MWrite) : (s.putByte w).freeCtr = s.freeCtr := (rfl)
@[simp] theorem State.putByte_held (w : MWrite) : (s.putByte w).held = s.held := (rfl)
@[simp] theorem State.putByte_fltWait (w : MWrite) : (s.putByte w).fltWait = s.fltWait := (rfl)
@[simp] theorem State.putByte_cxl (w : MWrite) : (s.putByte w).cxl = s.cxl := (rfl)
@[simp] theorem State.putByte_pending (w : MWrite) : (s.putByte w).pending = s.pending := (rfl)

/-! ### setBad changes bad alone -/

@[simp] theorem State.setBad_regs (g : Nat) (b : Bool) : (s.setBad g b).regs = s.regs := (rfl)
@[simp] theorem State.setBad_mem (g : Nat) (b : Bool) : (s.setBad g b).mem = s.mem := (rfl)
@[simp] theorem State.setBad_acc (g : Nat) (b : Bool) : (s.setBad g b).acc = s.acc := (rfl)
@[simp] theorem State.setBad_accBad (g : Nat) (b : Bool) : (s.setBad g b).accBad = s.accBad := (rfl)
@[simp] theorem State.setBad_imBad (g : Nat) (b : Bool) : (s.setBad g b).imBad = s.imBad := (rfl)
@[simp] theorem State.setBad_kern (g : Nat) (b : Bool) : (s.setBad g b).kern = s.kern := (rfl)
@[simp] theorem State.setBad_kernBad (g : Nat) (b : Bool) : (s.setBad g b).kernBad = s.kernBad := (rfl)
@[simp] theorem State.setBad_kernHdr (g : Nat) (b : Bool) : (s.setBad g b).kernHdr = s.kernHdr := (rfl)
@[simp] theorem State.setBad_lanes (g : Nat) (b : Bool) : (s.setBad g b).lanes = s.lanes := (rfl)
@[simp] theorem State.setBad_laneF (g : Nat) (b : Bool) : (s.setBad g b).laneF = s.laneF := (rfl)
@[simp] theorem State.setBad_cores (g : Nat) (b : Bool) : (s.setBad g b).cores = s.cores := (rfl)
@[simp] theorem State.setBad_fltSince (g : Nat) (b : Bool) : (s.setBad g b).fltSince = s.fltSince := (rfl)
@[simp] theorem State.setBad_fltHeld (g : Nat) (b : Bool) : (s.setBad g b).fltHeld = s.fltHeld := (rfl)
@[simp] theorem State.setBad_rings (g : Nat) (b : Bool) : (s.setBad g b).rings = s.rings := (rfl)
@[simp] theorem State.setBad_cqs (g : Nat) (b : Bool) : (s.setBad g b).cqs = s.cqs := (rfl)
@[simp] theorem State.setBad_snoop (g : Nat) (b : Bool) : (s.setBad g b).snoop = s.snoop := (rfl)
@[simp] theorem State.setBad_biOut (g : Nat) (b : Bool) : (s.setBad g b).biOut = s.biOut := (rfl)
@[simp] theorem State.setBad_ports (g : Nat) (b : Bool) : (s.setBad g b).ports = s.ports := (rfl)
@[simp] theorem State.setBad_inbox (g : Nat) (b : Bool) : (s.setBad g b).inbox = s.inbox := (rfl)
@[simp] theorem State.setBad_xfers (g : Nat) (b : Bool) : (s.setBad g b).xfers = s.xfers := (rfl)
@[simp] theorem State.setBad_sources (g : Nat) (b : Bool) : (s.setBad g b).sources = s.sources := (rfl)
@[simp] theorem State.setBad_bores (g : Nat) (b : Bool) : (s.setBad g b).bores = s.bores := (rfl)
@[simp] theorem State.setBad_gate (g : Nat) (b : Bool) : (s.setBad g b).gate = s.gate := (rfl)
@[simp] theorem State.setBad_ebbs (g : Nat) (b : Bool) : (s.setBad g b).ebbs = s.ebbs := (rfl)
@[simp] theorem State.setBad_chip (g : Nat) (b : Bool) : (s.setBad g b).chip = s.chip := (rfl)
@[simp] theorem State.setBad_outbox (g : Nat) (b : Bool) : (s.setBad g b).outbox = s.outbox := (rfl)
@[simp] theorem State.setBad_freeCtr (g : Nat) (b : Bool) : (s.setBad g b).freeCtr = s.freeCtr := (rfl)
@[simp] theorem State.setBad_held (g : Nat) (b : Bool) : (s.setBad g b).held = s.held := (rfl)
@[simp] theorem State.setBad_fltWait (g : Nat) (b : Bool) : (s.setBad g b).fltWait = s.fltWait := (rfl)
@[simp] theorem State.setBad_cxl (g : Nat) (b : Bool) : (s.setBad g b).cxl = s.cxl := (rfl)
@[simp] theorem State.setBad_pending (g : Nat) (b : Bool) : (s.setBad g b).pending = s.pending := (rfl)

/-! ### modChip changes chip alone -/

@[simp] theorem State.modChip_regs (f : Chip → Chip) : (s.modChip f).regs = s.regs := (rfl)
@[simp] theorem State.modChip_mem (f : Chip → Chip) : (s.modChip f).mem = s.mem := (rfl)
@[simp] theorem State.modChip_bad (f : Chip → Chip) : (s.modChip f).bad = s.bad := (rfl)
@[simp] theorem State.modChip_acc (f : Chip → Chip) : (s.modChip f).acc = s.acc := (rfl)
@[simp] theorem State.modChip_accBad (f : Chip → Chip) : (s.modChip f).accBad = s.accBad := (rfl)
@[simp] theorem State.modChip_imBad (f : Chip → Chip) : (s.modChip f).imBad = s.imBad := (rfl)
@[simp] theorem State.modChip_kern (f : Chip → Chip) : (s.modChip f).kern = s.kern := (rfl)
@[simp] theorem State.modChip_kernBad (f : Chip → Chip) : (s.modChip f).kernBad = s.kernBad := (rfl)
@[simp] theorem State.modChip_kernHdr (f : Chip → Chip) : (s.modChip f).kernHdr = s.kernHdr := (rfl)
@[simp] theorem State.modChip_lanes (f : Chip → Chip) : (s.modChip f).lanes = s.lanes := (rfl)
@[simp] theorem State.modChip_laneF (f : Chip → Chip) : (s.modChip f).laneF = s.laneF := (rfl)
@[simp] theorem State.modChip_cores (f : Chip → Chip) : (s.modChip f).cores = s.cores := (rfl)
@[simp] theorem State.modChip_fltSince (f : Chip → Chip) : (s.modChip f).fltSince = s.fltSince := (rfl)
@[simp] theorem State.modChip_fltHeld (f : Chip → Chip) : (s.modChip f).fltHeld = s.fltHeld := (rfl)
@[simp] theorem State.modChip_rings (f : Chip → Chip) : (s.modChip f).rings = s.rings := (rfl)
@[simp] theorem State.modChip_cqs (f : Chip → Chip) : (s.modChip f).cqs = s.cqs := (rfl)
@[simp] theorem State.modChip_snoop (f : Chip → Chip) : (s.modChip f).snoop = s.snoop := (rfl)
@[simp] theorem State.modChip_biOut (f : Chip → Chip) : (s.modChip f).biOut = s.biOut := (rfl)
@[simp] theorem State.modChip_ports (f : Chip → Chip) : (s.modChip f).ports = s.ports := (rfl)
@[simp] theorem State.modChip_inbox (f : Chip → Chip) : (s.modChip f).inbox = s.inbox := (rfl)
@[simp] theorem State.modChip_xfers (f : Chip → Chip) : (s.modChip f).xfers = s.xfers := (rfl)
@[simp] theorem State.modChip_sources (f : Chip → Chip) : (s.modChip f).sources = s.sources := (rfl)
@[simp] theorem State.modChip_bores (f : Chip → Chip) : (s.modChip f).bores = s.bores := (rfl)
@[simp] theorem State.modChip_gate (f : Chip → Chip) : (s.modChip f).gate = s.gate := (rfl)
@[simp] theorem State.modChip_ebbs (f : Chip → Chip) : (s.modChip f).ebbs = s.ebbs := (rfl)
@[simp] theorem State.modChip_outbox (f : Chip → Chip) : (s.modChip f).outbox = s.outbox := (rfl)
@[simp] theorem State.modChip_freeCtr (f : Chip → Chip) : (s.modChip f).freeCtr = s.freeCtr := (rfl)
@[simp] theorem State.modChip_held (f : Chip → Chip) : (s.modChip f).held = s.held := (rfl)
@[simp] theorem State.modChip_fltWait (f : Chip → Chip) : (s.modChip f).fltWait = s.fltWait := (rfl)
@[simp] theorem State.modChip_cxl (f : Chip → Chip) : (s.modChip f).cxl = s.cxl := (rfl)
@[simp] theorem State.modChip_pending (f : Chip → Chip) : (s.modChip f).pending = s.pending := (rfl)

/-! ### setRing changes rings alone -/

@[simp] theorem State.setRing_regs (r : Nat) (g : RingSt) : (s.setRing r g).regs = s.regs := (rfl)
@[simp] theorem State.setRing_mem (r : Nat) (g : RingSt) : (s.setRing r g).mem = s.mem := (rfl)
@[simp] theorem State.setRing_bad (r : Nat) (g : RingSt) : (s.setRing r g).bad = s.bad := (rfl)
@[simp] theorem State.setRing_acc (r : Nat) (g : RingSt) : (s.setRing r g).acc = s.acc := (rfl)
@[simp] theorem State.setRing_accBad (r : Nat) (g : RingSt) : (s.setRing r g).accBad = s.accBad := (rfl)
@[simp] theorem State.setRing_imBad (r : Nat) (g : RingSt) : (s.setRing r g).imBad = s.imBad := (rfl)
@[simp] theorem State.setRing_kern (r : Nat) (g : RingSt) : (s.setRing r g).kern = s.kern := (rfl)
@[simp] theorem State.setRing_kernBad (r : Nat) (g : RingSt) : (s.setRing r g).kernBad = s.kernBad := (rfl)
@[simp] theorem State.setRing_kernHdr (r : Nat) (g : RingSt) : (s.setRing r g).kernHdr = s.kernHdr := (rfl)
@[simp] theorem State.setRing_lanes (r : Nat) (g : RingSt) : (s.setRing r g).lanes = s.lanes := (rfl)
@[simp] theorem State.setRing_laneF (r : Nat) (g : RingSt) : (s.setRing r g).laneF = s.laneF := (rfl)
@[simp] theorem State.setRing_cores (r : Nat) (g : RingSt) : (s.setRing r g).cores = s.cores := (rfl)
@[simp] theorem State.setRing_fltSince (r : Nat) (g : RingSt) : (s.setRing r g).fltSince = s.fltSince := (rfl)
@[simp] theorem State.setRing_fltHeld (r : Nat) (g : RingSt) : (s.setRing r g).fltHeld = s.fltHeld := (rfl)
@[simp] theorem State.setRing_cqs (r : Nat) (g : RingSt) : (s.setRing r g).cqs = s.cqs := (rfl)
@[simp] theorem State.setRing_snoop (r : Nat) (g : RingSt) : (s.setRing r g).snoop = s.snoop := (rfl)
@[simp] theorem State.setRing_biOut (r : Nat) (g : RingSt) : (s.setRing r g).biOut = s.biOut := (rfl)
@[simp] theorem State.setRing_ports (r : Nat) (g : RingSt) : (s.setRing r g).ports = s.ports := (rfl)
@[simp] theorem State.setRing_inbox (r : Nat) (g : RingSt) : (s.setRing r g).inbox = s.inbox := (rfl)
@[simp] theorem State.setRing_xfers (r : Nat) (g : RingSt) : (s.setRing r g).xfers = s.xfers := (rfl)
@[simp] theorem State.setRing_sources (r : Nat) (g : RingSt) : (s.setRing r g).sources = s.sources := (rfl)
@[simp] theorem State.setRing_bores (r : Nat) (g : RingSt) : (s.setRing r g).bores = s.bores := (rfl)
@[simp] theorem State.setRing_gate (r : Nat) (g : RingSt) : (s.setRing r g).gate = s.gate := (rfl)
@[simp] theorem State.setRing_ebbs (r : Nat) (g : RingSt) : (s.setRing r g).ebbs = s.ebbs := (rfl)
@[simp] theorem State.setRing_chip (r : Nat) (g : RingSt) : (s.setRing r g).chip = s.chip := (rfl)
@[simp] theorem State.setRing_outbox (r : Nat) (g : RingSt) : (s.setRing r g).outbox = s.outbox := (rfl)
@[simp] theorem State.setRing_freeCtr (r : Nat) (g : RingSt) : (s.setRing r g).freeCtr = s.freeCtr := (rfl)
@[simp] theorem State.setRing_held (r : Nat) (g : RingSt) : (s.setRing r g).held = s.held := (rfl)
@[simp] theorem State.setRing_fltWait (r : Nat) (g : RingSt) : (s.setRing r g).fltWait = s.fltWait := (rfl)
@[simp] theorem State.setRing_cxl (r : Nat) (g : RingSt) : (s.setRing r g).cxl = s.cxl := (rfl)
@[simp] theorem State.setRing_pending (r : Nat) (g : RingSt) : (s.setRing r g).pending = s.pending := (rfl)

/-! ### setCq changes cqs alone -/

@[simp] theorem State.setCq_regs (q : Nat) (c : CqSt) : (s.setCq q c).regs = s.regs := (rfl)
@[simp] theorem State.setCq_mem (q : Nat) (c : CqSt) : (s.setCq q c).mem = s.mem := (rfl)
@[simp] theorem State.setCq_bad (q : Nat) (c : CqSt) : (s.setCq q c).bad = s.bad := (rfl)
@[simp] theorem State.setCq_acc (q : Nat) (c : CqSt) : (s.setCq q c).acc = s.acc := (rfl)
@[simp] theorem State.setCq_accBad (q : Nat) (c : CqSt) : (s.setCq q c).accBad = s.accBad := (rfl)
@[simp] theorem State.setCq_imBad (q : Nat) (c : CqSt) : (s.setCq q c).imBad = s.imBad := (rfl)
@[simp] theorem State.setCq_kern (q : Nat) (c : CqSt) : (s.setCq q c).kern = s.kern := (rfl)
@[simp] theorem State.setCq_kernBad (q : Nat) (c : CqSt) : (s.setCq q c).kernBad = s.kernBad := (rfl)
@[simp] theorem State.setCq_kernHdr (q : Nat) (c : CqSt) : (s.setCq q c).kernHdr = s.kernHdr := (rfl)
@[simp] theorem State.setCq_lanes (q : Nat) (c : CqSt) : (s.setCq q c).lanes = s.lanes := (rfl)
@[simp] theorem State.setCq_laneF (q : Nat) (c : CqSt) : (s.setCq q c).laneF = s.laneF := (rfl)
@[simp] theorem State.setCq_cores (q : Nat) (c : CqSt) : (s.setCq q c).cores = s.cores := (rfl)
@[simp] theorem State.setCq_fltSince (q : Nat) (c : CqSt) : (s.setCq q c).fltSince = s.fltSince := (rfl)
@[simp] theorem State.setCq_fltHeld (q : Nat) (c : CqSt) : (s.setCq q c).fltHeld = s.fltHeld := (rfl)
@[simp] theorem State.setCq_rings (q : Nat) (c : CqSt) : (s.setCq q c).rings = s.rings := (rfl)
@[simp] theorem State.setCq_snoop (q : Nat) (c : CqSt) : (s.setCq q c).snoop = s.snoop := (rfl)
@[simp] theorem State.setCq_biOut (q : Nat) (c : CqSt) : (s.setCq q c).biOut = s.biOut := (rfl)
@[simp] theorem State.setCq_ports (q : Nat) (c : CqSt) : (s.setCq q c).ports = s.ports := (rfl)
@[simp] theorem State.setCq_inbox (q : Nat) (c : CqSt) : (s.setCq q c).inbox = s.inbox := (rfl)
@[simp] theorem State.setCq_xfers (q : Nat) (c : CqSt) : (s.setCq q c).xfers = s.xfers := (rfl)
@[simp] theorem State.setCq_sources (q : Nat) (c : CqSt) : (s.setCq q c).sources = s.sources := (rfl)
@[simp] theorem State.setCq_bores (q : Nat) (c : CqSt) : (s.setCq q c).bores = s.bores := (rfl)
@[simp] theorem State.setCq_gate (q : Nat) (c : CqSt) : (s.setCq q c).gate = s.gate := (rfl)
@[simp] theorem State.setCq_ebbs (q : Nat) (c : CqSt) : (s.setCq q c).ebbs = s.ebbs := (rfl)
@[simp] theorem State.setCq_chip (q : Nat) (c : CqSt) : (s.setCq q c).chip = s.chip := (rfl)
@[simp] theorem State.setCq_outbox (q : Nat) (c : CqSt) : (s.setCq q c).outbox = s.outbox := (rfl)
@[simp] theorem State.setCq_freeCtr (q : Nat) (c : CqSt) : (s.setCq q c).freeCtr = s.freeCtr := (rfl)
@[simp] theorem State.setCq_held (q : Nat) (c : CqSt) : (s.setCq q c).held = s.held := (rfl)
@[simp] theorem State.setCq_fltWait (q : Nat) (c : CqSt) : (s.setCq q c).fltWait = s.fltWait := (rfl)
@[simp] theorem State.setCq_cxl (q : Nat) (c : CqSt) : (s.setCq q c).cxl = s.cxl := (rfl)
@[simp] theorem State.setCq_pending (q : Nat) (c : CqSt) : (s.setCq q c).pending = s.pending := (rfl)

/-! ### modPort changes ports alone -/

@[simp] theorem State.modPort_regs (p : Nat) (f : PortSt → PortSt) : (s.modPort p f).regs = s.regs := (rfl)
@[simp] theorem State.modPort_mem (p : Nat) (f : PortSt → PortSt) : (s.modPort p f).mem = s.mem := (rfl)
@[simp] theorem State.modPort_bad (p : Nat) (f : PortSt → PortSt) : (s.modPort p f).bad = s.bad := (rfl)
@[simp] theorem State.modPort_acc (p : Nat) (f : PortSt → PortSt) : (s.modPort p f).acc = s.acc := (rfl)
@[simp] theorem State.modPort_accBad (p : Nat) (f : PortSt → PortSt) : (s.modPort p f).accBad = s.accBad := (rfl)
@[simp] theorem State.modPort_imBad (p : Nat) (f : PortSt → PortSt) : (s.modPort p f).imBad = s.imBad := (rfl)
@[simp] theorem State.modPort_kern (p : Nat) (f : PortSt → PortSt) : (s.modPort p f).kern = s.kern := (rfl)
@[simp] theorem State.modPort_kernBad (p : Nat) (f : PortSt → PortSt) : (s.modPort p f).kernBad = s.kernBad := (rfl)
@[simp] theorem State.modPort_kernHdr (p : Nat) (f : PortSt → PortSt) : (s.modPort p f).kernHdr = s.kernHdr := (rfl)
@[simp] theorem State.modPort_lanes (p : Nat) (f : PortSt → PortSt) : (s.modPort p f).lanes = s.lanes := (rfl)
@[simp] theorem State.modPort_laneF (p : Nat) (f : PortSt → PortSt) : (s.modPort p f).laneF = s.laneF := (rfl)
@[simp] theorem State.modPort_cores (p : Nat) (f : PortSt → PortSt) : (s.modPort p f).cores = s.cores := (rfl)
@[simp] theorem State.modPort_fltSince (p : Nat) (f : PortSt → PortSt) : (s.modPort p f).fltSince = s.fltSince := (rfl)
@[simp] theorem State.modPort_fltHeld (p : Nat) (f : PortSt → PortSt) : (s.modPort p f).fltHeld = s.fltHeld := (rfl)
@[simp] theorem State.modPort_rings (p : Nat) (f : PortSt → PortSt) : (s.modPort p f).rings = s.rings := (rfl)
@[simp] theorem State.modPort_cqs (p : Nat) (f : PortSt → PortSt) : (s.modPort p f).cqs = s.cqs := (rfl)
@[simp] theorem State.modPort_snoop (p : Nat) (f : PortSt → PortSt) : (s.modPort p f).snoop = s.snoop := (rfl)
@[simp] theorem State.modPort_biOut (p : Nat) (f : PortSt → PortSt) : (s.modPort p f).biOut = s.biOut := (rfl)
@[simp] theorem State.modPort_inbox (p : Nat) (f : PortSt → PortSt) : (s.modPort p f).inbox = s.inbox := (rfl)
@[simp] theorem State.modPort_xfers (p : Nat) (f : PortSt → PortSt) : (s.modPort p f).xfers = s.xfers := (rfl)
@[simp] theorem State.modPort_sources (p : Nat) (f : PortSt → PortSt) : (s.modPort p f).sources = s.sources := (rfl)
@[simp] theorem State.modPort_bores (p : Nat) (f : PortSt → PortSt) : (s.modPort p f).bores = s.bores := (rfl)
@[simp] theorem State.modPort_gate (p : Nat) (f : PortSt → PortSt) : (s.modPort p f).gate = s.gate := (rfl)
@[simp] theorem State.modPort_ebbs (p : Nat) (f : PortSt → PortSt) : (s.modPort p f).ebbs = s.ebbs := (rfl)
@[simp] theorem State.modPort_chip (p : Nat) (f : PortSt → PortSt) : (s.modPort p f).chip = s.chip := (rfl)
@[simp] theorem State.modPort_outbox (p : Nat) (f : PortSt → PortSt) : (s.modPort p f).outbox = s.outbox := (rfl)
@[simp] theorem State.modPort_freeCtr (p : Nat) (f : PortSt → PortSt) : (s.modPort p f).freeCtr = s.freeCtr := (rfl)
@[simp] theorem State.modPort_held (p : Nat) (f : PortSt → PortSt) : (s.modPort p f).held = s.held := (rfl)
@[simp] theorem State.modPort_fltWait (p : Nat) (f : PortSt → PortSt) : (s.modPort p f).fltWait = s.fltWait := (rfl)
@[simp] theorem State.modPort_cxl (p : Nat) (f : PortSt → PortSt) : (s.modPort p f).cxl = s.cxl := (rfl)
@[simp] theorem State.modPort_pending (p : Nat) (f : PortSt → PortSt) : (s.modPort p f).pending = s.pending := (rfl)

/-! ### modBore changes bores alone -/

@[simp] theorem State.modBore_regs (a : Nat) (f : BoreSt → BoreSt) : (s.modBore a f).regs = s.regs := (rfl)
@[simp] theorem State.modBore_mem (a : Nat) (f : BoreSt → BoreSt) : (s.modBore a f).mem = s.mem := (rfl)
@[simp] theorem State.modBore_bad (a : Nat) (f : BoreSt → BoreSt) : (s.modBore a f).bad = s.bad := (rfl)
@[simp] theorem State.modBore_acc (a : Nat) (f : BoreSt → BoreSt) : (s.modBore a f).acc = s.acc := (rfl)
@[simp] theorem State.modBore_accBad (a : Nat) (f : BoreSt → BoreSt) : (s.modBore a f).accBad = s.accBad := (rfl)
@[simp] theorem State.modBore_imBad (a : Nat) (f : BoreSt → BoreSt) : (s.modBore a f).imBad = s.imBad := (rfl)
@[simp] theorem State.modBore_kern (a : Nat) (f : BoreSt → BoreSt) : (s.modBore a f).kern = s.kern := (rfl)
@[simp] theorem State.modBore_kernBad (a : Nat) (f : BoreSt → BoreSt) : (s.modBore a f).kernBad = s.kernBad := (rfl)
@[simp] theorem State.modBore_kernHdr (a : Nat) (f : BoreSt → BoreSt) : (s.modBore a f).kernHdr = s.kernHdr := (rfl)
@[simp] theorem State.modBore_lanes (a : Nat) (f : BoreSt → BoreSt) : (s.modBore a f).lanes = s.lanes := (rfl)
@[simp] theorem State.modBore_laneF (a : Nat) (f : BoreSt → BoreSt) : (s.modBore a f).laneF = s.laneF := (rfl)
@[simp] theorem State.modBore_cores (a : Nat) (f : BoreSt → BoreSt) : (s.modBore a f).cores = s.cores := (rfl)
@[simp] theorem State.modBore_fltSince (a : Nat) (f : BoreSt → BoreSt) : (s.modBore a f).fltSince = s.fltSince := (rfl)
@[simp] theorem State.modBore_fltHeld (a : Nat) (f : BoreSt → BoreSt) : (s.modBore a f).fltHeld = s.fltHeld := (rfl)
@[simp] theorem State.modBore_rings (a : Nat) (f : BoreSt → BoreSt) : (s.modBore a f).rings = s.rings := (rfl)
@[simp] theorem State.modBore_cqs (a : Nat) (f : BoreSt → BoreSt) : (s.modBore a f).cqs = s.cqs := (rfl)
@[simp] theorem State.modBore_snoop (a : Nat) (f : BoreSt → BoreSt) : (s.modBore a f).snoop = s.snoop := (rfl)
@[simp] theorem State.modBore_biOut (a : Nat) (f : BoreSt → BoreSt) : (s.modBore a f).biOut = s.biOut := (rfl)
@[simp] theorem State.modBore_ports (a : Nat) (f : BoreSt → BoreSt) : (s.modBore a f).ports = s.ports := (rfl)
@[simp] theorem State.modBore_inbox (a : Nat) (f : BoreSt → BoreSt) : (s.modBore a f).inbox = s.inbox := (rfl)
@[simp] theorem State.modBore_xfers (a : Nat) (f : BoreSt → BoreSt) : (s.modBore a f).xfers = s.xfers := (rfl)
@[simp] theorem State.modBore_sources (a : Nat) (f : BoreSt → BoreSt) : (s.modBore a f).sources = s.sources := (rfl)
@[simp] theorem State.modBore_gate (a : Nat) (f : BoreSt → BoreSt) : (s.modBore a f).gate = s.gate := (rfl)
@[simp] theorem State.modBore_ebbs (a : Nat) (f : BoreSt → BoreSt) : (s.modBore a f).ebbs = s.ebbs := (rfl)
@[simp] theorem State.modBore_chip (a : Nat) (f : BoreSt → BoreSt) : (s.modBore a f).chip = s.chip := (rfl)
@[simp] theorem State.modBore_outbox (a : Nat) (f : BoreSt → BoreSt) : (s.modBore a f).outbox = s.outbox := (rfl)
@[simp] theorem State.modBore_freeCtr (a : Nat) (f : BoreSt → BoreSt) : (s.modBore a f).freeCtr = s.freeCtr := (rfl)
@[simp] theorem State.modBore_held (a : Nat) (f : BoreSt → BoreSt) : (s.modBore a f).held = s.held := (rfl)
@[simp] theorem State.modBore_fltWait (a : Nat) (f : BoreSt → BoreSt) : (s.modBore a f).fltWait = s.fltWait := (rfl)
@[simp] theorem State.modBore_cxl (a : Nat) (f : BoreSt → BoreSt) : (s.modBore a f).cxl = s.cxl := (rfl)
@[simp] theorem State.modBore_pending (a : Nat) (f : BoreSt → BoreSt) : (s.modBore a f).pending = s.pending := (rfl)

/-! ### modCxl changes cxl alone -/

@[simp] theorem State.modCxl_regs (f : CxlSt → CxlSt) : (s.modCxl f).regs = s.regs := (rfl)
@[simp] theorem State.modCxl_mem (f : CxlSt → CxlSt) : (s.modCxl f).mem = s.mem := (rfl)
@[simp] theorem State.modCxl_bad (f : CxlSt → CxlSt) : (s.modCxl f).bad = s.bad := (rfl)
@[simp] theorem State.modCxl_acc (f : CxlSt → CxlSt) : (s.modCxl f).acc = s.acc := (rfl)
@[simp] theorem State.modCxl_accBad (f : CxlSt → CxlSt) : (s.modCxl f).accBad = s.accBad := (rfl)
@[simp] theorem State.modCxl_imBad (f : CxlSt → CxlSt) : (s.modCxl f).imBad = s.imBad := (rfl)
@[simp] theorem State.modCxl_kern (f : CxlSt → CxlSt) : (s.modCxl f).kern = s.kern := (rfl)
@[simp] theorem State.modCxl_kernBad (f : CxlSt → CxlSt) : (s.modCxl f).kernBad = s.kernBad := (rfl)
@[simp] theorem State.modCxl_kernHdr (f : CxlSt → CxlSt) : (s.modCxl f).kernHdr = s.kernHdr := (rfl)
@[simp] theorem State.modCxl_lanes (f : CxlSt → CxlSt) : (s.modCxl f).lanes = s.lanes := (rfl)
@[simp] theorem State.modCxl_laneF (f : CxlSt → CxlSt) : (s.modCxl f).laneF = s.laneF := (rfl)
@[simp] theorem State.modCxl_cores (f : CxlSt → CxlSt) : (s.modCxl f).cores = s.cores := (rfl)
@[simp] theorem State.modCxl_fltSince (f : CxlSt → CxlSt) : (s.modCxl f).fltSince = s.fltSince := (rfl)
@[simp] theorem State.modCxl_fltHeld (f : CxlSt → CxlSt) : (s.modCxl f).fltHeld = s.fltHeld := (rfl)
@[simp] theorem State.modCxl_rings (f : CxlSt → CxlSt) : (s.modCxl f).rings = s.rings := (rfl)
@[simp] theorem State.modCxl_cqs (f : CxlSt → CxlSt) : (s.modCxl f).cqs = s.cqs := (rfl)
@[simp] theorem State.modCxl_snoop (f : CxlSt → CxlSt) : (s.modCxl f).snoop = s.snoop := (rfl)
@[simp] theorem State.modCxl_biOut (f : CxlSt → CxlSt) : (s.modCxl f).biOut = s.biOut := (rfl)
@[simp] theorem State.modCxl_ports (f : CxlSt → CxlSt) : (s.modCxl f).ports = s.ports := (rfl)
@[simp] theorem State.modCxl_inbox (f : CxlSt → CxlSt) : (s.modCxl f).inbox = s.inbox := (rfl)
@[simp] theorem State.modCxl_xfers (f : CxlSt → CxlSt) : (s.modCxl f).xfers = s.xfers := (rfl)
@[simp] theorem State.modCxl_sources (f : CxlSt → CxlSt) : (s.modCxl f).sources = s.sources := (rfl)
@[simp] theorem State.modCxl_gate (f : CxlSt → CxlSt) : (s.modCxl f).gate = s.gate := (rfl)
@[simp] theorem State.modCxl_ebbs (f : CxlSt → CxlSt) : (s.modCxl f).ebbs = s.ebbs := (rfl)
@[simp] theorem State.modCxl_chip (f : CxlSt → CxlSt) : (s.modCxl f).chip = s.chip := (rfl)
@[simp] theorem State.modCxl_outbox (f : CxlSt → CxlSt) : (s.modCxl f).outbox = s.outbox := (rfl)
@[simp] theorem State.modCxl_freeCtr (f : CxlSt → CxlSt) : (s.modCxl f).freeCtr = s.freeCtr := (rfl)
@[simp] theorem State.modCxl_held (f : CxlSt → CxlSt) : (s.modCxl f).held = s.held := (rfl)
@[simp] theorem State.modCxl_fltWait (f : CxlSt → CxlSt) : (s.modCxl f).fltWait = s.fltWait := (rfl)
@[simp] theorem State.modCxl_pending (f : CxlSt → CxlSt) : (s.modCxl f).pending = s.pending := (rfl)
@[simp] theorem State.modCxl_bores (f : CxlSt → CxlSt) : (s.modCxl f).bores = s.bores := (rfl)
@[simp] theorem State.modCxl_cxl (f : CxlSt → CxlSt) : (s.modCxl f).cxl = f s.cxl := (rfl)

/-! ### modEbb changes ebbs alone -/

@[simp] theorem State.modEbb_regs (e : Nat) (f : EbbSt → EbbSt) : (s.modEbb e f).regs = s.regs := (rfl)
@[simp] theorem State.modEbb_mem (e : Nat) (f : EbbSt → EbbSt) : (s.modEbb e f).mem = s.mem := (rfl)
@[simp] theorem State.modEbb_bad (e : Nat) (f : EbbSt → EbbSt) : (s.modEbb e f).bad = s.bad := (rfl)
@[simp] theorem State.modEbb_acc (e : Nat) (f : EbbSt → EbbSt) : (s.modEbb e f).acc = s.acc := (rfl)
@[simp] theorem State.modEbb_accBad (e : Nat) (f : EbbSt → EbbSt) : (s.modEbb e f).accBad = s.accBad := (rfl)
@[simp] theorem State.modEbb_imBad (e : Nat) (f : EbbSt → EbbSt) : (s.modEbb e f).imBad = s.imBad := (rfl)
@[simp] theorem State.modEbb_kern (e : Nat) (f : EbbSt → EbbSt) : (s.modEbb e f).kern = s.kern := (rfl)
@[simp] theorem State.modEbb_kernBad (e : Nat) (f : EbbSt → EbbSt) : (s.modEbb e f).kernBad = s.kernBad := (rfl)
@[simp] theorem State.modEbb_kernHdr (e : Nat) (f : EbbSt → EbbSt) : (s.modEbb e f).kernHdr = s.kernHdr := (rfl)
@[simp] theorem State.modEbb_lanes (e : Nat) (f : EbbSt → EbbSt) : (s.modEbb e f).lanes = s.lanes := (rfl)
@[simp] theorem State.modEbb_laneF (e : Nat) (f : EbbSt → EbbSt) : (s.modEbb e f).laneF = s.laneF := (rfl)
@[simp] theorem State.modEbb_cores (e : Nat) (f : EbbSt → EbbSt) : (s.modEbb e f).cores = s.cores := (rfl)
@[simp] theorem State.modEbb_fltSince (e : Nat) (f : EbbSt → EbbSt) : (s.modEbb e f).fltSince = s.fltSince := (rfl)
@[simp] theorem State.modEbb_fltHeld (e : Nat) (f : EbbSt → EbbSt) : (s.modEbb e f).fltHeld = s.fltHeld := (rfl)
@[simp] theorem State.modEbb_rings (e : Nat) (f : EbbSt → EbbSt) : (s.modEbb e f).rings = s.rings := (rfl)
@[simp] theorem State.modEbb_cqs (e : Nat) (f : EbbSt → EbbSt) : (s.modEbb e f).cqs = s.cqs := (rfl)
@[simp] theorem State.modEbb_snoop (e : Nat) (f : EbbSt → EbbSt) : (s.modEbb e f).snoop = s.snoop := (rfl)
@[simp] theorem State.modEbb_biOut (e : Nat) (f : EbbSt → EbbSt) : (s.modEbb e f).biOut = s.biOut := (rfl)
@[simp] theorem State.modEbb_ports (e : Nat) (f : EbbSt → EbbSt) : (s.modEbb e f).ports = s.ports := (rfl)
@[simp] theorem State.modEbb_inbox (e : Nat) (f : EbbSt → EbbSt) : (s.modEbb e f).inbox = s.inbox := (rfl)
@[simp] theorem State.modEbb_xfers (e : Nat) (f : EbbSt → EbbSt) : (s.modEbb e f).xfers = s.xfers := (rfl)
@[simp] theorem State.modEbb_sources (e : Nat) (f : EbbSt → EbbSt) : (s.modEbb e f).sources = s.sources := (rfl)
@[simp] theorem State.modEbb_bores (e : Nat) (f : EbbSt → EbbSt) : (s.modEbb e f).bores = s.bores := (rfl)
@[simp] theorem State.modEbb_gate (e : Nat) (f : EbbSt → EbbSt) : (s.modEbb e f).gate = s.gate := (rfl)
@[simp] theorem State.modEbb_chip (e : Nat) (f : EbbSt → EbbSt) : (s.modEbb e f).chip = s.chip := (rfl)
@[simp] theorem State.modEbb_outbox (e : Nat) (f : EbbSt → EbbSt) : (s.modEbb e f).outbox = s.outbox := (rfl)
@[simp] theorem State.modEbb_freeCtr (e : Nat) (f : EbbSt → EbbSt) : (s.modEbb e f).freeCtr = s.freeCtr := (rfl)
@[simp] theorem State.modEbb_held (e : Nat) (f : EbbSt → EbbSt) : (s.modEbb e f).held = s.held := (rfl)
@[simp] theorem State.modEbb_fltWait (e : Nat) (f : EbbSt → EbbSt) : (s.modEbb e f).fltWait = s.fltWait := (rfl)
@[simp] theorem State.modEbb_cxl (e : Nat) (f : EbbSt → EbbSt) : (s.modEbb e f).cxl = s.cxl := (rfl)
@[simp] theorem State.modEbb_pending (e : Nat) (f : EbbSt → EbbSt) : (s.modEbb e f).pending = s.pending := (rfl)

/-! ### free draws the next free value -/

@[simp] theorem State.free_regs : s.free.2.regs = s.regs := (rfl)
@[simp] theorem State.free_mem : s.free.2.mem = s.mem := (rfl)
@[simp] theorem State.free_bad : s.free.2.bad = s.bad := (rfl)
@[simp] theorem State.free_acc : s.free.2.acc = s.acc := (rfl)
@[simp] theorem State.free_accBad : s.free.2.accBad = s.accBad := (rfl)
@[simp] theorem State.free_imBad : s.free.2.imBad = s.imBad := (rfl)
@[simp] theorem State.free_kern : s.free.2.kern = s.kern := (rfl)
@[simp] theorem State.free_kernBad : s.free.2.kernBad = s.kernBad := (rfl)
@[simp] theorem State.free_kernHdr : s.free.2.kernHdr = s.kernHdr := (rfl)
@[simp] theorem State.free_lanes : s.free.2.lanes = s.lanes := (rfl)
@[simp] theorem State.free_laneF : s.free.2.laneF = s.laneF := (rfl)
@[simp] theorem State.free_cores : s.free.2.cores = s.cores := (rfl)
@[simp] theorem State.free_fltSince : s.free.2.fltSince = s.fltSince := (rfl)
@[simp] theorem State.free_fltHeld : s.free.2.fltHeld = s.fltHeld := (rfl)
@[simp] theorem State.free_rings : s.free.2.rings = s.rings := (rfl)
@[simp] theorem State.free_cqs : s.free.2.cqs = s.cqs := (rfl)
@[simp] theorem State.free_snoop : s.free.2.snoop = s.snoop := (rfl)
@[simp] theorem State.free_biOut : s.free.2.biOut = s.biOut := (rfl)
@[simp] theorem State.free_ports : s.free.2.ports = s.ports := (rfl)
@[simp] theorem State.free_inbox : s.free.2.inbox = s.inbox := (rfl)
@[simp] theorem State.free_xfers : s.free.2.xfers = s.xfers := (rfl)
@[simp] theorem State.free_sources : s.free.2.sources = s.sources := (rfl)
@[simp] theorem State.free_bores : s.free.2.bores = s.bores := (rfl)
@[simp] theorem State.free_gate : s.free.2.gate = s.gate := (rfl)
@[simp] theorem State.free_ebbs : s.free.2.ebbs = s.ebbs := (rfl)
@[simp] theorem State.free_chip : s.free.2.chip = s.chip := (rfl)
@[simp] theorem State.free_outbox : s.free.2.outbox = s.outbox := (rfl)
@[simp] theorem State.free_pending : s.free.2.pending = s.pending := (rfl)

/-! ### Registers -/

/-- Different registers, instances or words have different keys. -/
theorem regKey_inj (r r' : Reg) (n n' i i' : Nat) (h : regKey r n i = regKey r' n' i') : r = r' ∧ n = n' ∧ i = i' := by
  simp only [regKey, Nat.pair_eq_pair] at h
  refine ⟨?_, h.2.1, h.2.2⟩
  have := congrArg Reg.ofNat h.1
  rwa [Reg.ofNat_ctorIdx, Reg.ofNat_ctorIdx] at this

/-- A register word reads as written. -/
@[simp] theorem State.rd_wr (r : Reg) (n i : Nat) (v : W64) : (s.wr r n i v).rd r n i = v := by
  simp [State.rd, State.wr]

/-- Every other register word reads as before. -/
theorem State.rd_wr_ne (r r' : Reg) (n n' i i' : Nat) (v : W64) (h : ¬(r = r' ∧ n = n' ∧ i = i')) :
    (s.wr r n i v).rd r' n' i' = s.rd r' n' i' := by
  have hk : regKey r n i ≠ regKey r' n' i' := fun e => h (regKey_inj _ _ _ _ _ _ e)
  simp [State.rd, State.wr, hk]

/-- Registers of another name read as before. -/
@[simp] theorem State.rd_wr_reg (r r' : Reg) (n n' i i' : Nat) (v : W64) (h : r ≠ r') :
    (s.wr r n i v).rd r' n' i' = s.rd r' n' i' := s.rd_wr_ne _ _ _ _ _ _ _ fun e => h e.1

/-- Setting a field is writing the word with the field replaced. -/
theorem State.setF_eq (r : Reg) (n i lo len x : Nat) : s.setF r n i lo len x = s.wr r n i (setFld (s.rd r n i) lo len x) := rfl

/-- A register's words read the same where the registers are the same. -/
theorem State.rd_congr (t : State) (h : t.regs = s.regs) (r : Reg) (n i : Nat) : t.rd r n i = s.rd r n i := by
  simp [State.rd, h]

/-- A byte reads the same where memory is the same. -/
theorem State.byte_congr (t : State) (h : t.mem = s.mem) (a : Nat) : t.byte a = s.byte a := by simp [State.byte, h]

/-- A byte reads as written, and every other as before. -/
@[simp] theorem State.byte_setByte (a b : Nat) (v : Byte) : (s.setByte a v).byte b = if a = b then v else s.byte b := by
  simp [State.byte, State.setByte]

/-! ### The canonical forms -/

/-- A byte write keeps memory canonical. -/
theorem State.setByte_wf (a : Nat) (v : Byte) (h : Sparse.wf 0#8 s.mem = true) : Sparse.wf 0#8 (s.setByte a v).mem = true :=
  Sparse.wf_set _ _ _ _ h

/-- So does a masked one. -/
theorem State.putByte_wf (w : MWrite) (h : Sparse.wf 0#8 s.mem = true) : Sparse.wf 0#8 (s.putByte w).mem = true :=
  Sparse.wf_set _ _ _ _ h

/-- So do several. -/
theorem State.putBytes_wf (ws : List MWrite) (h : Sparse.wf 0#8 s.mem = true) :
    Sparse.wf 0#8 (ws.foldl State.putByte s).mem = true := by
  induction ws generalizing s with
  | nil => exact h
  | cons w t ih => exact ih _ (s.putByte_wf w h)

/-- So does the write of a check unit. -/
theorem State.writeUnit_wf (g : Nat) (ws : List MWrite) (h : Sparse.wf 0#8 s.mem = true) :
    Sparse.wf 0#8 (s.writeUnit g ws).1.mem = true := by
  unfold State.writeUnit
  dsimp only
  split
  · exact h
  · split
    · exact s.putBytes_wf ws h
    · split
      · exact h
      · exact s.putBytes_wf ws h

/-- So does every write of an access. -/
theorem State.writeAll_wf (ws : List MWrite) (h : Sparse.wf 0#8 s.mem = true) :
    Sparse.wf 0#8 (s.writeAll ws).1.mem = true := by
  unfold State.writeAll
  suffices H : ∀ (l : List (Nat × List MWrite)) (r : State × List (Nat × Nat)), Sparse.wf 0#8 r.1.mem = true →
      Sparse.wf 0#8 (l.foldl (fun r g =>
        let (s', st) := r.1.writeUnit g.1 g.2
        (s', if st = 0 then r.2 else r.2 ++ [(g.1, st)])) r).1.mem = true from H _ (s, []) h
  intro l
  induction l with
  | nil => exact fun _ hr => hr
  | cons g t ih => exact fun r hr => ih _ (State.writeUnit_wf r.1 g.1 g.2 hr)

/-- A lost bank leaves memory canonical. -/
theorem State.loseBank_wf (n b : Nat) (h : Sparse.wf 0#8 s.mem = true) : Sparse.wf 0#8 (s.loseBank n b).mem = true := by
  simp only [State.loseBank]; exact Sparse.wf_drop _ _ _ h

/-- Reset memory is canonical. -/
theorem State.reset_wf : Sparse.wf 0#8 State.reset.mem = true := rfl

end Sys2Proof.Machine
end

