-- ==== Sys2Proof/Laws/Ops.lean ====
section
/-! SUPPORT. The shared operations, each with one lemma that says what it can do: which part of the state it changes,
and when it acts. -/

namespace Sys2Proof.Machine

variable (s : State)

/-! ### Registers -/

/-- Setting a field leaves registers of another name. -/
@[simp] theorem State.rd_setF_reg (r r' : Reg) (n n' i i' lo len x : Nat) (h : r ≠ r') :
    (s.setF r n i lo len x).rd r' n' i' = s.rd r' n' i' := s.rd_wr_reg _ _ _ _ _ _ _ h

/-- So does raising a flag. -/
@[simp] theorem State.rd_raise_reg (r r' : Reg) (n n' i i' k : Nat) (h : r ≠ r') :
    (s.raise r n i k).rd r' n' i' = s.rd r' n' i' := s.rd_setF_reg _ _ _ _ _ _ _ _ _ h

/-- So does counting. -/
@[simp] theorem State.rd_count_reg (r r' : Reg) (n n' i i' lo len k : Nat) (h : r ≠ r') :
    (s.count r n i lo len k).rd r' n' i' = s.rd r' n' i' := s.rd_setF_reg _ _ _ _ _ _ _ _ _ h

/-- So does writing words of a window. -/
@[simp] theorem State.rd_wrWords_reg (r r' : Reg) (n n' i i' k v : Nat) (h : r ≠ r') :
    (s.wrWords r n i k v).rd r' n' i' = s.rd r' n' i' := by
  induction k generalizing s i v with
  | zero => rfl
  | succ k ih => rw [State.wrWords, ih, s.rd_wr_reg _ _ _ _ _ _ _ h]

/-- A write of window words changes registers alone. -/
theorem State.wrWords_spec (r : Reg) (n i k v : Nat) : ∃ regs, s.wrWords r n i k v = { s with regs := regs } := by
  induction k generalizing s i v with
  | zero => exact ⟨s.regs, rfl⟩
  | succ k ih => obtain ⟨regs, h⟩ := ih (s.wr r n i (BitVec.ofNat 64 v)) (i + 1) (v / 2 ^ 64); exact ⟨regs, h⟩

/-! ### Fault log, marks, status -/

/-- A record that enters the log changes the log's registers and its two counts, and nothing else. -/
theorem State.faultStore_spec (f : FaultRec) :
    (∃ regs a b, s.faultStore f = { s with regs := regs, fltSince := a, fltHeld := b }) ∧
      ∀ r n i, r ∉ [Reg.fltMem, .fltSeq, .fltLost, .fltHead] → (s.faultStore f).rd r n i = s.rd r n i := by
  constructor
  · unfold State.faultStore
    dsimp only
    generalize f.image (s.rd .clkTick 0 0).toNat (s.fd .gateStep 0 0 0 48) (s.fd .fltSeq 0 0 0 32) = img
    generalize 8 * (if s.flag .fltHead 0 0 9 = true then 448 + s.fltSince % 64 else s.fd .fltHead 0 0 0 9) = k
    obtain ⟨regs, h⟩ := s.wrWords_spec .fltMem 0 k 8 img
    generalize s.wrWords .fltMem 0 k 8 img = u at h
    subst h
    split
    · split <;> exact ⟨_, _, _, rfl⟩
    · split <;> exact ⟨_, _, _, rfl⟩
  · intro r n i h
    simp only [List.mem_cons, List.not_mem_nil, or_false, not_or] at h
    obtain ⟨h1, h2, h3, h4⟩ := h
    have e1 := Ne.symm h1
    have e2 := Ne.symm h2
    have e3 := Ne.symm h3
    have e4 := Ne.symm h4
    unfold State.faultStore
    dsimp only
    generalize f.image (s.rd .clkTick 0 0).toNat (s.fd .gateStep 0 0 0 48) (s.fd .fltSeq 0 0 0 32) = img
    generalize 8 * (if s.flag .fltHead 0 0 9 = true then 448 + s.fltSince % 64 else s.fd .fltHead 0 0 0 9) = k
    have hu : (s.wrWords .fltMem 0 k 8 img).rd r n i = s.rd r n i := s.rd_wrWords_reg _ _ _ _ _ _ _ _ e1
    generalize s.wrWords .fltMem 0 k 8 img = u at hu
    generalize s.fd .fltSeq 0 0 0 32 + 1 = x
    have hv : (u.setF .fltSeq 0 0 0 32 x).rd r n i = s.rd r n i := (u.rd_setF_reg _ _ _ _ _ _ _ _ _ e2).trans hu
    generalize u.setF .fltSeq 0 0 0 32 x = v at hv
    have hc : ∀ (t : State) a c, State.rd { t with fltSince := a, fltHeld := c } r n i = t.rd r n i := fun _ _ _ => rfl
    have hd : ∀ (t : State) a, State.rd { t with fltSince := a } r n i = t.rd r n i := fun _ _ => rfl
    have hl : (v.count .fltLost 0 0 0 32 1).rd r n i = s.rd r n i := (v.rd_count_reg _ _ _ _ _ _ _ _ _ e3).trans hv
    generalize v.count .fltLost 0 0 0 32 1 = w at hl
    generalize s.fd .fltHead 0 0 0 9 + 1 = y
    have hh : (v.setF .fltHead 0 0 0 9 y).rd r n i = s.rd r n i := (v.rd_setF_reg _ _ _ _ _ _ _ _ _ e4).trans hv
    generalize v.setF .fltHead 0 0 0 9 y = q at hh
    have hr : (q.raise .fltHead 0 0 9).rd r n i = s.rd r n i := (q.rd_raise_reg _ _ _ _ _ _ _ e4).trans hh
    generalize q.raise .fltHead 0 0 9 = z at hr
    split
    · split
      · exact (hc w _ _).trans hl
      · exact (hc v _ _).trans hv
    · split
      · exact (hd z _).trans hr
      · exact hh

/-- A fault record changes the log's registers, its two counts and the number of records that wait, and nothing else. -/
theorem State.fault_spec (f : FaultRec) :
    (∃ regs a b w, s.fault f = { s with regs := regs, fltSince := a, fltHeld := b, fltWait := w }) ∧
      ∀ r n i, r ∉ [Reg.fltMem, .fltSeq, .fltLost, .fltHead] → (s.fault f).rd r n i = s.rd r n i := by
  obtain ⟨⟨regs, a, b, h⟩, hr⟩ := s.faultStore_spec f
  unfold State.fault
  split
  · refine ⟨⟨_, s.fltSince, s.fltHeld, s.fltWait, rfl⟩, fun r n i h => ?_⟩
    simp only [List.mem_cons, List.not_mem_nil, or_false, not_or] at h
    rw [State.rd_count_reg _ _ _ _ _ _ _ _ _ _ (Ne.symm h.2.2.1), State.rd_setF_reg _ _ _ _ _ _ _ _ _ _ (Ne.symm h.2.1)]
  · exact ⟨⟨regs, a, b, s.fltWait + 1, by rw [h]⟩, fun r n i h => hr r n i h⟩

/-- A change of a mark: the count as R161 gives it, other marks and other registers as they were, but for
CORE_STAT.MOVF. -/
theorem State.markChange_spec (n m : Nat) (d : Int) :
    (∃ regs, s.markChange n m d = { s with regs := regs }) ∧
      ∀ r k i, ¬(r = .mark ∧ k = n ∧ i = m) → r ≠ .coreStat → (s.markChange n m d).rd r k i = s.rd r k i := by
  constructor
  · unfold State.markChange
    dsimp only
    split <;> exact ⟨_, rfl⟩
  · intro r k i h1 h2
    have hm : ∀ x, (s.setF .mark n m 0 16 x).rd r k i = s.rd r k i := fun x =>
      s.rd_wr_ne _ _ _ _ _ _ _ fun e => h1 ⟨e.1.symm, e.2.1.symm, e.2.2.symm⟩
    unfold State.markChange
    dsimp only
    split
    · rw [State.rd_raise_reg _ _ _ _ _ _ _ _ (Ne.symm h2), hm]
    · exact hm _

/-- Bringing a core's status up to date changes CORE_STAT and DMA_STAT of that core alone. -/
theorem State.sync_spec (n : Nat) :
    (∃ regs, s.sync n = { s with regs := regs }) ∧
      ∀ r k i, ¬(k = n ∧ (r = .coreStat ∨ r = .dmaStat)) → (s.sync n).rd r k i = s.rd r k i := by
  refine ⟨⟨_, rfl⟩, fun r k i h => ?_⟩
  have hs : ∀ (t : State) (q : Reg) j lo len x, q = .coreStat ∨ q = .dmaStat → (t.setF q n j lo len x).rd r k i = t.rd r k i :=
    fun t q j lo len x hq => t.rd_wr_ne _ _ _ _ _ _ _ fun e => h ⟨e.2.1.symm, e.1 ▸ hq⟩
  simp only [State.sync, List.foldl_cons, List.foldl_nil]
  rw [hs _ _ _ _ _ _ (.inr rfl), hs _ _ _ _ _ _ (.inr rfl), hs _ _ _ _ _ _ (.inr rfl), hs _ _ _ _ _ _ (.inr rfl),
    hs _ _ _ _ _ _ (.inl rfl), hs _ _ _ _ _ _ (.inl rfl)]

/-! ### Memory -/

/-- Masked bytes change memory alone, and only at their addresses. -/
theorem State.putBytes_spec (ws : List MWrite) :
    (∃ mem, ws.foldl State.putByte s = { s with mem := mem }) ∧
      ∀ a, (∀ w ∈ ws, w.addr ≠ a) → (ws.foldl State.putByte s).byte a = s.byte a := by
  induction ws generalizing s with
  | nil => exact ⟨⟨s.mem, rfl⟩, fun _ _ => rfl⟩
  | cons w t ih =>
    obtain ⟨⟨mem, h⟩, hb⟩ := ih (s.putByte w)
    refine ⟨⟨mem, h⟩, fun a ha => (hb a fun x hx => ha x (List.mem_cons_of_mem _ hx)).trans ?_⟩
    simp [State.putByte, ha w List.mem_cons_self]

/-- The write of a check unit changes memory and check state alone, and bytes only at its addresses. -/
theorem State.writeUnit_spec (g : Nat) (ws : List MWrite) :
    (∃ mem bad, (s.writeUnit g ws).1 = { s with mem := mem, bad := bad }) ∧
      ∀ a, (∀ w ∈ ws, w.addr ≠ a) → (s.writeUnit g ws).1.byte a = s.byte a := by
  obtain ⟨⟨mem, h⟩, hb⟩ := s.putBytes_spec ws
  have hg : ∀ (t : State) b a, (t.setBad g b).byte a = t.byte a := fun _ _ _ => rfl
  unfold State.writeUnit
  dsimp only
  split
  · exact ⟨⟨_, _, rfl⟩, fun _ _ => rfl⟩
  · split
    · exact ⟨⟨mem, Sparse.set 0 s.bad g 0, by rw [h]; rfl⟩, fun a ha => (hg _ _ a).trans (hb a ha)⟩
    · split
      · exact ⟨⟨_, _, rfl⟩, fun _ _ => rfl⟩
      · exact ⟨⟨mem, s.bad, h⟩, hb⟩

/-- The elements of runs are the elements of the list. -/
theorem mem_groupRuns {α : Type} (key : α → Nat) (l : List α) (x : α) :
    (∃ g ∈ groupRuns key l, x ∈ g.2) ↔ x ∈ l := by
  induction l with
  | nil => simp [groupRuns]
  | cons y t ih =>
    rw [groupRuns]
    cases hr : groupRuns key t with
    | nil => simp only [hr] at ih ⊢; simp_all
    | cons p r =>
      obtain ⟨k, l'⟩ := p
      simp only [hr, List.mem_cons, exists_eq_or_imp] at ih ⊢
      split <;> simp only [List.mem_cons, exists_eq_or_imp, ← ih, or_assoc]
      simp

/-- The writes of an access change memory and check state alone, and bytes only at the addresses written. -/
theorem State.writeAll_spec (ws : List MWrite) :
    (∃ mem bad, (s.writeAll ws).1 = { s with mem := mem, bad := bad }) ∧
      ∀ a, (∀ w ∈ ws, w.addr ≠ a) → (s.writeAll ws).1.byte a = s.byte a := by
  unfold State.writeAll
  suffices H : ∀ (l : List (Nat × List MWrite)) (r : State × List (Nat × Nat)),
      (∃ mem bad, (l.foldl (fun r g =>
          let (s', st) := r.1.writeUnit g.1 g.2
          (s', if st = 0 then r.2 else r.2 ++ [(g.1, st)])) r).1 = { r.1 with mem := mem, bad := bad }) ∧
        ∀ a, (∀ g ∈ l, ∀ w ∈ g.2, w.addr ≠ a) → (l.foldl (fun r g =>
          let (s', st) := r.1.writeUnit g.1 g.2
          (s', if st = 0 then r.2 else r.2 ++ [(g.1, st)])) r).1.byte a = r.1.byte a by
    obtain ⟨h1, h2⟩ := H (groupRuns (fun w => granule w.addr) ws) (s, [])
    exact ⟨h1, fun a ha => h2 a fun g hg w hw => ha w ((mem_groupRuns _ ws w).1 ⟨g, hg, hw⟩)⟩
  intro l
  induction l with
  | nil => exact fun r => ⟨⟨_, _, rfl⟩, fun _ _ => rfl⟩
  | cons g t ih =>
    intro r
    obtain ⟨⟨m, b, h⟩, hb⟩ := State.writeUnit_spec r.1 g.1 g.2
    obtain ⟨⟨m', b', h'⟩, hb'⟩ := ih ((r.1.writeUnit g.1 g.2).1,
      if (r.1.writeUnit g.1 g.2).2 = 0 then r.2 else r.2 ++ [(g.1, (r.1.writeUnit g.1 g.2).2)])
    refine ⟨⟨m', b', ?_⟩, fun a ha => (hb' a fun q hq => ha q (List.mem_cons_of_mem _ hq)).trans (hb a (ha g List.mem_cons_self))⟩
    simp only [List.foldl_cons]
    refine h'.trans ?_
    simp only [h]

/-! ### Access, requests -/

/-- An access acts at once, or leaves a state that does not depend on what it would do. -/
theorem State.accessing_cases (reads writes : List Nat) (act : State → State) :
    (s.heldBack reads writes = none ∧ s.accessing reads writes act = act s) ∨
      ∃ t, s.heldBack reads writes = some t ∧ s.accessing reads writes act = t := by
  unfold State.accessing
  cases h : s.heldBack reads writes with
  | none => exact .inl ⟨rfl, rfl⟩
  | some t => exact .inr ⟨t, rfl, rfl⟩

/-- The access of a command acts at once, is discarded with the memories closed, or is kept; what it would do shows in the first
case alone. -/
theorem State.holding_cases (c : Instr) (reads writes : List Nat) (act : State → State) :
    (s.heldBack reads writes = none ∧ s.holding c reads writes act = act s) ∨
      ∃ t, s.heldBack reads writes = some t ∧
        s.holding c reads writes act = if s.chip.closed then t else { t with held := t.held ++ [c] } := by
  unfold State.holding
  cases h : s.heldBack reads writes with
  | none => exact .inl ⟨rfl, rfl⟩
  | some t => exact .inr ⟨t, rfl, rfl⟩

/-- A register action happens if the agent's access arrives and may write, and is a refusal if it arrives and may not. -/
theorem State.gated_cases (a : Agent) (r : Reg) (n i : Nat) (act : State → State) :
    (s.arrives a = false ∧ s.gated a r n i act = s) ∨
      (s.arrives a = true ∧ s.reachCause a true r = none ∧ s.gated a r n i act = act s) ∨
        ∃ c, s.arrives a = true ∧ s.reachCause a true r = some c ∧ s.gated a r n i act = s.refuseAccess a (r.offset n i) c := by
  unfold State.gated
  cases ha : s.arrives a with
  | false => exact .inl ⟨rfl, rfl⟩
  | true =>
    cases h : s.reachCause a true r with
    | none => exact .inr (.inl ⟨rfl, rfl, rfl⟩)
    | some c => exact .inr (.inr ⟨c, rfl, rfl, rfl⟩)

/-- A refusal changes CSR_REFCNT and CSR_REFADDR alone. -/
theorem State.refuseAccess_spec (a : Agent) (off : Nat) (c : Cause) :
    (∃ regs, s.refuseAccess a off c = { s with regs := regs }) ∧
      ∀ r n i, r ≠ .csrRefcnt → r ≠ .csrRefaddr → (s.refuseAccess a off c).rd r n i = s.rd r n i := by
  have H : ∀ (w : W64),
      let t := s.count .csrRefcnt 0 0 0 32 1
      let u := if t.flag .csrRefaddr 0 0 63 then t else t.wr .csrRefaddr 0 0 w
      (∃ regs, u = { s with regs := regs }) ∧ ∀ r n i, r ≠ .csrRefcnt → r ≠ .csrRefaddr → u.rd r n i = s.rd r n i := by
    intro w
    dsimp only
    split
    · exact ⟨⟨_, rfl⟩, fun r n i h _ => by simp [Ne.symm h]⟩
    · exact ⟨⟨_, rfl⟩, fun r n i h h' => by simp [Ne.symm h, Ne.symm h']⟩
  unfold State.refuseAccess
  cases a
  case host => exact H _
  case shingle => exact H _
  all_goals exact ⟨⟨s.regs, rfl⟩, fun _ _ _ _ _ => rfl⟩

/-- A request of management acts, or is turned away. -/
theorem State.request_cases (code : Nat) (states : List Nat) (act : State → State) :
    (s.chip.anchor.isSome = true ∧ s.sec ∈ states ∧ s.request code states act = act s) ∨
      (¬(s.chip.anchor.isSome = true ∧ s.sec ∈ states) ∧ s.request code states act = s.refuseReq code) := by
  unfold State.request
  by_cases h : s.chip.anchor.isSome = true ∧ s.sec ∈ states
  · exact .inl ⟨h.1, h.2, by simp [h.1, h.2]⟩
  · refine .inr ⟨h, ?_⟩
    rw [if_neg]
    simpa using h

/-- A message of the host that the link brings whole acts; one that is lost leaves an AER error alone. -/
theorem State.received_cases (e : LinkError) (act : State → State) :
    (∃ cxl outbox, s.received e act = act { s with cxl := cxl, outbox := outbox }) ∨
      ∃ cxl outbox, s.received e act = { s with cxl := cxl, outbox := outbox } := by
  cases e with
  | clean => exact .inl ⟨s.cxl, s.outbox, rfl⟩
  | corrected =>
    unfold State.received
    dsimp only
    split
    · exact .inl ⟨_, _, rfl⟩
    · exact .inl ⟨s.cxl, s.outbox, rfl⟩
  | lost => exact .inr ⟨_, _, rfl⟩

/-- A request of the host that comes clean over the link acts, is kept, or leaves the state but for an error answer. -/
theorem State.memRequest_cases (c : Instr) (a : Nat) (act : State → State) :
    s.memRequest c .clean a act = act s ∨ s.memRequest c .clean a act = s ∨ s.memRequest c .clean a act = s.hold c ∨
      s.memRequest c .clean a act = (s.cxlRaise 7).emit (.cxl (.err a)) := by
  unfold State.memRequest
  split
  · exact .inr (.inl rfl)
  · simp only [State.received]
    split
    · exact .inr (.inr (.inl rfl))
    · split
      · exact .inr (.inr (.inr rfl))
      · split
        · exact .inr (.inr (.inl rfl))
        · exact .inl rfl

/-! ### Check codes -/

/-- The check code of ciphertext read from a wrong unit of its die differs from the one stored with it (R429): unit indices
below 2³² are told apart. -/
theorem unitCode_wrong_unit (ct : List Byte) (u v : Nat) (hu : unitIndex u < 2 ^ 32) (hv : unitIndex v < 2 ^ 32)
    (h : unitIndex u ≠ unitIndex v) : unitCode ct u ≠ unitCode ct v := by
  intro e
  apply h
  have := (BitVec.xor_right_inj _).1 e
  have := congrArg BitVec.toNat this
  rwa [BitVec.toNat_ofNat, BitVec.toNat_ofNat, Nat.mod_eq_of_lt hu, Nat.mod_eq_of_lt hv] at this

end Sys2Proof.Machine
end

