-- ==== Sys2Proof/Tests/Slice0.lean ====
section
/-! SUPPORT. Tests of the model on small states, expected values from the spec: ill-formed commands are refused by
Instr.wf, every statement's hypotheses are met by a state written here (theorems witness_…), and single steps give
what the spec's rules and tables give (theorems test_…). -/

open Sys2Proof Sys2Proof.Machine Sys2Proof.Claims

namespace Sys2Proof.Tests

set_option Elab.async false

/-! ### Ill-formed commands -/

/-- A lane that does not exist. -/
def badSite : LaneSite := ⟨0, 64, 0, true, true, true⟩

/-- Each check of WellFormed refuses a term that only it refuses. -/
theorem test_ill_formed : ∀ c ∈ ([.nop 256 0, .mma 0 3 0 {}, .dload 0 6 0 [] {} [(256, 1)], .dload 0 5 0 [] {} [], .macroOpComplete 0 12 0, .laneNop badSite,
    .mov ⟨0, 0, 4, true, true, true⟩ 0 0, .mov ⟨256, 0, 0, true, true, true⟩ 0 0, .ldi ⟨0, 0, 0, true, true, true⟩ 32 0#32,
    .dispatchRecord 32768, .msix 4096 0, .hostMemRead 0 3 .clean, .hostMemWrite 0 [] 0 .clean, .birsp 0 (some []), .ideKm 0 2,
    .imWrite .host 0 2 0 0#64, .imWrite .host 0 0 4096 0#64, .imWrite (.mesh 1024) 0 0 0 0#64, .stopSet (.dma 0 5) 0,
    .markWrite .host 0 64 0 0 0, .bankTransition 0 32, .codeword 20 [] [], .putData 0 0 [] [(256, 1)], .boreMessage 0 0 [] [(256, 1)], .dataFlit 0 [] true, .frameClose 0 8,
    .boreCredit 4 0 0, .boreCredit 0 2 0, .boreCredit 0 0 257, .updatePass 2, .hbmTempReading 8 0, .scrubComplete 10,
    .selfTestPhase [256] false, .installFingerprints 64 []] : List Instr), c.wf = false := by decide +kernel

/-- The same commands with every operand in range are well formed. -/
theorem test_well_formed : ∀ c ∈ ([.nop 255 0, .mma 0 2 0 {}, .dload 0 7 0 [] {} [(255, 1)], .macroOpComplete 0 11 0,
    .laneNop ⟨255, 63, 3, true, true, true⟩, .mov ⟨0, 0, 3, true, true, true⟩ 31 31, .dispatchRecord 32767, .msix 4095 0,
    .hostMemRead 0 2 .clean, .hostMemWrite 0 (List.replicate 64 0) 2 .clean, .birsp 0 none, .ideKm 0 1, .imWrite (.mesh 1023) 255 1 4095 0#64,
    .stopSet (.dma 255 7) 0, .markWrite .host 0 63 0 0 0, .bankTransition 0 31, .codeword 19 [] [], .putData 0 0 [] [(255, 1)], .boreMessage 0 0 [] [(255, 1)],
    .dataFlit 19 (List.replicate 64 0) true, .frameClose 0 7, .boreCredit 3 1 256, .updatePass 1, .hbmTempReading 7 0,
    .scrubComplete 9, .selfTestPhase [255] false, .installFingerprints 63 []] : List Instr), c.wf = true := by
  decide +kernel

/-! ### Helpers -/

/-- Register words set. -/
def setAll (l : List (Reg × Nat × Nat × W64)) (s : State) : State :=
  l.foldl (fun s e => s.wr e.1 e.2.1 e.2.2.1 e.2.2.2) s

/-- The 256 bits of a record (Table 6.1): opcode, class, wait mask of window 0, signal mark, operand kinds and slots. -/
def recBits (op ecls wmask : Nat) (mark : Option Nat) (ops : List (Nat × Nat)) : Nat :=
  op + ecls * 2 ^ 8 + wmask * 2 ^ 16 + (match mark with | some m => m * 2 ^ 32 + 2 ^ 38 | none => 0) +
    (ops.zipIdx.map fun e => e.1.1 * 2 ^ (56 + 2 * e.2) + e.1.2 * 2 ^ (96 + 40 * e.2)).sum

/-- Core 0 runs and stands at record 0 of half 0, with these bits. -/
def atRec (bits : Nat) (l : List (Reg × Nat × Nat × W64) := []) : State :=
  setAll (((List.range 4).map fun k => (Reg.coreIm0, 0, k, BitVec.ofNat 64 (bits / 2 ^ (64 * k)))) ++ l)
    { State.reset with cores := [(0, { running := true })] }

/-- What RecordReady asks, as a truth value. -/
def readyB (s : State) (n cc : Nat) : Bool :=
  s.issuing n && !Sparse.get false s.imBad (n * 2048 + (s.core n).half * 1024 + (s.core n).pc) &&
    decide ((s.core n).base + max (s.nextRec n).delay 1 ≤ cc) && (s.nextRec n).wellFormed &&
    s.satisfied n (s.nextRec n).waits

theorem ready_of {s : State} {n cc : Nat} (h : readyB s n cc = true) : RecordReady s n cc (s.nextRec n) := by
  simp only [readyB, Bool.and_eq_true, Bool.not_eq_true', decide_eq_true_eq] at h
  exact ⟨h.1.1.1.1, rfl, h.1.1.1.2, h.1.1.2, h.1.2, h.2⟩

/-- A control record that is ready, with operands inside the masks. -/
abbrev CtlReady (s : State) (op : Nat) (masks : List W64) : Prop :=
  readyB s 0 1 = true ∧ (s.nextRec 0).opcode = op ∧ (s.nextRec 0).ecls = 0 ∧ (s.core 0).pc < 1023 ∧
    ∀ k, k < 4 → opnd s 0 (s.nextRec 0) k &&& ~~~(masks.getD k 0#64) = 0#64

/-- The state a command answers. -/
def after (c : Instr) (s : State) : State := match exec c s with | .next t => t | _ => s

/-! ### The block as a whole -/

theorem witness_EmptyQueueCountsTheTick :
    State.reset.pending = [] ∧ (setAll [(.clkStat, 0, 0, 1#64)] State.reset).flag .clkStat 0 0 0 = true := by decide +kernel

/-- Of the 32 core cycles in 16 ticks a set point k leaves 32 − k (R483). -/
theorem test_pulses : ∀ k, k ≤ 16 → ((List.range 16).map (pulses k)).sum = 32 - k := by decide +kernel

/-- A tick passes on an empty queue once the PLL is locked (R492). -/
theorem test_tick : (match step (setAll [(.clkStat, 0, 0, 1#64)] State.reset) with
    | .next t => t.rd .clkTick 0 0 | _ => 0#64) = 1#64 := by decide +kernel

theorem witness_StepKeepsCanonicalForm :
    State.reset.canonical = true ∧ step { State.reset with pending := [.cxlLinkDown] } = .next (after .cxlLinkDown State.reset) :=
  ⟨by decide, rfl⟩

theorem witness_FusesOnlyGrow : ∃ t, step { State.reset with pending := [.svnCommit] } = .next t := ⟨_, rfl⟩

theorem witness_FlashAndOwner : let s : State := { State.reset with chip := { anchors := [[1#8]] } }
    ∃ t, exec (.ownerInstall [1#8]) s = .next t ∧ t.chip.owner ≠ s.chip.owner := ⟨_, rfl, by decide +kernel⟩

/-! ### Control records -/

/-- Every record of FlowRecordsComplete, its operands at the largest values of Table 6.6. -/
theorem witness_FlowRecordsComplete :
    CtlReady (atRec (recBits 0x00 0 0 none [])) 0x00 [] ∧ CtlReady (atRec (recBits 0x01 0 0 none [])) 0x01 [] ∧
      CtlReady (atRec (recBits 0x02 0 0 none [(1, 0x3FF)])) 0x02 [0x3FF#64] ∧
      CtlReady (atRec (recBits 0x03 0 0 none [(1, 0x3FF), (1, 0xF)])) 0x03 [0x3FF#64, 0xF#64] := by decide +kernel

theorem witness_RegisterRecordsComplete :
    CtlReady (atRec (recBits 0x05 0 0 none [(1, 0x3F), (1, 0xFF)])) 0x05 [0x3F#64, 0xFF#64] ∧
    CtlReady (atRec (recBits 0x06 0 1 (some 63) [(1, 0x3F), (1, 0xFFFF)]) [(.mark, 0, 0, 0x10001#64)]) 0x06 [0x3F#64, 0xFFFF#64] ∧
    CtlReady (atRec (recBits 0x08 0 0 none [(1, 0xF), (1, 0xFFFFFFFF)])) 0x08 [0xF#64, 0xFFFFFFFF#64] ∧
    CtlReady (atRec (recBits 0x09 0 0 none [(1, 0xF), (1, 0xFFFFFFFF)])) 0x09 [0xF#64, 0xFFFFFFFF#64] ∧
    CtlReady (atRec (recBits 0x0A 0 0 none [(1, 7), (3, 9)]) [(.coreParam, 0, 9, 0xFFFFFFFF0000070F#64)]) 0x0A
      [0x7#64, 0xFFFFFFFF0000070F#64] ∧
    CtlReady (atRec (recBits 0x0C 0 0 none [(1, 0xFF), (3, 255)])) 0x0C [0xFF#64, ~~~0#64] ∧
    CtlReady (atRec (recBits 0x0D 0 0 none [(1, 0xFF), (3, 255)])) 0x0D [0xFF#64, ~~~0#64] ∧
    CtlReady (atRec (recBits 0x0E 0 0 none [(1, 0xFF)])) 0x0E [0xFF#64] ∧
    CtlReady (atRec (recBits 0x0F 0 0 none [(1, 0xFF), (3, 1), (1, 0xF), (3, 2)])) 0x0F [0xFF#64, ~~~0#64, 0xF#64, ~~~0#64] ∧
    CtlReady (atRec (recBits 0x10 0 0 none [(1, 0x7FF), (3, 1)])) 0x10 [0x7FF#64, ~~~0#64] := by decide +kernel

/-- ScratchpadRecordsComplete: DSLD of the last slot from the last 64 B, PLD, PST, and PST at port 1. -/
theorem witness_ScratchpadRecordsComplete :
    (let s := atRec (recBits 0x11 0 0 none [(1, 0xFF), (1, 0x3FFFC0)])
     readyB s 0 1 = true ∧ (s.nextRec 0).opcode = 0x11 ∧ (s.core 0).hzw = false ∧ WordsGood s 0 0x3FFFC0 8) ∧
    (let s := atRec (recBits 0x12 0 0 none [(1, 0xFF), (1, 0x3FFFF8)])
     readyB s 0 1 = true ∧ (s.nextRec 0).opcode = 0x12 ∧ WordsGood s 0 0x3FFFF8 1) ∧
    (let s := atRec (recBits 0x13 0 0 none [(1, 0), (1, 8)]) [(.spdPortmap, 0, 0, 0x400#64)]
     readyB s 0 1 = true ∧ (s.nextRec 0).opcode = 0x13 ∧ WordsGood s 0 8 1 ∧ s.portOf 0 10 (bankOf 8) = 1) := by decide +kernel

/-- BR to record 1,023: two cc follow (R196). -/
theorem test_br : let t := after (.br 0 1) (atRec (recBits 0x02 0 0 none [(1, 1023)]))
    (t.core 0).pc = 1023 ∧ (t.core 0).base = 3 := by decide +kernel

/-- BRC not taken: comparator 0 at reset asks whether counter 0 equals 0, and TAKEN asks for false (Table 6.6). -/
theorem test_brc : ((after (.brc 0 1) (atRec (recBits 0x03 0 0 none [(1, 5), (1, 0)]))).core 0).pc = 1 ∧
    ((after (.brc 0 1) (atRec (recBits 0x03 0 0 none [(1, 5), (1, 8)]))).core 0).pc = 5 := by decide +kernel

/-- MADD of −1 to a mark that the record also waits on: 3 − 1 − 1 (R161). -/
theorem test_madd : (after (.madd 0 1) (atRec (recBits 0x06 0 1 none [(1, 0), (1, 0xFFFF)]) [(.mark, 0, 0, 0x10003#64)])).markCount 0 0 = 1 := by
  decide +kernel

/-- CADD wraps at 2^32. -/
theorem test_cadd : (after (.cadd 0 1) (atRec (recBits 0x09 0 0 none [(1, 2), (1, 3)]) [(.coreCtr, 0, 2, 0xFFFFFFFE#64)])).rd .coreCtr 0 2 = 1#64 := by
  decide +kernel

/-- PADD wraps at 2^64; PMAD adds a counter times a value. -/
theorem test_padd_pmad :
    (after (.padd 0 1) (atRec (recBits 0x0D 0 0 none [(1, 4), (1, 2)]) [(.coreParam, 0, 4, ~~~0#64)])).rd .coreParam 0 4 = 1#64 ∧
    (after (.pmad 0 1) (atRec (recBits 0x0F 0 0 none [(1, 4), (1, 10), (1, 1), (1, 7)]) [(.coreCtr, 0, 1, 3#64)])).rd .coreParam 0 4 = 31#64 := by
  decide +kernel

/-- DPATCH: word 5 of descriptor slot 2. -/
theorem test_dpatch : (after (.dpatch 0 1) (atRec (recBits 0x10 0 0 none [(1, 0x502), (1, 9)]))).rd .coreDesc 0 21 = 9#64 := by
  decide +kernel

/-- PST then PLD by the same core gives the value back. -/
theorem test_pst : (after (.pst 0 1 0 false) (atRec (recBits 0x13 0 0 none [(1, 7), (1, 16)]) [(.coreParam, 0, 7, 0x0102030405060708#64)])).byte
    (spadAddr 0 16) = 8#8 := by decide +kernel

/-- An END record ends the replay (R142). -/
theorem test_end : ((after (.endRec 0 1) (atRec (recBits 0x01 0 0 none []))).core 0).running = false := by decide +kernel

/-! ### Issue, completion, halts and the fault log -/

/-- MMA A, B into tile 0 in ACCUMULATE mode, slots 1 and 2, issued without a wait. -/
def mmaRec : Nat := recBits 0x20 1 0 (some 5) [(2, 1), (2, 2), (1, 4)]

theorem witness_DataRecordIssues : readyB (atRec mmaRec) 0 1 = true ∧ ((atRec mmaRec).nextRec 0).ecls ≠ 0 ∧
    ((atRec mmaRec).core 0).pc < 1023 ∧ ((atRec mmaRec).core 0).flights.length < 16 := by decide +kernel

/-- An operation in flight on an engine, with operands. -/
def flight (opcode ecls : Nat) (slots : List OpVal) (phase : Phase := .queued) (status : Nat := 0) : Flight :=
  ⟨opcode, ecls, 0x12345600, some 63, slots, 0, 0, phase, status, 0, 0xFF, 0, false, {}, false⟩

/-- Core 0 has this operation in flight, and these register words are set. -/
def queued (f : Flight) (l : List (Reg × Nat × Nat × W64) := []) : State :=
  setAll l { State.reset with cores := [(0, { flights := [f] })] }

theorem witness_CompletionAndWatchdogs :
    DoneOn (queued (flight 0x20 1 [] .done)) 0 1 (flight 0x20 1 [] .done) ∧
    DoneOn (queued (flight 0x20 1 [] .done 15)) 0 1 (flight 0x20 1 [] .done 15) ∧
    (let s : State := setAll [(.coreWaitwd, 0, 0, 1#64)] { State.reset with cores := [(0, { running := true, waiting := true })] }
     s.issuing 0 = true ∧ (s.core 0).waiting = true ∧ (s.core 0).waitReported = false ∧ s.fd .coreWaitwd 0 0 0 32 * 1024 < 1025) := by
  decide +kernel

/-- A record with opcode 0x04, which no class lists. -/
theorem witness_IllegalRecordsHalt : (atRec 0x04).issuing 0 = true ∧ ((atRec 0x04).nextRec 0).wellFormed = false ∧
    ((atRec 0x04).core 0).base + max ((atRec 0x04).nextRec 0).delay 1 ≤ 1 := by decide +kernel

theorem witness_FaultRecordTakesOneSlot :
    (State.reset.flag .fltHead 0 0 9 = false ∧ State.reset.fd .fltHead 0 0 0 9 < 448) ∧
      (setAll [(.fltHead, 0, 0, 0x3C0#64)] State.reset).flag .fltHead 0 0 9 = true := by decide +kernel

/-- The completion of an operation with status ADDR: mark 63 counts, CORE_HALT holds tag, opcode, class and status (R175). -/
theorem test_halt : let t := after (.macroOpComplete 0 1 0) (queued (flight 0x20 1 [] .done 1))
    t.markCount 0 63 = 1 ∧ t.rd .coreHalt 0 0 = 0x1234560020110000#64 := by decide +kernel

/-- The 448th record fills the first section (R570). -/
theorem test_log_full : let t := (setAll [(.fltHead, 0, 0, 447#64)] State.reset).fault ⟨1, 1, 0, 0, 0, 0, 0, 0⟩
    t.flag .fltHead 0 0 9 = true := by decide +kernel

/-- A mark at 0xFFFF holds and sets MOVF (R161). -/
theorem test_mark_holds : let t := after (.coreMsig .shingle 0 3) (setAll [(.mark, 0, 3, 0x1FFFF#64)] State.reset)
    t.markCount 0 3 = 0xFFFF ∧ t.flag .coreStat 0 0 5 = true := by decide +kernel

/-! ### Wings and accumulators -/

/-- A descriptor (Table 6.3): slot, base, space, E0, E1, S1 in bytes, numeric word. -/
def desc (slot base space e0 e1 s1 num : Nat) : Desc :=
  let v := base + space * 2 ^ 48 + e0 * 2 ^ 64 + e1 * 2 ^ 88 + 2 ^ 112 + 2 ^ 136 + s1 * 2 ^ 160 + num * 2 ^ 384
  ⟨slot, (List.range 8).map fun k => BitVec.ofNat 64 (v / 2 ^ (64 * k)), 0#64⟩

/-- BF16 operands of one row of 32 steps, in the first lines of bank 0 and bank 1. -/
def opA : Desc := desc 1 0 0 1 32 2 1
def opB : Desc := desc 2 0x20000 0 1 32 2 1

/-- MMA of those into tile 0; the first step's elements are 2 and 3 (BF16), the tile's element is 1. -/
def mmaState : State :=
  { queued (flight 0x20 1 [.d [opA], .d [opB], .v 4#64, .none]) with
    mem := [(spadAddr 0 0 + 1, 0x40#8), (spadAddr 0 0x20000, 0x40#8), (spadAddr 0 0x20000 + 1, 0x40#8)]
    acc := [(0, 0x3F800000#32)] }

theorem witness_MmaComputesTheProduct :
    StartsNext mmaState 0 1 0x20 (flight 0x20 1 [.d [opA], .d [opB], .v 4#64, .none]) ∧
      WingOperandGood mmaState 0 opA.t ∧ WingOperandGood mmaState 0 opB.t ∧ opA.t.ext.2.1 = opB.t.ext.2.1 ∧
      opA.t.fmt = .bf16 ∧ opB.t.fmt = .bf16 ∧ ∀ i, i < 1 → ∀ j, j < 1 → mmaState.accFails 0 0 i j = false := by decide +kernel

/-- 1 + 2 × 3 = 7. -/
theorem test_mma : (after (.mma 0 1 0 {}) mmaState).accGet 0 0 0 0 = 0x40E00000#32 := by decide +kernel

/-- The tile's element as the operation has read it ahead counts, 2 + 2 × 3 = 8, not what stands there now (R109). -/
theorem test_mma_seen : (after (.mma 0 1 0 {}) { mmaState with cores := [(0, { flights := [
    { flight 0x20 1 [.d [opA], .d [opB], .v 4#64, .none] with begun := true, seen := { acc := [(0, 0x40000000#32)] } }] })] }).accGet 0 0 0 0 =
    0x41000000#32 := by decide +kernel

/-- MNS on tile 0 into tile 1, 32 × 32, one iteration. -/
theorem witness_MnsWritesItsResult :
    let f := flight 0x21 1 [.v 0x104#64, .v 0#64]
    StartsNext (queued f) 0 1 0x21 f ∧ fld (0x104#64) 14 50 = 0 ∧ bit (0x104#64) 7 = false ∧ fld (0x104#64) 8 6 ≠ 0 ∧
      fld (0x104#64) 0 2 ≠ fld (0x104#64) 2 2 := by decide +kernel

/-- BF16 and FP32 squares of 64 × 64 in the scratchpad. -/
def sqBf : Desc := desc 3 0 0 64 64 128 1
def sqFp : Desc := desc 4 0x20000 0 64 64 256 0

theorem witness_AccumulatorTransfersComplete :
    (let f := flight 0x30 3 [.d [sqBf], .v 7#64]
     StartsNext (queued f) 0 3 0x30 f ∧ SquareGood sqBf.t false ∧ (vAt f.slots 1).toNat < 8) ∧
    (let f := flight 0x31 3 [.d [sqFp], .v 15#64]
     StartsNext (queued f) 0 3 0x31 f ∧ SquareGood sqFp.t true ∧ (vAt f.slots 1).toNat < 16 ∧
       ∀ r, r < 64 → ∀ k, k < rowLines sqFp.t → (queued f).bankState 0 (bankOf (spadOff (squareLine 0 sqFp.t r k))) = 0) ∧
    (let f := flight 0x32 3 [.v 7#64]
     StartsNext (queued f) 0 3 0x32 f ∧ (vAt f.slots 0).toNat < 8) := by decide +kernel

/-! ### Lanes -/

/-- Lane 63 of core 255, always; and the same in a last beat only. -/
def site : LaneSite := ⟨255, 63, 0, false, false, true⟩

/-- A state in which registers 1, 2 and 3 of that lane hold values. -/
def laneState (a b c : W32) (f : Bool := false) : State :=
  ((((State.reset.setLane 255 63 1 a).setLane 255 63 2 b).setLane 255 63 3 c).setLaneFlag 255 63 f)

/-- Register 31 of that lane after a command. -/
def lane31 (c : Instr) (a b : W32) (x : W32 := 0#32) (f : Bool := false) : W32 := (after c (laneState a b x f)).lane 255 63 31

/-- Every predicate can hold: always, F, first beat, last beat. -/
theorem witness_Lanes : LaneTakes State.reset site ∧ LaneTakes (laneState 0 0 0 true) { site with pred := 1 } ∧
    LaneTakes State.reset { site with pred := 2, first := true } ∧ LaneTakes State.reset { site with pred := 3, last := true } := by
  decide +kernel

theorem test_lane_int : lane31 (.mov site 31 1) 5#32 0#32 = 5#32 ∧ lane31 (.ldi site 31 7#32) 0#32 0#32 = 7#32 ∧
    lane31 (.fsel site 31 1 2) 1#32 2#32 0#32 true = 1#32 ∧ lane31 (.fsel site 31 1 2) 1#32 2#32 = 2#32 ∧
    lane31 (.iadd site 31 1 2) 0xFFFFFFFF#32 2#32 = 1#32 ∧ lane31 (.isub site 31 1 2) 1#32 2#32 = 0xFFFFFFFF#32 ∧
    lane31 (.imul site 31 1 2) 0x10000#32 0x10001#32 = 0x10000#32 ∧ lane31 (.andL site 31 1 2) 6#32 3#32 = 2#32 ∧
    lane31 (.orL site 31 1 2) 6#32 3#32 = 7#32 ∧ lane31 (.xorL site 31 1 2) 6#32 3#32 = 5#32 := by decide +kernel

/-- Shift amounts are taken modulo 32 (Table 7.3). -/
theorem test_lane_shift : lane31 (.shl site 31 1 2) 1#32 33#32 = 2#32 ∧ lane31 (.shr site 31 1 2) 0x80000000#32 31#32 = 1#32 ∧
    lane31 (.sar site 31 1 2) 0x80000000#32 31#32 = 0xFFFFFFFF#32 ∧ lane31 (.imin site 31 1 2) 0xFFFFFFFF#32 1#32 = 0xFFFFFFFF#32 ∧
    lane31 (.imax site 31 1 2) 0xFFFFFFFF#32 1#32 = 1#32 := by decide +kernel

theorem test_lane_sign : lane31 (.fabs site 31 1) 0xBF800000#32 0#32 = 0x3F800000#32 ∧
    lane31 (.fneg site 31 1) 0x3F800000#32 0#32 = 0xBF800000#32 := by decide +kernel

/-- 1 + 1, 1 − 1, 3 × 0.5, 2 × 3 + 1, and the greater and the less of +0 and −0. -/
theorem test_lane_float : lane31 (.fadd site 31 1 2) 0x3F800000#32 0x3F800000#32 = 0x40000000#32 ∧
    lane31 (.fsub site 31 1 2) 0x3F800000#32 0x3F800000#32 = 0#32 ∧ lane31 (.fmul site 31 1 2) 0x40400000#32 0x3F000000#32 = 0x3FC00000#32 ∧
    lane31 (.fma site 31 1 2 3) 0x40000000#32 0x40400000#32 0x3F800000#32 = 0x40E00000#32 := by decide +kernel

/-- 7 as FP32 and back, 1 ÷ 4, 1 ÷ 0 (infinity), √4, 1 ÷ √4. -/
theorem test_lane_convert : lane31 (.cvtif site 31 1) 7#32 0#32 = 0x40E00000#32 ∧ lane31 (.cvtfi site 31 1) 0x40E00000#32 0#32 = 7#32 ∧
    lane31 (.rcp site 31 1) 0x40800000#32 0#32 = 0x3E800000#32 ∧ lane31 (.div site 31 1 2) 0x3F800000#32 0#32 = 0x7F800000#32 ∧
    lane31 (.sqrt site 31 1) 0x40800000#32 0#32 = 0x40000000#32 ∧ lane31 (.rsqrt site 31 1) 0x40800000#32 0#32 = 0x3F000000#32 := by
  decide +kernel

/-- BF16 rounding to nearest even: 1 + 2⁻⁸ is a tie and becomes 1. -/
theorem test_lane_rbf : lane31 (.rbf site 31 1) 0x3F808000#32 0#32 = 0x3F800000#32 := by decide +kernel

/-- 2³ = 8, log₂ 8 = 3, e⁰ = 1, ln 1 = 0, tanh 0 = 0, sigmoid 0 = ½, erf 0 = 0. -/
theorem test_lane_transcendental : lane31 (.exp2 site 31 1) 0x40400000#32 0#32 = 0x41000000#32 ∧
    lane31 (.log2 site 31 1) 0x41000000#32 0#32 = 0x40400000#32 ∧ lane31 (.exp site 31 1) 0#32 0#32 = 0x3F800000#32 ∧
    lane31 (.ln site 31 1) 0x3F800000#32 0#32 = 0#32 ∧ lane31 (.tanh site 31 1) 0#32 0#32 = 0#32 ∧
    lane31 (.sigm site 31 1) 0#32 0#32 = 0x3F000000#32 ∧ lane31 (.erf site 31 1) 0#32 0#32 = 0#32 := by decide +kernel

/-- A division by zero by an active lane sets SKP_STAT.DZ. -/
theorem test_lane_dz : (after (.div site 31 1 2) (laneState 0x3F800000#32 0#32 0#32)).flag .skpStat 255 0 3 = true := by decide +kernel

/-- FCMP UN with a NaN; ICMP signed and unsigned (Table 7.5). -/
theorem test_lane_compare : (after (.fcmp site 6 1 2) (laneState 0x7FC00000#32 0#32 0#32)).laneFlag 255 63 = true ∧
    (after (.icmp site 2 1 2) (laneState 0xFFFFFFFF#32 0#32 0#32)).laneFlag 255 63 = true ∧
    (after (.icmp site 7 1 2) (laneState 0xFFFFFFFF#32 0#32 0#32 true)).laneFlag 255 63 = false := by decide +kernel

/-- A predicate on F that is clear leaves the register. -/
theorem test_lane_predicate : lane31 (.mov { site with pred := 1 } 31 1) 5#32 0#32 = 0#32 := by decide +kernel

/-! ### Skipper, reductions, DMA -/

/-- FP32 streams of 64 elements: two in the scratchpad, one in HBM. -/
def rowIn : Desc := desc 5 0 0 64 1 256 0
def rowOut : Desc := desc 6 0x20000 0 64 1 256 0
def rowHbm : Desc := desc 7 0x1000 1 64 1 256 0
/-- A mask of 64 unsigned INT8 elements. -/
def rowMask : Desc := desc 8 0x40000 0 64 1 64 0x10

/-- SKRUN with one output, SKWALK with none, SKCMP and SKEXP, on one beat. -/
def skFlight (op : Nat) : Flight :=
  flight op 4 [.d [rowIn], .d [rowOut], if op < 0x42 then .v 0x400#64 else .d [rowMask], .v 64#64]

theorem witness_SkipperOperationsStart : ∀ op ∈ [0x40, 0x41, 0x42, 0x43],
    StartsNext (queued (skFlight op)) 0 4 op (skFlight op) ∧ ((queued (skFlight op)).core 0).skp = none ∧
      (skipCheck (skFlight op)).1 = 0 ∧
        RecordsGood ((queued (skFlight op)).seeing (skFlight op).seen) 0 (skipOuts (skFlight op)) := by decide +kernel

/-- An operation of two beats on a kernel that moves IN0 to OUT0, as it stands at its first beat. -/
def skOp (op beats : Nat) (outs : List OutStream) : SkipOp :=
  { op := op, len := 64 * beats, arg := 0#32, ins := [desc 5 0 0 128 1 512 0], inRaw := 0, outs := outs,
    mask := if op < 0x42 then none else some (desc 8 0x40000 0 128 1 128 0x10), kernel := [0x07980000#32], kernBad := none,
    ck := 1, beat := 0, beats := beats, perRow := beats, count := 0, queue := [], status := 0, addr := 0 }

/-- Core 0 is at that beat. -/
def skState (o : SkipOp) : State :=
  { State.reset with cores := [(0, { flights := [flight o.op 4 [] .started], skp := some o })] }

theorem witness_SkipperBeatRunsTheKernel :
    (∀ e ∈ [(0x40, 2), (0x42, 2), (0x40, 1)],
      BeatClear (skState (skOp e.1 e.2 [])) 0 (skOp e.1 e.2 []) (flight e.1 4 [] .started)) ∧ (skOp 0x40 1 []).queue = [] := by
  decide +kernel

/-- OUT0 of lane 1 holds element 1 once the kernel has run on it (Table 7.1). -/
theorem test_beat : let s : State := { skState (skOp 0x40 2 []) with mem := [(spadAddr 0 4, 9#8)] }
    (runKernel true false (skOp 0x40 2 []).kernel ((s.beatLanes 0 (skOp 0x40 2 []) (skOp 0x40 2 []).at
      (s.inViews 0 (skOp 0x40 2 []) (skOp 0x40 2 []).at {})).getD 1 (⟨[], false, false, false, {}⟩, {})).1).reg 28 = 9#32 := by decide +kernel

/-- A kernel image (R231) of one MOV of IN0 to OUT0; its header's word count is `len`. -/
def kernState (len : Byte) : State :=
  { queued (flight 0x44 4 [.d [desc 9 0 0 3 1 12 0], .v 63#64]) with
    mem := [(0x20000000000, len), (0x2000000000A, 0x98#8), (0x2000000000B, 0x07#8)] }

/-- The image's words as they stand in the scratchpad. -/
theorem test_image (len : Byte) (h : len = 1#8 ∨ len = 2#8) :
    ((List.range 3).map fun j => BitVec.ofNat 32 ((kernState len).elem 0 (desc 9 0 0 3 1 12 0).t j)) =
      [len.setWidth 32, 0#32, 0x07980000#32] := by
  rcases h with rfl | rfl <;> decide +kernel

/-- A good image, and one whose header names two words. -/
theorem witness_KernelLoads :
    (∀ h ∈ [1#8, 2#8], let f := flight 0x44 4 [.d [desc 9 0 0 3 1 12 0], .v 63#64]
      StartsNext (kernState h) 0 4 0x44 f ∧ ((kernState h).core 0).skp = none ∧ (kldCheck f).1 = 0 ∧
        ∀ p, p < 12 → (kernState h).cellStatus ((desc 9 0 0 3 1 12 0).t.addr 0 p) = 0) ∧
      imageOk [1#32, 0#32, 0x07980000#32] = true ∧ imageOk [2#32, 0#32, 0x07980000#32] = false := by decide +kernel

/-- A reduction of one row of 64 FP32 elements into k elements. -/
def redFlight (op k : Nat) : Flight := flight op 5 [.d [rowIn], .d [desc 6 0x20000 0 k 1 (4 * k) 0]]

theorem witness_Reductions : ∀ e ∈ [(0x50, 1), (0x51, 1), (0x52, 2)],
    StartsNext (queued (redFlight e.1 e.2)) 0 5 e.1 (redFlight e.1 e.2) ∧ (redCheck (redFlight e.1 e.2)).1 = 0 ∧
      rowIn.t.space ≠ 3 ∧
      ∀ p, p < rowIn.t.streamSize → (queued (redFlight e.1 e.2)).cellStatus (rowIn.t.addr 0 p) = 0 := by decide +kernel

/-- A NaN is above every number, and of equal elements the first counts (R254). -/
theorem test_ramax : (redRow 0x52 [0x40000000#32, 0x7FC00000#32, 0x7FC00000#32]).1 = [0x7FC00000#32, 1#32] := by decide +kernel

/-- The sum of 1, 2 and 3. -/
theorem test_rsum : (redRow 0x50 [0x3F800000#32, 0x40000000#32, 0x40400000#32]).1 = [0x40C00000#32] := by decide +kernel

/-- DMA of a row from HBM into the scratchpad, and back. -/
def dmaFlight (op : Nat) : Flight :=
  if op = 0x61 then flight op 7 [.d [rowIn], .d [rowHbm]]
  else if op = 0x63 then flight op 7 [.d [rowIn], .d [rowOut]]
  else if op = 0x62 then flight op 7 [.d [desc 7 0x1000 1 32 32 32 0x10], .d [desc 6 0x20000 0 32 32 32 0x10]]
  else flight op 7 [.d [rowHbm], .d [rowOut]]

/-- The hypotheses on an operation of engine 7. -/
abbrev DmaMet (op : Nat) : Prop :=
  let a := (dAt (dmaFlight op).slots 0).t
  let b := (dAt (dmaFlight op).slots 1).t
  let s := queued (dmaFlight op)
  DmaReady s 0 7 op (dmaFlight op) ∧ WaysGood s (s.seeing (dmaFlight op).seen) (farAddrs 0 a) (farAddrs 0 b)

theorem witness_DLOAD : DmaMet 0x60 := by decide +kernel
theorem witness_DSTORE : DmaMet 0x61 := by decide +kernel
theorem witness_DCOPY : DmaMet 0x63 := by decide +kernel
theorem witness_DLOADT : DmaMet 0x62 := by decide +kernel

/-- The tiles pass, an element is a byte, and the destination's bytes are 1,056 different ones. -/
theorem witness_DLOADT_tiles : let d := (dAt (dmaFlight 0x62).slots 1).t
    (queued (dmaFlight 0x62)).tilesPass 0 (dAt (dmaFlight 0x62).slots 0).t = true ∧ d.w % 8 = 0 ∧
      d.positions.map (d.addr 0) = (List.range 1056).map (0x20000020000 + ·) := by decide +kernel

theorem witness_DLOADT_nodup : ((List.range 1056).map (0x20000020000 + ·)).Nodup :=
  List.Nodup.map (fun _ _ h => Nat.add_left_cancel h) List.nodup_range

/-- DLOAD moves a byte. -/
theorem test_dload : (after (.dload 0 7 0 [] {} []) { queued (dmaFlight 0x60) with mem := [(0x1003, 5#8)] }).byte (spadAddr 0 0x20003) = 5#8 := by
  decide +kernel

/-- DLOADT: column 1 of row 2 of the source stands at column 2 of row 1. -/
theorem test_dloadt : transposed (desc 7 0x1000 1 32 32 32 0x10).t (desc 6 0x20000 0 32 32 32 0x10).t (32 * 1 + 2) = 32 * 2 + 1 := by
  decide +kernel

/-! ### Fabric and packets -/

/-- A chip of domain 1 on rings of four. -/
def net : List (Reg × Nat × Nat × W64) := [(.rteDomain, 0, 0, 1#64), (.rteRing, 0, 0, 0x104104#64)]

/-- One hop on axis 0 (Table 10.8). -/
def hop1 : W64 := 4#64

theorem witness_FabricTransfersStart :
    CtlGood 0xFF7F#64 ∧
    (let f := flight 0x70 8 [.d [rowIn], .v 0x1000#64, .v hop1, .v 0xFF7F#64]
     StartsNext (queued f net) 0 8 0x70 f ∧ rowIn.t.check ⟨[0], false⟩ = 0 ∧ (queued f net).routeFor hop1 0 0x1000 = some hop1 ∧
       ∀ p, p < rowIn.t.streamSize → (queued f net).cellStatus (rowIn.t.addr 0 p) = 0) ∧
    (let f := flight 0x71 8 [.d [rowIn], .v 0x1000#64, .v hop1, .v 0#64]
     StartsNext (queued f net) 0 8 0x71 f ∧ rowIn.t.check ⟨[0], true⟩ = 0 ∧ (queued f net).routeFor hop1 1 0x1000 = some hop1) ∧
    (let f := flight 0x74 8 [.none, .none, .v hop1, .v 0xFF7F#64]
     StartsNext (queued f net) 0 8 0x74 f ∧ (queued f net).routeFor hop1 4 0 = some hop1) := by decide +kernel

/-- A row of 64 FP32 elements on chip 1 of the board, at HBM address 0x1000 there. -/
def rowBoard : Desc := desc 9 (2 ^ 44 + 0x1000) 2 64 1 256 0

/-- A chip that knows the way to chip 1 of its board. -/
abbrev boardState (f : Flight) : State := queued f (net ++ [(.rteBoard, 0, 1, hop1)])

theorem witness_BLD : let f := flight 0x72 8 [.d [rowIn], .d [rowBoard]]
    StartsNext (boardState f) 0 8 0x72 f ∧ boardCheck rowBoard.t rowIn.t rowBoard.t false = (0, 0xFF) ∧
      ∀ r ∈ boardRuns ((copyPairs rowBoard.t rowIn.t).map fun p => (rowBoard.t.offset p.1, rowIn.t.addr 0 p.2)),
        ((boardState f).boardRoute ((r.headD (0, 0)).1 / 2 ^ 44) 5 ((r.headD (0, 0)).1 % 2 ^ 44)).isSome = true := by decide +kernel

theorem witness_BST : let f := flight 0x73 8 [.d [rowIn], .d [rowBoard]]
    let pairs := (copyPairs rowIn.t rowBoard.t).map fun p => (rowBoard.t.offset p.2, rowIn.t.addr 0 p.1)
    StartsNext (boardState f) 0 8 0x73 f ∧ boardCheck rowIn.t rowBoard.t rowBoard.t true = (0, 0xFF) ∧
      (∀ r ∈ boardRuns pairs, ((boardState f).boardRoute ((r.headD (0, 0)).1 / 2 ^ 44) 6 ((r.headD (0, 0)).1 % 2 ^ 44)).isSome = true) ∧
      ∀ p ∈ pairs, (boardState f).cellStatus p.2 = 0 := by decide +kernel

/-- A packet of one hop on axis 0, of domain 1, from another chip's core 2. -/
def pkt (kind addr tlen : Nat) (data : List Byte) (xid : Nat := 7) (status : Nat := 0) : Packet :=
  ⟨hop1, addr, tlen, data.length, xid, 1, 2, 1, 0, kind, true, true, 255, 63, status, 0, 0, false, data⟩

/-- A transfer of core 2 that waits for one completion, or for 8 bytes of data into the scratchpad. -/
def sourceOf (data : Bool) : Source :=
  ⟨2, 7, 0, [pkt 0 0x1000 4 [1#8, 2#8, 3#8, 4#8]], data, if data then 8 else 1, 0, 0x1000,
    (List.range 8).map fun k => some (spadAddr 2 k), 0, []⟩

/-- That transfer's operation is in core 2, and a packet waits. -/
def sourceState (k : Packet) (x : Source) : State :=
  { State.reset with inbox := [k], sources := [x], cores := [(2, { flights := [flight 0x70 8 [] .started] })] }

theorem witness_SourceCountsResponses :
    (let k := pkt 3 0x1000 0 [] 7 0;
      Takes (sourceState k (sourceOf false)) 0 3 k ∧ Belongs (sourceState k (sourceOf false)) k false (sourceOf false) ∧
        LastTransfer (sourceState k (sourceOf false)) (sourceOf false) ∧
        (flightOf (sourceState k (sourceOf false)) (sourceOf false)).isSome = true) ∧
    (let k := pkt 3 0x1000 0 [] 7 13;
     (Takes (sourceState k (sourceOf false)) 0 3 k ∧ Belongs (sourceState k (sourceOf false)) k false (sourceOf false)) ∧
       (sourceState k (sourceOf true)).sources.find? (fun y => y.core == 2 && y.xid == 7 && y.data == false) = none ∧
       Belongs (sourceState k (sourceOf true)) k true (sourceOf true)) ∧
    (let k := pkt 2 0x1004 8 [9#8, 8#8]
     let s := sourceState k (sourceOf true)
     Takes s 0 2 k ∧ Belongs s k true (sourceOf true) ∧ k.status = 0 ∧ (sourceOf true).got + k.data.length < (sourceOf true).want ∧
       ∀ j, j < 2 → s.cellStatus (spadAddr 2 (4 + j)) = 0 ∧ inScratch (spadAddr 2 (4 + j)) = true) ∧
    (let x := { sourceOf false with busy := [pkt 0 0x1000 4 [1#8]] }
     (sourceState (pkt 3 0 0 []) x).sources.find? (fun y => y.core == 2 && y.xid == 7 && !y.busy.isEmpty) = some x) ∧
    (sourceState (pkt 3 0 0 []) (sourceOf false)).sources.find? (fun y => y.core == 2 && y.xid == 7) = some (sourceOf false) := by
  decide +kernel

/-- The last completion ends the operation. -/
theorem test_completion : let t := after (.completion 0) (sourceState (pkt 3 0x1000 0 []) (sourceOf false))
    t.sources = [] ∧ ((t.core 2).flights.map fun f => f.phase) = [.done] := by decide +kernel

/-- A chip that has one packet. -/
def inboxState (k : Packet) : State := { State.reset with inbox := [k] }

theorem witness_DestinationCountsAndAnswers :
    (∀ kind ∈ [0, 6], let k := pkt kind 0x1000 8 [1#8, 2#8, 3#8, 4#8]
      Takes (inboxState k) 0 kind k ∧ (inboxState k).chip.closed = false ∧ mcastOf k.route < 2 ∧ k.data.length = k.plen ∧
        ∀ a, 0x1000 ≤ a → a < 0x1004 → regionOf a = .hbm ∧ (inboxState k).cellStatus a = 0 ∧ (inboxState k).stagingDie a = none ∧
          (inboxState k).scrubbing a = false ∧ (inboxState k).hostHolds (a / 64 * 64) = 0) ∧
    (let k := pkt 4 0 0 []; Takes (inboxState k) 0 4 k) ∧
    (let x : Xfer := ⟨pkt 0 0x1000 8 [], 4, 0⟩
     { State.reset with xfers := [x] }.xfers.find? (fun y => y.first.src == 1 && y.first.sagt == 2 && y.first.xid == 7) = some x) ∧
    (∀ kind ∈ [1, 5], let k := pkt kind 0x1000 8 []
      Takes (inboxState k) 0 kind k ∧ 0 < k.tlen ∧ ∀ a, 0x1000 ≤ a → a < 0x1008 → regionOf a = .hbm ∧ (inboxState k).cellStatus a = 0 ∧
        (inboxState k).scrubbing a = false ∧ (inboxState k).hostHolds (a / 64 * 64) ≠ 2) ∧
    (∀ kind ∈ [1, 5], let k := pkt kind 0x8000000000 8 []
      Takes (inboxState k) 0 kind k ∧ ¬(regionOf k.addr = .hbm ∨ regionOf k.addr = .strandline ∨ inScratch k.addr = true)) := by
  decide +kernel

/-- The packet that completes its transfer is written, and signals mark 63 of core 255 (R350, R353). -/
theorem test_put_data : let t := after (.putData 0 0 [] []) (inboxState (pkt 0 0x1000 2 [5#8, 6#8]))
    t.bytes 0x1000 2 = [5#8, 6#8] ∧ t.markCount 255 63 = 1 ∧ t.xfers = [] := by decide +kernel

/-- A full transfer table in which core 2 of chip 1 has no transfer 7. -/
def fullState (k : Packet) : State := { inboxState k with xfers := List.replicate 16384 ⟨pkt 0 0x1000 8 [] 8, 4, 0⟩ }

theorem witness_BusyWhenFull : ∀ kind ∈ [0, 4, 6], let k := pkt kind 0x1000 8 [1#8]
    Takes (fullState k) 0 kind k ∧ entryOf (fullState k) k = none ∧ 16384 ≤ (fullState k).xfers.length := by
  intro kind h
  refine ⟨?_, ?_, ?_⟩
  · simp only [List.mem_cons, List.not_mem_nil, or_false] at h
    rcases h with rfl | rfl | rfl <;> decide +kernel
  · have h : ((fullState (pkt kind 0x1000 8 [1#8])).xfers) = List.replicate 16384 ⟨pkt 0 0x1000 8 [] 8, 4, 0⟩ := rfl
    rw [entryOf, h, List.find?_replicate_of_length_pos (by decide)]
    simp [pkt]
  · exact Nat.le_of_eq (List.length_replicate ..).symm

/-- A packet on VC 0 of port 0 for a domain; ports 2 and 3 are UP. -/
def hopState (dom : Nat) (k : Packet := pkt 0 0x1000 2 [5#8, 6#8]) (p : Nat := 0) : State :=
  setAll (net ++ [(.rteTransit, 0, 0, 0x9#64), (.lnkStat, 2, 0, 5#64), (.lnkStat, 3, 0, 5#64)])
    { State.reset with ports := [(p, { arrived := [(0, { k with dom := dom })] })] }

/-- A packet of a route of two hops on axis 0 in direction `d`, through the port that `psel` names. -/
def onPkt (d psel : Nat) : Packet := { pkt 0 0x1000 2 [5#8, 6#8] with route := BitVec.ofNat 64 (256 * d + 8 + psel) }

/-- A packet goes on, through a port that is UP (direction 1) or not (direction 0), named or either; a KIND that has no business on its
port; what the shore and buddy ports take; a receiver's SEQ. -/
theorem witness_RouterHop_on : (∀ d ∈ [0, 1], ∀ psel ∈ [0, 1, 2], let k := onPkt d psel
      ((hopState 1 k).port 0).arrived.find? (fun e => e.1 == 0) = some (0, { k with dom := 1 }) ∧ k.kind < 9 ∧
        (segOf k.route k.segi).hops ≠ 0 ∧ ¬(segOf k.route k.segi).hops ≤ k.hop + 1 ∧ (segOf k.route k.segi).psel = psel ∧
        (segOf k.route k.segi).dir = d ∧ (hopState 1 k).portUp (4 * 0 + 2 * d + psel % 2) = (d == 1)) ∧
    (∀ e ∈ [(16, 10), (18, 0)], let k := pkt e.2 0x1000 2 [5#8, 6#8]
      ((hopState 1 k e.1).port e.1).arrived.find? (fun e => e.1 == 0) = some (0, { k with dom := 1 }) ∧
        (if e.1 < 18 then k.kind = 10 else k.kind < 9)) ∧
    (∀ n ∈ ((hopState 1).port 0).rxNext, n < 4096) := by decide +kernel

/-- A packet whose next port, 1, is not UP is counted there and recorded (R342). -/
theorem test_hop_lost : let t := after (.routerHop 0 0) (hopState 1 (onPkt 0 1))
    t.fd .lnkDrop 1 0 0 32 = 1 ∧ t.fd .fltSeq 0 0 0 32 = 1 ∧ t.inbox = [] := by decide +kernel

/-- Own domain in its last hop; a domain of no concern; a transit domain. -/
theorem witness_RouterDeliversAndRefuses : ∀ dom ∈ [1, 2, 9],
    let s := hopState dom
    let k : Packet := { pkt 0 0x1000 2 [5#8, 6#8] with dom := dom }
    ((s.port 0).arrived.find? fun e => e.1 == 0) = some (0, k) ∧ k.kind < 9 ∧ (segOf k.route k.segi).hops ≤ k.hop + 1 ∧
      (pathOf k.route).length ≤ k.segi + 1 ∧ (decide (dom = s.fd .rteDomain 0 0 0 16) = (dom == 1)) ∧
      ((List.range 4).any fun i => dom == s.fd .rteTransit 0 0 (16 * i) 16) = (dom == 9) := by decide +kernel

theorem test_domain_refused : (after (.routerHop 0 0) (hopState 2)).fd .rteDomerr 0 0 0 32 = 1 := by decide +kernel

theorem witness_GenerationsAndFences :
    (State.reset.outstanding (fun g => g == 1) = false ∧ State.reset.outstanding (fun g => g != 0) = false ∧ State.reset.holdsOld = false) ∧
      (sourceState (pkt 3 0 0 []) { sourceOf false with gen := 1 }).outstanding (fun g => g == 1) = true := by decide +kernel

theorem test_advance : (after (.advance .shingle) State.reset).fd .rteGen 0 0 0 16 = 1 := by decide +kernel

/-! ### Rings, queues, host memory -/

/-- A record of one slot at 0x4000 (Table 14.5): sequence number 9, entry point 3, completion queue 5 wanted, one patch
of parameter 4 with 6. -/
def ringMem : List Host.Cell :=
  [(0x4000, 9#8), (0x4008, 3#8), (0x400A, 1#8), (0x400B, 1#8), (0x400C, 5#8), (0x4010, 6#8), (0x4018, 4#8), (0x403F, 0x80#8)]

/-- Ring 0 is ACTIVE with one slot pending; core 0's wave has left reset. -/
def ringState (mem : List Host.Cell) (l : List (Reg × Nat × Nat × W64) := []) : State :=
  setAll ([(.cxlRingstat, 0, 0, 0x100010000#64)] ++ l)
    { State.reset with mem := mem, rings := [(0, ⟨0x4000, 4, true, 0⟩)], chip := { waves := 8 } }

/-- What the engine then takes. -/
def aDispatch : Dispatch := ⟨0, 9, 1, 3, 5, true, false, [(4, 6#64)]⟩

/-- Core 0 holds a record at a program boundary. -/
def dispState (d : Dispatch) : State :=
  { State.reset with cores := [(0, { disp := some d })], rings := [(0, ⟨0x4000, 4, true, 1⟩)], chip := { waves := 8 } }

theorem witness_DispatchRecord : RingTurn (ringState ringMem) 0 ∧
    ∃ l, (ringState ringMem).ringLook 0 = .slots l ∧ recordBad l = false ∧ stepRecOf l = none ∧ 0 < l.length ∧
      MemoryOpen (ringState ringMem) ((List.range l.length).map (((ringState ringMem).ring 0).slotAddr ((ringState ringMem).ringHead 0))) [] := by
  refine ⟨?_, [(ringState ringMem).bytes 0x4000 64], by decide +kernel, by decide +kernel, by decide +kernel, by decide +kernel, by decide +kernel⟩
  refine ⟨by decide +kernel, by decide +kernel, by decide +kernel, by decide +kernel, by decide +kernel, by decide +kernel,
    by decide +kernel, fun k l h => absurd h (by simp)⟩

theorem witness_RingEngine :
    (AtBoundary (dispState aDispatch) 0 ∧ ((dispState aDispatch).core 0).disp = some aDispatch ∧ aDispatch.patches = (4, 6#64) :: []) ∧
    (AtBoundary (dispState { aDispatch with patches := [] }) 0) ∧
    (let s := ringState [] [(.cxlRcfg, 0, 0, 5#64)]
     s.ringLook 0 = .phase 0x4000 ∧ s.isStranded = false ∧ s.fd .cxlRcfg 0 0 0 32 ≠ 0 ∧ s.fd .cxlRcfg 0 0 0 32 ≤ 5) := by decide +kernel

/-- The record is taken with its fields (Table 14.5). -/
theorem test_dispatch : ((after (.dispatchRecord 0) (ringState ringMem)).core 0).disp = some aDispatch := by decide +kernel

/-- Core 0 has one finished replay that wants a completion on queue 5, ACTIVE, in HBM at 0x8000. -/
def cqState : State :=
  setAll [(.cxlCqstat, 0, 5, 0x10001000F#64)]
    { State.reset with cores := [(0, { replays := [⟨0, aDispatch, 2, true, false, none, false, false⟩] })],
                       cqs := [(5, { base := 0x8000, log2 := 4, vec := 3, intr := [7] })] }

theorem witness_CompletionsAreWritten :
    let s := cqState
    let a := (s.cq 5).base + 64 * s.fd .cxlCqstat 0 5 0 16
    (s.core 0).replays = ⟨0, aDispatch, 2, true, false, none, false, false⟩ :: [] ∧
      (s.core 0).finished ⟨0, aDispatch, 2, true, false, none, false, false⟩ = true ∧ s.fd .cxlCqstat 0 5 32 2 = 1 ∧
      (s.cq 5).host = false ∧ a % 64 = 0 ∧ a + 64 ≤ 0x7FFF000000 ∧ MemoryOpen s [] ((List.range 64).map (a + ·)) ∧
      (s.cq 5).log2 ≤ 16 ∧ s.fd .cxlCqstat 0 5 16 16 < 2 ^ (s.cq 5).log2 ∧ aDispatch.cmpl = true ∧
      (s.cq 5).intr ++ (s.cq 5).unseen.take 0 = 7 :: [] ∧ (7 : Nat) ∉ s.cxl.conf.masked ∧
      (let s := { cqState with cqs := [(5, { unseen := [8] })], cxl := { conf := { masked := [8] } } }
       (s.cq 5).intr ++ (s.cq 5).unseen.take 1 = 8 :: [] ∧ (8 : Nat) ∈ s.cxl.conf.masked) := by decide +kernel

/-- A vector whose write is not yet observed does not go; once it is it goes, or is pending if the table masks it (R473). -/
theorem test_msix : let s : State := { State.reset with cqs := [(5, { unseen := [8] })] }
    (after (.msix 5 0) s).outbox = [] ∧ (after (.msix 5 1) s).outbox = [.msix 8] ∧
    (after (.msix 5 1) { s with cxl := { conf := { masked := [8] } } }).cxl.pba = [8] := by decide +kernel

/-- A completion at the last slot: TAIL wraps to 0, and the queue, whose HEAD is 1, becomes FULL (R472). -/
theorem test_completion_record : (after (.completionRecord 0) cqState).rd .cxlCqstat 0 5 = 0x300010000#64 := by decide +kernel

/-- The link is up and the chip READY. -/
def hostUp : List (Reg × Nat × Nat × W64) := [(.cxlLinkstat, 0, 0, 0x9F#64), (.secState, 0, 0, 4#64)]

/-- Doorbells: TAIL 15 of 16 slots is inside, TAIL 16 is not; a stranded chip; a queue. -/
theorem witness_DoorbellsComplete :
    (let s := ringState ringMem hostUp
     BarOpen s ∧ s.isStranded = false ∧ s.fd .cxlRingstat 0 0 32 2 = 1 ∧ (15 : Nat) < (s.ring 0).size ∧ ¬ 16 < (s.ring 0).size ∧
       (s.ring 0).taken ≤ (15 + (s.ring 0).size - s.fd .cxlRingstat 0 0 0 16) % (s.ring 0).size) ∧
    (let s := ringState ringMem [(.cxlLinkstat, 0, 0, 0x9F#64), (.secState, 0, 0, 7#64)]
     BarOpen s ∧ s.isStranded = true) ∧
    (let s := setAll hostUp cqState
     BarOpen s ∧ s.fd .cxlCqstat 0 5 32 1 = 1 ∧ (15 : Nat) < 2 ^ (s.cq 5).log2) := by decide +kernel

/-- A doorbell past the ring sets DBERR (R463). -/
theorem test_doorbell : (after (.doorbell .host 0 8 16#64) (ringState ringMem hostUp)).flag .cxlStat 0 0 0 = true ∧
    (after (.doorbell .host 0 8 15#64) (ringState ringMem hostUp)).fd .cxlRingstat 0 0 16 16 = 15 := by decide +kernel

/-- A ring context at 0: base 0x1000, LOG2SZ 4; one whose base is not aligned; a queue context of vector 1. -/
def ctxState (mem : List Host.Cell) : State := { State.reset with mem := mem }

theorem witness_RingsAndQueuesEnable :
    (let x := 0x1000 + 4 * 2 ^ 48
     EntryAt (ctxState [(1, 0x10#8), (6, 4#8)]) 0 x ∧ x / 2 ^ 53 = 0 ∧ x / 2 ^ 44 % 16 = 0 ∧ x % 2 ^ 44 % 4096 = 0 ∧
       (ctxState [(1, 0x10#8), (6, 4#8)]).fd .cxlRingbase 0 0 0 44 = 0) ∧
    (let x := 0x100 + 4 * 2 ^ 48
     EntryAt (ctxState [(1, 1#8), (6, 4#8)]) 0 x ∧ x % 2 ^ 44 % 4096 ≠ 0) ∧
    (let x := 0x1000 + 16 * 2 ^ 64 + 1 * 2 ^ 80
     EntryAt (ctxState [(1, 0x10#8), (8, 16#8), (10, 1#8)]) 0 x ∧ x / 2 ^ 91 = 0 ∧ x / 2 ^ 73 % 128 = 0 ∧ x / 2 ^ 69 % 8 = 0 ∧
       x / 2 ^ 80 % 2048 ≠ 0 ∧ x / 2 ^ 64 % 32 = 16 ∧ x % 2 ^ 64 % 4096 = 0 ∧ 0x1000 + 64 * 2 ^ 16 ≤ 0x7FFF000000) := by decide +kernel

/-- The host has configured a decoder at 2⁴⁰. -/
def hostState : State := setAll hostUp { State.reset with cxl := { conf := { hdm := some 0x10000000000 } } }

/-- Host accesses: the last unit of HBM, a unit that fails its check, and a unit in the strandline region. -/
theorem witness_HostMemoryAccessesComplete :
    (let s := hostState
     PortOpen s 0x17FFEFFFFFF 0x7FFEFFFFFF ∧ regionOf (0x7FFEFFFFFF / 64 * 64) = .hbm ∧ s.isBad (0x7FFEFFFFFF / 64 * 64) = false ∧
       FilterRoom s (0x7FFEFFFFFF / 64 * 64) 2 ∧ 2 ≤ s.fd .cxlLinkstat 0 0 6 2 ∧
       PortOpen s 0x17FFF000000 0x7FFF000000 ∧ regionOf 0x7FFF000000 ≠ .hbm) ∧
    (let s := { hostState with bad := [(64, 1)] }
     PortOpen s (0x10000000000 + 64) 64 ∧ s.isBad 64 = true) ∧
    (let s := setAll hostUp State.reset
     BarOpen s ∧ s.chip.closed = false ∧ s.dpa 64 = none) := by decide +kernel

/-- A message that the link has lost has no effect and is reported; bytes below the range of the decoder are not this memory (R453). -/
theorem test_link_error : (after (.memWrPtl 0x10000000040 2#64 (List.replicate 64 7#8) 0 .lost) hostState).mem = [] ∧
    (after (.memWrPtl 0x10000000040 2#64 (List.replicate 64 7#8) 0 .lost) hostState).cxl.aerUnc = true ∧
    (after (.memWrPtl 0x40 2#64 (List.replicate 64 7#8) 0 .clean) hostState).flag .cxlStat 0 0 5 = true := by decide +kernel

/-- A partial write of byte 1 of a unit. -/
theorem test_memwrptl : (after (.memWrPtl 0x10000000040 2#64 (List.replicate 64 7#8) 0 .clean) hostState).bytes 0x40 3 = [0#8, 7#8, 0#8] := by
  decide +kernel

theorem witness_CxlPortEventsComplete :
    (let s := setAll hostUp { State.reset with biOut := [(64, 1)] }
     s.fd .cxlLinkstat 0 0 4 2 ≠ 0 ∧ 2 ≤ s.fd .cxlLinkstat 0 0 6 2 ∧ Sparse.get 0 s.biOut 64 ≠ 0 ∧ Sparse.get 0 s.biOut 128 = 0) ∧
    (let s := { State.reset with chip := { domains := 1, sessions := [(true, 3)] } }
     0 < s.chip.domains ∧ (true, 3) ∈ s.chip.sessions ∧ (true, 4) ∉ s.chip.sessions) := by decide +kernel

theorem test_link_up : (after (.cxlLinkUp 3 2 15 {}) { State.reset with chip := { domains := 1 } }).rd .cxlLinkstat 0 0 = 0xEF#64 := by
  decide +kernel

/-! ### Control of a core from outside -/

theorem witness_InstructionMemoryCommandsComplete :
    MayWrite State.reset .shingle .coreIm1 ∧ State.reset.fd .coreImstat 0 0 0 1 ≠ 1 ∧ State.reset.flag .coreImstat 0 0 2 = false ∧
      MayWrite State.reset (.mesh 1023) .coreIm0 ∧ MayWrite State.reset .shingle .coreImctl ∧
      (setAll [(.coreImstat, 0, 0, 4#64)] State.reset).flag .coreImstat 0 0 2 = true ∧ (State.reset.core 0).running = false := by
  decide +kernel

theorem test_im_refused : (after (.imWrite .shingle 0 0 0 5#64) State.reset).flag .coreImstat 0 0 1 = true ∧
    (after (.imWrite .shingle 0 1 4095 5#64) State.reset).rd .coreIm1 0 4095 = 5#64 := by decide +kernel

theorem test_exchange : (after (.halfExchange 0) (setAll [(.coreImstat, 0, 0, 0xFF000004#64)] State.reset)).rd .coreImstat 0 0 = 1#64 := by
  decide +kernel

theorem witness_StopAndResume : MayWrite State.reset .shingle .coreCtl ∧ Unlocked State.reset .host .coreCtl ∧
    State.reset.flag .coreCtl 0 0 0 = false ∧ (setAll [(.coreCtl, 0, 0, 1#64)] State.reset).flag .coreCtl 0 0 0 = true ∧
    (setAll [(.coreStat, 0, 0, 3#64)] State.reset).fd .coreStat 0 0 0 3 = 3 ∧
    (setAll [(.coreStat, 0, 0, 3#64)] State.reset).fd .coreStat 0 0 16 5 = 0 ∧
    ¬Unlocked (setAll [(.csrLock, 0, 0, 1#64)] State.reset) .host .coreCtl := by decide +kernel

theorem test_stop : (after (.stopSet .shingle 0) State.reset).fd .coreStat 0 0 0 3 = 4 := by decide +kernel

theorem witness_MarkDmaAndBankControl : MayWrite State.reset .shingle .coreMsig ∧ MayWrite State.reset .shingle .mark ∧
    MayWrite State.reset .shingle .dmaCtl ∧ MayWrite State.reset .shingle .spdBankpwr ∧ Unlocked State.reset .shingle .spdBankpwr ∧
    (setAll [(.spdBankst, 255, 0, 3#64 <<< 62)] State.reset).bankState 255 31 = 3 ∧ State.reset.bankState 255 31 ≠ 3 := by
  decide +kernel

/-- Bank 31 requested off: its transition starts and the others stand. -/
theorem test_bank_off : let t := after (.spdBankpwr .shingle 255 (2#64 <<< 62)) State.reset
    t.bankState 255 31 = 3 ∧ t.bankState 255 30 = 0 := by decide +kernel

/-! ### Links -/

/-- A flit of VC 0, SEQ 0, HEAD and TAIL with an empty body, its CRC as zlib computes it (R328); and one with a wrong CRC. -/
def goodFlit : List Byte := 0x60#8 :: List.replicate 59 0#8 ++ [0x92#8, 0x69#8, 0xDA#8, 0x5E#8]
def badFlit : List Byte := 0x60#8 :: List.replicate 63 0#8

theorem test_crc : flitCrcOk goodFlit = true := by decide +kernel

/-- Port 15 is UP, its link encrypted or not, with some tag failures in a row. -/
def upState (enc : Bool) (fails : Nat := 0) (t : PortSt := {}) : State :=
  setAll [(.lnkStat, 15, 0, 5#64), (.lnkCfg, 15, 0, if enc then 0x80103#64 else 0x80101#64)]
    { State.reset with ports := [(15, { t with tagFails := fails })] }

theorem witness_FlitsAreReceived :
    (∀ enc ∈ [false, true], ∀ fails ∈ [2, 3], InOrder (upState enc fails) 15 goodFlit true ∧ (upState enc fails).flag .lnkCfg 15 0 1 = enc ∧
      ((upState enc fails).port 15).tagFails = fails) ∧
    (linkHdr goodFlit).head = true ∧ (linkHdr goodFlit).tail = true ∧
    (PortIsUp (upState false) 15 ∧ ((upState false).port 15).rxStall = false ∧ flitCrcOk badFlit = false) ∧
    (let s := upState false 0 { rxNext := 4095 :: List.replicate 7 0 }
     (linkHdr goodFlit).seq ≠ (s.port 15).rxNext.getD 0 0 ∧ seqBefore (linkHdr goodFlit).seq ((s.port 15).rxNext.getD 0 0) = false ∧
       flitCrcOk goodFlit = true) ∧
    (let s := upState false 0 { rxNext := 1 :: List.replicate 7 0 }
     (linkHdr goodFlit).seq ≠ (s.port 15).rxNext.getD 0 0 ∧ seqBefore (linkHdr goodFlit).seq ((s.port 15).rxNext.getD 0 0) = true) ∧
    (let s := upState true 0 { txFrame := [⟨0, 0, 0, true, true, 0, []⟩] }
     ((s.port 15).wait.any fun f => f.vc == 0) = false ∧ ((s.port 15).txFrame.filter fun f => f.vc == 0) ≠ []) := by decide +kernel

/-- A frame of one flit is one packet. -/
theorem witness_OnePacket : OnePacket { rxFrame := [⟨3, 0, 0, true, true, 0, []⟩] } 3 := by
  refine ⟨by decide +kernel, fun i f h => ?_⟩
  match i with
  | 0 => cases h; decide +kernel
  | k + 1 => simp [PortSt.frame] at h

/-- The tag flit of VC 0 and SEQ 0 with 16 bytes of tag, and its CRC. -/
def tagOf (tag : List Byte) : List Byte := flitBytes 24 tag

/-- It is in order whatever the tag, and verifies if the tag is the frame's. -/
theorem tag_flit {tag : List Byte} (h : tag.length = 16) {fails : Nat} (hf : fails ∈ [2, 3]) :
    InOrder (upState true fails) 15 (tagOf tag) true ∧ ((upState true fails).port 15).tagGood 0 (tagOf tag) = (frameTag [] 0 [] == tag) := by
  obtain ⟨b, hb, hl⟩ : ∃ b, tagOf tag = b ++ leBytes 4 (crc32 b).toNat ∧ b.length = 60 ∧ b = leBytes 6 24 ++ sliceB tag 0 54 :=
    ⟨_, rfl, by simp [sliceB, leBytes, h], rfl⟩
  have hn : leNat (leBytes 4 (crc32 b).toNat) = (crc32 b).toNat := by
    have := (crc32 b).isLt
    simp [leNat, leBytes]
    omega
  have hc : flitCrcOk (tagOf tag) = true := by
    rw [hb, flitCrcOk]
    have h1 : sliceB (b ++ leBytes 4 (crc32 b).toNat) 0 60 = b := by simp [sliceB, hl.1]
    have h2 : sliceB (b ++ leBytes 4 (crc32 b).toNat) 60 4 = leBytes 4 (crc32 b).toNat := by
      simp [sliceB, hl.1, leBytes]
    rw [h1, natAt, h2, hn, beq_self_eq_true]
  have hh : linkHdr (tagOf tag) = linkHdr (leBytes 6 24) := by
    have h1 : natAt (tagOf tag) 0 6 = natAt (leBytes 6 24) 0 6 := by simp [tagOf, flitBytes, natAt, sliceB, leBytes]
    simp only [linkHdr, h1]
  have hu : PortIsUp (upState true fails) 15 := by revert fails; decide +kernel
  have hr : (linkHdr (leBytes 6 24)).seq = ((upState true fails).port 15).rxNext.getD (linkHdr (leBytes 6 24)).vc 0 := by
    revert fails; decide +kernel
  obtain ⟨hk, hi, hw⟩ : ((upState true fails).port 15).rxKey = [] ∧ frameIv ((upState true fails).port 15).rxSalt 0
      (((upState true fails).port 15).rxCtr.getD 0 0) = 0 ∧ ((upState true fails).port 15).frame 0 = [] := by
    revert fails; decide +kernel
  refine ⟨⟨hu, .inr rfl, hc, by rw [hh]; exact hr⟩, ?_⟩
  have h3 : sliceB ((tagOf tag).drop 6) 0 16 = tag := by simp [tagOf, flitBytes, sliceB, leBytes, h]
  rw [PortSt.tagGood, h3, hk, hi, hw]

/-- A tag that verifies, and one that does not, after two failures in a row and after three. -/
theorem witness_TagFlit : ∀ fails ∈ [2, 3], ∀ good : Bool, ∃ bytes,
    InOrder (upState true fails) 15 bytes true ∧ ((upState true fails).port 15).tagGood 0 bytes = good ∧
      (linkHdr bytes).vc = 0 ∧ ((upState true fails).port 15).tagFails = fails := by
  intro fails hf good
  have hp : ((upState true fails).port 15).tagFails = fails := by
    simp only [List.mem_cons, List.not_mem_nil, or_false] at hf
    rcases hf with rfl | rfl <;> rfl
  have hv (tag : List Byte) : (linkHdr (tagOf tag)).vc = 0 := by
    simp [linkHdr, tagOf, flitBytes, natAt, sliceB, leBytes, leNat]
  have hl : (frameTag [] 0 []).length = 16 := by simp [frameTag, sliceB]
  cases good
  · refine ⟨tagOf ((frameTag [] 0 []).map (~~~·)), (tag_flit (by simpa using hl) hf).1, ?_, hv _, hp⟩
    rw [(tag_flit (by simpa using hl) hf).2]
    generalize hg : frameTag [] 0 [] = g at *
    match g, hl with
    | x :: l, _ => simp
  · exact ⟨tagOf (frameTag [] 0 []), (tag_flit hl hf).1, by rw [(tag_flit hl hf).2, beq_self_eq_true], hv _, hp⟩

/-- A flit in order advances SEQ of VC 0 and delivers a packet of no bytes; one with a bad CRC is counted. -/
theorem test_flit : (((after (.dataFlit 15 goodFlit true) (upState false)).port 15).rxNext.headD 0) = 1 ∧
    (after (.dataFlit 15 badFlit true) (upState false)).fd .lnkCrcf 15 0 0 32 = 1 := by decide +kernel

theorem witness_CodewordsControlFlitsAndReplays :
    ((upState false).fd .lnkStat 15 0 0 3 ≠ 0 ∧ (upState false).fd .lnkStat 15 0 0 3 ≠ 6) ∧
      (isCodeword (List.replicate 544 0) = true ∧ isCodeword [] = false ∧ symbolErrors (ofLanes []) (List.replicate 544 0) ≤ 15 ∧
        15 < symbolErrors (ofLanes (toLanes (List.replicate 16 1))) (List.replicate 544 0)) ∧
      PortIsUp (upState false) 15 ∧ flitCrcOk goodFlit = true ∧ ((upState false).port 15).wait = [] ∧
      (upState false).flag .lnkStat 15 0 7 = false ∧ (7 : Nat) ≤ (upState false).fd .lnkCfg 15 0 16 16 := by decide +kernel

/-- 15 symbol errors are corrected, 16 are not (R327); a replay request beyond the limit fails the port (R331). -/
theorem test_codeword :
    (after (.codeword 15 (toLanes (List.replicate 15 1)) (List.replicate 544 0)) (upState false)).fd .lnkFecsym 15 0 0 32 = 15 ∧
    (after (.codeword 15 (toLanes (List.replicate 16 1)) (List.replicate 544 0)) (upState false)).fd .lnkUncor 15 0 0 32 = 1 := by decide +kernel

/-- The parity of a message whose last symbol alone is 1 is the generator without its leading 1: of the code it divides no word of fewer
than 31 symbols other than 0 is a member (R326). -/
theorem test_parity : rsParity (List.replicate 513 0 ++ [1]) = (rsGenerator 30).1.drop 1 ∧ (rsGenerator 30).1.all (· != 0) = true := by
  decide +kernel

theorem witness_LinkStatesAdvance :
    MayWrite State.reset .shingle .lnkCfg ∧ State.reset.fd .lnkStat 0 0 0 3 = 0 ∧
    (let s := setAll [(.lnkStat, 0, 0, 1#64), (.lnkExpect, 0, 0, 0x8002000005000000#64)] State.reset
     s.fd .lnkStat 0 0 0 3 = 1 ∧ max (s.fd .lnkVer 0 0 0 8) 0 ≤ min (s.fd .lnkVer 0 0 8 8) 255 ∧
       s.flag .lnkExpect 0 0 63 = true ∧ fld (s.rd .lnkExpect 0 0) 24 24 = 5 ∧ fld (s.rd .lnkExpect 0 0) 48 5 = 2 ∧ portsFace 0 2 = true) ∧
    (let s := setAll [(.lnkStat, 0, 0, 1#64), (.lnkVer, 0, 0, 0x0201#64)] State.reset
     s.fd .lnkStat 0 0 0 3 = 1 ∧ ¬max (s.fd .lnkVer 0 0 0 8) 3 ≤ min (s.fd .lnkVer 0 0 8 8) 4) ∧
    (let s := setAll [(.lnkStat, 0, 0, 3#64)] State.reset
     s.fd .lnkStat 0 0 0 3 = 3 ∧ s.chip.rngBad = false ∧ s.chip.fingers.find? (fun e => e.1 == s.fd .lnkExpect 0 0 0 24) = none ∧
       (s.port 0).later = []) ∧
    (MayWrite State.reset .shingle .lnkExpect ∧ Unlocked State.reset .shingle .lnkExpect) ∧
    (let s := setAll [(.secState, 0, 0, 5#64)] { State.reset with chip := { owner := some [1#8] } }
     s.chip.anchor.isSome = true ∧ s.sec = 5) ∧
    (let s := setAll [(.lnkStat, 0, 0, 6#64), (.lnkCfg, 0, 0, 1#64)] State.reset
     s.fd .lnkStat 0 0 0 3 = 6 ∧ s.flag .lnkCfg 0 0 0 = true) := by decide +kernel

/-- Training leads to the key agreement with the expected neighbour, and into quarantine with another (R366). -/
theorem test_ident : let s := setAll [(.lnkStat, 0, 0, 1#64), (.lnkExpect, 0, 0, 0x8002000005000000#64)] State.reset
    (after (.ident 0 5 2 0 255 false) s).fd .lnkStat 0 0 0 3 = 3 ∧ (after (.ident 0 6 2 0 255 false) s).fd .lnkStat 0 0 0 3 = 4 := by
  decide +kernel

/-! ### Bores and gate -/

/-- This chip is member `m` of `p` on every axis (R374). -/
def boreRegs (m p : Nat) : List (Reg × Nat × Nat × W64) :=
  net ++ (.rteCoord, 0, 0, BitVec.ofNat 64 (m * 0x41041)) ::
    (List.range 4).map fun a => (Reg.boreAxcfg, a, 0, BitVec.ofNat 64 (2 ^ 31 + p * 2 ^ 8))

/-- Rows of 64, 128 and 256 FP32 elements. -/
def row64 : Desc := desc 1 0 0 64 1 256 0
def row64b : Desc := desc 2 0x20000 0 64 1 256 0
def row128 : Desc := desc 3 0 0 128 1 512 0
def row128b : Desc := desc 4 0x20000 0 128 1 512 0

/-- A BCOL of a code on axis 0 (R378): buffers and parameters. -/
def bcol (code : Nat) (a b : Desc) (params : W64 := 0#64) : Flight :=
  flight 0x76 8 [.v (BitVec.ofNat 64 (code * 256)), .d [a], .d [b], .v params]

/-- The hypotheses of a collective on a ring of `p`, this chip its last member. -/
abbrev CollMet (code p : Nat) (a b : Desc) (params : W64) : Prop :=
  let f := bcol code a b params
  let s := queued f (boreRegs (p - 1) p)
  StartsNext s 0 8 0x76 f ∧ fld (vAt f.slots 0) 8 8 = code ∧ (s.bcolCheck 0 f).1 = 0 ∧ s.member 0 = some (p - 1, p, 4) ∧
    (∀ y ∈ (s.bore 0).colls, y.core ≠ 0) ∧ (s.bore 0).nextSend.isNone = true ∧
    (∀ q ∈ a.t.flatPos, s.cellStatus (a.t.addr 0 q) = 0) ∧ (∀ q ∈ b.t.flatPos, s.cellStatus (b.t.addr 0 q) = 0) ∧
    (2 ≤ p → s.legal (boreWord 0 0 (p - 1) p 4) 7 0 false = true ∧ s.legal (boreWord 0 1 (p - 1) p 4) 7 0 false = true)

theorem witness_ALLREDUCE : CollMet 1 2 row128 row128b 0#64 := by decide +kernel
theorem witness_REDSCAT : CollMet 2 2 row128 row64b 0#64 := by decide +kernel
theorem witness_ALLGATHER : CollMet 3 2 row64 row128b 0#64 := by decide +kernel
theorem witness_BCAST : CollMet 4 2 row64 row64b 1#64 := by decide +kernel
theorem witness_RINGPASS : CollMet 5 2 row64 row64b 1#64 := by decide +kernel
theorem witness_PERMUTE : CollMet 6 2 row64 row64b 0x100#64 := by decide +kernel
/-- A ring of one. -/
theorem witness_ring_of_one : CollMet 1 1 row64 row64b 0#64 ∧ CollMet 4 1 row64 row64b 0#64 := by decide +kernel

/-- A collective of core 0 open at member 1, which waits for data. -/
def collAt (code p n : Nat) (params : W64 := 0#64) (started : Bool := true) : Coll :=
  { core := 0, fid := 0, tag := 0, code := code, op := 0, nstat := false, land := false, m := 1, p := p, d0 := desc 1 0 0 n 1 (4 * n) 0,
    d1 := desc 2 0x20000 0 n 1 (4 * n) 0, params := params, number := 0, size := 4 * n, started := started,
    vals := if code = 1 then List.replicate n 0x3F800000#32 else [], due := 8 }

/-- A message of one 64 B piece from member 0 going forward. -/
def boreMsg (code q size : Nat) : Packet :=
  ⟨6#64, boreHeader code 0 0 0 0 q, size, 64, 0, 0, 0x100, 1, 0, 7, false, false, 0, 0, 0, 0, 0, false, List.replicate 64 0#8⟩

/-- The collective is open, and the message waits. -/
def boreState (x : Coll) (k : Packet) : State :=
  setAll (boreRegs 1 x.p) { State.reset with
    inbox := [k], bores := [(0, { colls := [x], spent := [(0, [0, 0])] })], cores := [(0, { flights := [bcol x.code row64 row64b] })] }

/-- The message belongs to the open collective. -/
abbrev MsgMet (x : Coll) (k : Packet) : Prop :=
  let s := boreState x k
  Takes s 0 7 k ∧ (segOf k.route 0).axis = 0 ∧ s.gate.filter = false ∧ ¬(boreFld k 40 4 = 6 ∧ k.rmark ≠ 0) ∧ x ∈ (s.bore 0).colls ∧
    x.core = boreFld k 23 8 ∧ x.number = k.xid ∧ (∀ y ∈ (s.bore 0).colls, y.core = x.core → y = x) ∧ (s.bore 0).nextSend.isNone = true

/-- A piece of a BCAST from member 0. -/
theorem witness_BoreMessage_move : MsgMet (collAt 4 2 64) (boreMsg 4 0 256) ∧ HeaderAgrees (boreMsg 4 0 256) (collAt 4 2 64) ∧
    (collAt 4 2 64).reduces = false ∧ (((boreState (collAt 4 2 64) (boreMsg 4 0 256)).bore 0).waits 0 0 0) = false ∧
    (∀ q ∈ (piecesOf (boreMsg 4 0 256)).map Prod.fst, (0, q) ∉ (collAt 4 2 64).seen) := by decide +kernel

/-- A partial sum of the lower half of member 1's own shard: pieces 4 and 5 of two shards of 64. -/
theorem witness_BoreMessage_own : MsgMet (collAt 1 2 128) (boreMsg 1 4 512) ∧ HeaderAgrees (boreMsg 1 4 512) (collAt 1 2 128) ∧
    (collAt 1 2 128).reduces = true ∧ (collAt 1 2 128).shard = 64 ∧
    ∀ q ∈ (piecesOf (boreMsg 1 4 512)).map Prod.fst, (0, q) ∉ (collAt 1 2 128).seen ∧ 16 * q + 16 ≤ (collAt 1 2 128).vals.length ∧
      16 * q % 64 < 64 / 2 ∧ 16 * q / 64 = (collAt 1 2 128).m := by decide +kernel

/-- A partial sum of shard 3 of four, which neither begins nor ends at member 1, and no credit to pass it on. -/
theorem witness_BoreMessage_pass : MsgMet (collAt 1 4 256) (boreMsg 1 12 1024) ∧ HeaderAgrees (boreMsg 1 12 1024) (collAt 1 4 256) ∧
    (collAt 1 4 256).shard = 64 ∧ ((boreState (collAt 1 4 256) (boreMsg 1 12 1024)).bore 0).mayUse 0 0 = false ∧
    (∀ q ∈ (piecesOf (boreMsg 1 12 1024)).map Prod.fst, 16 * q / 64 ≠ 1 ∧ 16 * q % 64 < 64 / 2 ∧ 1 ≠ (16 * q / 64 + 1) % 4) := by
  decide +kernel

/-- Its buffer has no position twice, and every one in the scratchpad. -/
theorem witness_BoreMessage_places : let x := collAt 4 2 64
    (∀ q ∈ x.d1.t.flatPos, State.reset.cellStatus (x.d1.t.addr 0 q) = 0 ∧ inScratch (x.d1.t.addr 0 q) = true) ∧
      ((x.flatAt 0 <$> List.range x.d0.t.flatPos.length).filterMap (fun o => (x.d1.t.flatPos[o]?).map (x.d1.t.addr 0))).Nodup ∧
      (x.d1.t.positions.map (x.d1.t.addr 0)).Nodup := by decide +kernel

/-- A packet of the core's own PERMUTE that goes on, and no credit for it. -/
theorem witness_BoreMessage_relay : let k := { boreMsg 6 0 256 with rmark := 1 }
    let s := boreState (collAt 6 4 64 0x100#64) k
    Takes s 0 7 k ∧ (segOf k.route 0).axis = 0 ∧ s.gate.filter = false ∧ boreFld k 40 4 = 6 ∧
      ((s.bore 0).colls.find? fun c => c.core == boreFld k 23 8 && c.number == k.xid) = some (collAt 6 4 64 0x100#64) ∧
      (collAt 6 4 64 0x100#64).agrees k = true ∧ s.member 0 = some (1, 4, 4) ∧ (s.bore 0).waits 0 0 0 = false ∧
      (s.bore 0).nextSend.isNone = true ∧ (s.bore 0).mayUse 0 0 = false := by decide +kernel

/-- A header of another code, and a collective that has not started. -/
theorem witness_BoreMessage_other : (MsgMet (collAt 4 2 64) (boreMsg 3 0 256) ∧ ¬HeaderAgrees (boreMsg 3 0 256) (collAt 4 2 64)) ∧
    (MsgMet (collAt 4 2 64 0#64 false) (boreMsg 4 0 256) ∧ HeaderAgrees (boreMsg 4 0 256) (collAt 4 2 64 0#64 false)) := by decide +kernel

/-- The sum of 0 and 1 stands in element 0 of the owner's shard (R385, R386); the Bore has no common slot left to lend. -/
theorem test_reduction :
    let s := (boreState (collAt 1 2 128) (boreMsg 1 4 512)).modBore 0 fun b => { b with lent := [(0, 1024)] }
    (after (.boreMessage 0 0 [] []) s).word32 (spadAddr 0 (0x20000 + 256)) = 0x3F800000#32 := by decide +kernel

theorem witness_BoreEventsComplete :
    (let s := boreState (collAt 4 2 64) (boreMsg 4 0 256)
     (s.bore 0).nextSend.isNone = true ∧ (∀ y ∈ (s.bore 0).colls, y.core = 0 → y.started = true ∧ y.due ≠ 0) ∧ (s.bore 0).held = [] ∧
       ∀ y ∈ (s.bore 0).colls, y.send = []) ∧
    (let s := setAll (boreRegs 1 2) { State.reset with bores := [(0, { spent := [(0, [0, 0])], held := [(0, boreMsg 4 0 256)] })] }
     (s.bore 0).nextSend.isNone = true ∧ (s.bore 0).colls = [] ∧ s.legal (boreMsg 4 0 256).route 7 0 false = true ∧
       ((s.bore 0).held.find? fun h => h.1 == 0 && creditCore h.2 == 0) = some (0, boreMsg 4 0 256) ∧
       (Sparse.get [] (s.bore 0).spent (creditKey 0 0)).length = 2 + Sparse.get 0 (s.bore 0).extra (creditKey 0 0)) ∧
    (let s := setAll [(.boreWdog, 0, 0, 5#64)] (boreState (collAt 4 2 64) (boreMsg 4 0 256))
     ((s.bore 0).colls.find? fun c => c.core == 0 && c.started && !c.reported) = some (collAt 4 2 64) ∧ s.fd .boreWdog 0 0 0 32 < 6) ∧
    (MayWrite State.reset .shingle .boreAxcfg ∧ State.reset.fd .boreStat 0 0 16 9 = 0 ∧ State.reset.fd .gateStat 0 0 0 2 ≠ 2 ∧
      (setAll [(.gateStat, 0, 0, 2#64)] State.reset).fd .gateStat 0 0 0 2 = 2) ∧
    (MayWrite State.reset .shingle .rcvCtl ∧ State.reset.quiet = true ∧ (setAll [(.coreStat, 255, 0, 1#64)] State.reset).quiet = false) := by
  decide +kernel

/-- A gate with core words; 256 equal entries. -/
def gateWords : List (Nat × W64) := (List.range 256).map fun n => (n, 0xFFFF000001000000#64)

/-- The gate is enabled and collects. -/
def gateState (f : Flight) (words : List (Nat × W64)) : State :=
  setAll [(.gateCfg, 0, 0, 1#64)] { State.reset with cores := [(0, { flights := [f] })], gate := { words := words } }

theorem witness_GCONT : let f := flight 0x75 8 [.v 0xFFFF000000000001#64]
    (StartsNext (gateState f []) 0 8 0x75 f ∧ (gateState f []).flag .gateCfg 0 0 0 = true ∧ Sparse.get 0#64 (gateState f []).gate.words 0 = 0#64) ∧
    (StartsNext (gateState f [(0, 1#64)]) 0 8 0x75 f ∧ Sparse.get 0#64 (gateState f [(0, 1#64)]).gate.words 0 ≠ 0#64) ∧
    (StartsNext (queued f) 0 8 0x75 f ∧ (queued f).flag .gateCfg 0 0 0 = false) := by decide +kernel

/-- Bit 0 of a GCONT's operand is the hardware's: STAGED is set, the operand's own bits stand (Table 11.6). -/
theorem test_gcont : Sparse.get 0#64 (after (.gcont 0) (gateState (flight 0x75 8 [.v 0xFFFF000000000001#64]) [])).gate.words 0 =
    0xFFFF000001000000#64 := by decide +kernel

theorem witness_ChipContribution :
    let s := setAll [(.gateCfg, 0, 0, 1#64), (.gateStat, 0, 0, 1#64)]
      { State.reset with gate := { words := gateWords, ebb := [(0, 1#64), (1, 1#64)] } }
    s.flag .gateCfg 0 0 0 = true ∧ s.fd .gateStat 0 0 0 2 = 1 ∧ s.isStranded = false ∧
      (∀ n, n < 256 → Sparse.get 0#64 s.gate.words n ≠ 0#64) ∧ ∀ e, e < 2 → Sparse.get 0#64 s.gate.ebb e ≠ 0#64 := by decide +kernel

/-- The gate message of member 0 of an axis going forward, with a step. -/
def gateMsg (axis step : Nat) : Packet :=
  ⟨BitVec.ofNat 64 (6 + axis * 512), axis * 2 ^ 42, 16, 16, 0, 0, 0x100 + axis, 1, 0, 8, false, false, 0, 0, 0, 0, 0, false,
    leBytes 8 0xFFFF000001000000 ++ leBytes 6 step ++ leBytes 2 0⟩

/-- It waits at member 1 of 2; the job step is 5 and phase W runs. -/
def gateMsgState (axis step : Nat) (p : Nat := 2) : State :=
  setAll (boreRegs 1 p ++ [(.gateCfg, 0, 0, 1#64), (.gateStat, 0, 0, 0xE#64), (.coreStep, 0, 0, 5#64)])
    { State.reset with inbox := [gateMsg axis step], bores := [(0, { spent := [(256, [0, 0])] })] }

theorem witness_GateMessage : ∀ e ∈ [(0, 6), (3, 5), (3, 4), (3, 8)],
    let s := gateMsgState e.1 e.2
    let k := gateMsg e.1 e.2
    Takes s 0 8 k ∧ k.addr / 2 ^ 42 % 4 = e.1 ∧ natAt k.data 8 6 = e.2 ∧ s.member e.1 = some (1, 2, 4) ∧ s.gate.filter = false ∧
      s.flag .gateCfg 0 0 0 = true ∧ (segOf k.route 0).hops ≠ 0 ∧ (s.bore e.1).nextSend.isNone = true ∧ s.jobStep = 5 ∧
      s.fd .gateStat 0 0 0 2 = 2 ∧ s.fd .gateStat 0 0 2 2 = 3 ∧ s.gate.complete = false ∧ k.addr / 2 ^ 35 % 64 = 0 := by decide +kernel

/-- The last input of phase W completes the job-wide word (R401). -/
theorem test_gate_message : (after (.gateMessage 0) (gateMsgState 3 5)).gate.complete = true := by decide +kernel

theorem witness_GateStepsComplete :
    (let s := setAll [(.boreNsaddr, 0, 0, 0x8000000000001000#64)] { State.reset with gate := { complete := true } }
     s.gate.complete = true ∧ NoiseKept s 0 = true ∧ (∀ x, x < 32 → s.cellStatus (0x1000 + x) = 0) ∧
       MemoryOpen s [] ((List.range 32).map (0x1000 + ·)) ∧ NoiseKept s 1 = false ∧ ∀ n, n < 256 → (s.gcontWaiting n).isNone = true) ∧
    ((gateState { flight 0x75 8 [.v 0xFFFF000000000001#64] with phase := .started } [(0, 1#64)]).gcontWaiting 0).isSome = true ∧
    (let s := setAll [(.gateStat, 0, 0, 1#64), (.gateWdog, 0, 0, 5#64)] State.reset
     s.fd .gateStat 0 0 0 2 ≠ 0 ∧ s.gate.reported = false ∧ s.fd .gateWdog 0 0 0 32 < 6) ∧
    (MayWrite State.reset .shingle .gateCfg ∧ State.reset.flag .gateCfg 0 0 0 = false ∧
      (setAll [(.gateCfg, 0, 0, 1#64)] State.reset).flag .gateCfg 0 0 0 = true) := by decide +kernel

/-- The combination takes the least of bits [63:56] and the greatest of [39:32] (Table 11.6). -/
theorem test_gate_meet : gateMeet 0x0502000301000001#64 0x0304000901000002#64 = 0x0302000901000003#64 := by decide +kernel

/-! ### Ebb dies -/

/-- The first byte of die 0's slow tier. -/
def slow0 : Nat := 0x10000000000

/-- Die 0: one segment of 16 elements, rule program 0 (S0 := S0 − G0, one state stream, one staged), weights FP32 at 0x1000
of HBM, staging area of 64 B at 0x1000 of the slow tier, mirror area of 64 B at 0. -/
def ebbRegs (st : Nat) : List (Reg × Nat × Nat × W64) :=
  [(.ebbSegcnt, 0, 0, 1#64), (.ebbSeg, 0, 0, BitVec.ofNat 64 slow0), (.ebbSeg, 0, 1, BitVec.ofNat 64 (slow0 + 0x1000)),
   (.ebbSeg, 0, 2, 0x1000#64), (.ebbSeg, 0, 3, 0x10000000010#64), (.ebbRule, 0, 0, 0x1101#64), (.ebbRule, 0, 1, 0x2718E000#64),
   (.ebbRuleval, 0, 0, 1#64), (.ebbStgbase, 0, 0, BitVec.ofNat 64 (slow0 + 0x1000)), (.ebbStglen, 0, 0, 64#64),
   (.ebbStgcnt, 0, 0, 64#64), (.ebbMircfg, 0, 0, BitVec.ofNat 64 slow0), (.ebbMircfg, 0, 1, 64#64),
   (.gateCfg, 0, 0, 1#64), (.ebbStat, 0, 0, BitVec.ofNat 64 (st * 2 ^ 16))]

/-- That die in a state, with what it holds. -/
def ebbState (st : Nat) (d : EbbSt := {}) (l : List (Reg × Nat × Nat × W64) := []) (mem : List Host.Cell := []) : State :=
  setAll (ebbRegs st ++ l) { State.reset with ebbs := [(0, d)], mem := mem }

/-- With nothing failing, a range of die 0's slow tier is good. -/
theorem slow_good {s : State} {a n : Nat} (hb : s.bad = []) (h1 : slow0 ≤ a) (h2 : a + n ≤ slow0 + 2 ^ 38) :
    RangeGood s 0 a n true := by
  intro x hx hy
  have hr : regionOf x = .slow 0 := by
    unfold regionOf slow0 at *
    rw [if_neg (by omega), if_neg (by omega), if_neg (by omega), if_pos (by omega)]
  refine ⟨hr, ?_⟩
  simp [State.cellStatus, inScratch, hr, State.isBad, hb, Sparse.get]

/-- With no scrub, no hold and nothing at the host, nothing holds an access back. -/
theorem memory_open {s : State} (hc : s.chip.closed = false) (hk : s.chip.keysWait = false) (hm : s.rd .memScrub 0 0 = 0#64)
    (hh : ∀ e, (s.ebb e).hold = false) (hs : s.snoop = []) (reads writes : List Nat) : MemoryOpen s reads writes := by
  have hscr : ∀ a, s.scrubbing a = false := by
    intro a
    unfold State.scrubbing State.flag
    cases regionOf a <;> simp [hk, hm, bit]
  have hst : ∀ a, s.stageHeld a = false := by
    intro a
    unfold State.stageHeld
    cases s.stagingDie a <;> simp [hh]
  have hho : ∀ u, s.hostHolds u = 0 := by
    intro u
    simp [State.hostHolds, hs, Sparse.get]
  exact ⟨hc, fun a _ => hscr a, fun a _ => ⟨hst a, fun _ => hho _⟩, fun a _ _ => by simp [hho]⟩

theorem witness_StagingAndGateWords :
    (inSlow 0 (slow0 + 0x1000) 4 = true ∧ RangeGood (ebbState 0) 0 (slow0 + 0x1000) 4 true ∧
      MemoryOpen (ebbState 0) [] ((List.range 4).map (slow0 + 0x1000 + ·))) ∧
    (let s := ebbState 2 { hold := true }
     s.chip.closed = false ∧ s.stagingDie (slow0 + 0x1000) = some 0 ∧ (s.ebb 0).hold = true) ∧
    (let s := ebbState 0
     s.flag .gateCfg 0 0 0 = true ∧ s.ebbState 0 = 0 ∧ s.isStranded = false ∧
       s.fd .ebbStglen 0 0 0 40 ≤ s.fd .ebbStgcnt 0 0 0 40) := by decide +kernel

/-- An infinity staged sets INF, and the bytes are counted (R283, R284). -/
theorem test_staging : let t := after (.stagingWrite 0 (slow0 + 0x1000) [0#8, 0#8, 0x80#8, 0x7F#8]) (ebbState 0)
    t.flag .ebbStat 0 0 1 = true ∧ t.fd .ebbStgcnt 0 0 0 40 = 68 := by decide +kernel

/-- The configuration passes R288, and the die is STAGED. -/
theorem test_ebb_gate_word : (ebbState 0).ebbChecks 0 = none ∧ (after (.ebbGateWord 0) (ebbState 0)).ebbState 0 = 1 := by decide +kernel

/-- A die that holds a step that is not committed, with its entry. -/
def entryState : State := ebbState 2 { strand := true, hold := true, entry := some (List.replicate 256 0#8) }

theorem witness_StrandlineWrite : (entryState.ebb 0).srecDue = false ∧ entryState.noiseDue = false ∧ (entryState.ebb 0).entry = some (List.replicate 256 0#8) ∧
    MemoryOpen entryState [] ((List.range 256).map (0x7FFF000000 + ·)) ∧
    (∀ x, x < 256 → entryState.cellStatus (0x7FFF000000 + x) = 0) ∧
    (entryState.ebbState 0 == 2 && (entryState.ebb 0).strand && !(entryState.ebb 0).commit) = true := by decide +kernel

/-- A committed step. -/
def passState : State := ebbState 2 { commit := true, hold := true } []
  [(slow0 + 2, 0x80#8), (slow0 + 3, 0x3F#8)]

theorem witness_UpdatePass : passState.passReady 0 = true ∧
    MemoryOpen passState (passState.passAddrs 0).1 (passState.passAddrs 0).2 ∧ (∀ q ∈ passState.segments 0, q.2.ok 0 = true) := by
  decide +kernel

/-- Its one segment: streams good, weights written in FP32 without a scale record. -/
theorem witness_UpdatePass_segment : let g := passState.segEnt 0 0
    passState.segments 0 = [(0, g)] ∧ g.wen = true ∧ g.fmt = .fp32 ∧ g.usesRec = false ∧ g.n = 16 ∧
      (passState.ruleHdr 0 g.rule).2 = (1, 1) ∧ RangeGood passState 0 g.st 64 true ∧ RangeGood passState 0 g.g 64 true ∧
      RangeGood passState 0 g.w g.wtotal false ∧ passState.segRec 0 g (passState.ebb 0).wstep = .inl none := by decide +kernel

/-- 1 − 0 on element 0: the new state is 1 (R295). -/
theorem test_rule : (passState.runElem 0 (passState.segEnt 0 0) 0).1 = [0x3F800000#32] := by decide +kernel

theorem witness_UpdateStepsComplete :
    (let s := ebbState 3 { passed := true }
     s.ebbState 0 = 3 ∧ (s.ebb 0).passed = true ∧ s.noiseDue = false) ∧
    (MayWrite State.reset .shingle .ebbCtl ∧ (ebbState 4).ebbState 0 = 4 ∧ (ebbState 0).ebbState 0 ≠ 4) ∧
    (MayWrite State.reset .shingle .rcvCtl ∧ State.reset.quiet = true) := by decide +kernel

/-- Mirroring on, one slot of 4 KiB at 0x10000 of the slow tier, buddy 7; the buddy port UP. -/
def mirRegs (rest : W64 := 0#64) : List (Reg × Nat × Nat × W64) :=
  [(.ebbMircfg, 0, 2, BitVec.ofNat 64 (slow0 + 0x10000)), (.ebbMircfg, 0, 3, 0x101000007#64), (.lnkStat, 18, 0, 5#64),
   (.ebbMirwd, 0, 0, 5#64), (.ebbRestore, 0, 0, rest)]

theorem witness_MirrorStream : let s := ebbState 0 { mirDue := some 3 } mirRegs
    (s.ebb 0).mirDue = some 3 ∧ s.mirEn 0 = true ∧ (s.ebb 0).mirror = none ∧ s.portUp 18 = true ∧ s.isStranded = false ∧
      RangeGood s 0 (s.mirTxBase 0) (s.mirTxLen 0) true ∧ MemoryOpen s ((List.range 64).map (slow0 + ·)) [] ∧ s.mirTxLen 0 = 64 := by
  decide +kernel

theorem witness_MirrorReceive : let s := ebbState 0 {} mirRegs
    (s.isStranded = false ∧ (7 : Nat) = s.mirBuddy 0 ∧ (8 : Nat) ≠ s.mirBuddy 0 ∧ 4032 + 64 ≤ s.mirSlot 0 ∧ s.mirSlot 0 < 4033 + 64 ∧
      s.mirRxBase 0 = slow0 + 0x10000 ∧ s.fd .ebbStgbase 0 0 0 44 + s.fd .ebbStglen 0 0 0 40 ≤ slow0 + 0x10000) ∧
      RangeGood s 0 (slow0 + 0x10000) 4096 true :=
  ⟨by decide +kernel, slow_good (by decide +kernel) (by decide) (by decide)⟩

/-- Nothing holds an access to that die back. -/
theorem witness_ebb_open (reads writes : List Nat) : MemoryOpen (ebbState 0 {} mirRegs) reads writes :=
  memory_open (by decide +kernel) (by decide +kernel) (by decide +kernel)
    (fun e => by cases e <;> rfl) (by decide +kernel) reads writes

theorem witness_MirrorsAndRestores :
    (let s := ebbState 0 { mirror := some (3, 1) } mirRegs
     (s.ebb 0).mirror = some (3, 1) ∧ (s.ebb 0).mirror ≠ some (3, 0) ∧ (s.ebb 0).mirLate = false ∧ s.fd .ebbMirwd 0 0 0 32 < 6) ∧
    (MayWrite State.reset .shingle .ebbMircfg ∧ (ebbState 0 {} mirRegs).mirEn 0 = true ∧ (ebbState 0).mirEn 0 = false) ∧
    (MayWrite State.reset .shingle .ebbRestore ∧ (ebbState 3).ebbState 0 ≠ 0) ∧
    (let s := ebbState 0
     s.segments 0 = [(0, s.segEnt 0 0)] ∧ (s.segEnt 0 0).wen = true ∧ (s.segEnt 0 0).fmt = .fp32 ∧ s.ebbState 0 = 0 ∧
       RangeGood s 0 slow0 64 true ∧ RangeGood s 0 0x1000 64 false ∧ MemoryOpen s ((List.range 64).map (slow0 + ·)) ((List.range 64).map (0x1000 + ·))) ∧
    (let s := ebbState 0 {} (mirRegs 0x20#64 ++ [(.ebbStgcnt, 0, 0, 0#64)])
     s.flag .ebbRestore 0 0 5 = true ∧ s.ebbState 0 = 0 ∧ s.fd .ebbStgcnt 0 0 0 40 = 0 ∧ (7 : Nat) = s.mirBuddy 0 ∧ 4 ≤ s.mirTxLen 0 ∧
       s.isStranded = false ∧ RangeGood s 0 slow0 4 true ∧ (∀ x, x < 4 → s.stagingDie (slow0 + x) = none) ∧
       MemoryOpen s [] ((List.range 4).map (slow0 + ·))) := by decide +kernel

/-- A mirror slot that holds an image of no bytes of step 3. -/
def wholeState : State := ebbState 0 {} mirRegs [(slow0 + 0x10000 + 4032, 3#8), (slow0 + 0x10000 + 4032 + 14, 1#8)]

theorem witness_RestoreSend : WholeImage wholeState 0 0 3 0 0 ∧ wholeState.ebbState 0 = 0 ∧ wholeState.portUp 18 = true ∧
    wholeState.isStranded = false := by
  refine ⟨⟨by decide +kernel, by decide +kernel, by decide +kernel, by decide +kernel, by decide +kernel, by decide +kernel, ?_⟩,
    by decide +kernel⟩
  intro x h1 h2
  have hb : wholeState.mirRxBase 0 = slow0 + 0x10000 := by decide +kernel
  have hs : wholeState.mirSlot 0 = 4096 := by decide +kernel
  have h := slow_good (s := wholeState) (a := slow0 + 0x10000) (n := 4096) (by decide +kernel) (by decide) (by decide)
  exact (h x (hb ▸ h1) (by rw [hb, hs] at h2; exact h2)).2

/-- Snapshots of stream 0, halves of 4 KiB at 0x20000 and 0x21000 of the slow tier. -/
def snapRegs (stat exp : W64) : List (Reg × Nat × Nat × W64) :=
  [(.ebbSnapcfg, 0, 0, BitVec.ofNat 64 (slow0 + 0x20000)), (.ebbSnapcfg, 0, 1, BitVec.ofNat 64 (slow0 + 0x21000)),
   (.ebbSnapcfg, 0, 2, 0x10101#64), (.ebbSnapstat, 0, 0, stat), (.ebbExpstat, 0, 0, exp), (.lnkStat, 16, 0, 5#64)]

/-- While no export is busy, and while one is. -/
abbrev snapState (exp : W64) : State := ebbState 0 { snap := some 3 } (snapRegs 0#64 exp)

theorem witness_SnapshotCopy : ((snapState 0#64).ebb 0).snap = some 3 ∧ (snapState 0#64).isStranded = false ∧
    (snapState 0#64).ebbState 0 = 0 := by decide +kernel

theorem witness_SnapshotCopy_export : (snapState 0#64).flag .ebbExpstat 0 0 49 = false ∧
    (snapState 0x2000000000000#64).flag .ebbExpstat 0 0 49 = true := by decide +kernel

theorem witness_SnapshotCopy_halves : 64 + 64 ≤ (snapState 0#64).snapHalf 0 ∧ (snapState 0#64).snapBase 0 1 = slow0 + 0x21000 := by
  decide +kernel

theorem witness_SnapshotCopy_runs : (snapState 0#64).snapRuns 0 = [(slow0, 64)] := by decide +kernel

/-- Its ranges are good. -/
theorem witness_SnapshotCopy_ranges (exp : W64) : RangeGood (snapState exp) 0 (slow0 + 0x21000) 128 true ∧ RangeGood (snapState exp) 0 slow0 64 true :=
  ⟨slow_good rfl (by decide) (by decide), slow_good rfl (by decide) (by decide)⟩

/-- A valid snapshot of no bytes in half 0, and an export in progress. -/
theorem witness_SnapshotsExportsAndSettings :
    (MayWrite State.reset .shingle .ebbSnapcfg ∧ (ebbState 0 { swap := some 3 }).ebb 0 = { swap := some 3 } ∧
      (ebbState 0 { swap := some 3 } (snapRegs 0#64 0x2000000000000#64)).flag .ebbExpstat 0 0 49 = true) ∧
    (let s := ebbState 0 {} (net ++ snapRegs 0x4000000000000#64 0#64)
     MayWrite s .shingle .ebbExpctl ∧ s.domain ≠ 0 ∧ s.flag .ebbExpstat 0 0 49 = false ∧ s.flag .ebbSnapstat 0 0 50 = true ∧ s.portUp 16 = true ∧
       s.isStranded = false ∧ (∀ x, x < 64 → s.cellStatus (slow0 + 0x20000 + x) = 0) ∧ (ebbState 0).flag .ebbSnapstat 0 0 50 = false) ∧
    (∀ st ∈ [0, 1], let k := { pkt 10 0 0 [] 9 with status := st }
      let s : State := { ebbState 0 { exportTag := some 9 } (snapRegs 0#64 0x2000000000000#64) with inbox := [k] }
      Takes s 0 10 k ∧ (s.ebb 0).exportTag = some k.xid ∧ (s.ebb 0).exportOut = []) ∧
    (Takes (inboxState (pkt 10 0 0 [])) 0 10 (pkt 10 0 0 []) ∧ ∀ d, d < 2 → ((inboxState (pkt 10 0 0 [])).ebb d).exportTag ≠ some 7) ∧
    (MayWrite State.reset .shingle .ebbRulechk ∧ MayWrite State.reset .shingle .tideLscfg ∧
      ∀ r ∈ [Reg.tideCfg, .tideWarm, .tideLen, .tideLr, .tideBeta], MayWrite State.reset .shingle r) := by decide +kernel

/-- The program of the segment passes R297; a header of 49 words does not. -/
theorem test_rulechk : (after (.rulechk .shingle 0 0) (ebbState 0)).flag .ebbRuleval 0 0 0 = true ∧
    (after (.rulechk .shingle 0 0) (ebbState 0 {} [(.ebbRule, 0, 0, 0x1131#64)])).flag .ebbRuleval 0 0 0 = false := by decide +kernel

/-- EMAX below EMIN is refused (R279). -/
theorem test_lscfg : (after (.tideLscfg .shingle 0 0x00010000) State.reset).flag .tideLsevt 0 0 2 = true ∧
    (after (.tideLscfg .shingle 0 0x7E820005) State.reset).rd .tideLscfg 0 0 = 0x7E820005#64 := by decide +kernel

/-- Each schedule register is reached at its offset of the die's block. -/
theorem witness_TideSchedule : ∀ r ∈ [Reg.tideCfg, .tideWarm, .tideLen, .tideLr, .tideBeta],
    r.hit (0x2600000 + r.info.off) = some ⟨r, 0, 0, 0⟩ ∧ r.info.off < 0x20000 := by decide +kernel

theorem witness_TideSchedule_refused : scheduleBad .tideLen 0#64 = true ∧ scheduleBad .tideLen 1#64 = false := by decide +kernel

/-! ### Memories, clocks, power -/

/-- A unit of HBM that fails its check. -/
def badUnit : State := { State.reset with bad := [(0x1000, 1)] }

theorem witness_MemoryCommandsComplete_read :
    (regionOf 0x1000 = .hbm ∧ MemoryOpen State.reset ((List.range 64).map (0x1000 + ·)) [] ∧ State.reset.isBad 0x1000 = false) ∧
    (badUnit.isBad 0x1000 = true ∧ MemoryOpen badUnit ((List.range 64).map (0x1000 + ·)) []) ∧
    (regionOf 0x7FFF000000 = .strandline ∧ MemoryOpen State.reset ((List.range 64).map (0x7FFF000000 + ·)) []) := by decide +kernel

/-- An access to no memory, to one that is being scrubbed, and to closed memories. -/
theorem witness_MemoryCommandsComplete_other :
    (regionOf 0x8000000000 ≠ .hbm ∧ regionOf 0x8000000000 ≠ .strandline) ∧ agentCode .host ≠ 0x104 ∧
    (let s := setAll [(.memScrub, 0, 0, 2#64)] State.reset
     s.chip.closed = false ∧ s.scrubbing 0x1000 = true) ∧
    ({ State.reset with chip := { closed := true } } : State).chip.closed = true := by decide +kernel

theorem witness_MemoryCommandsComplete_write :
    MemoryOpen State.reset [] ((List.range 64).map (0x7FFF000000 + ·)) ∧ State.reset.isBad 0x7FFF000000 = false ∧
      agentCode (.mesh 0x104) = 0x104 ∧ agentCode .host ≠ 0x104 := by decide +kernel

/-- The failing unit answers its status and zeros, and is counted (R426). -/
theorem test_hbm_bad : let t := after (.hbmAccess .host 0x1008 false 0 []) badUnit
    t.outbox = [.memory 0x1000 5 (List.replicate 64 0#8)] ∧ t.fd .hbmChkcnt (stackOf 0x1000) 0 0 32 = 1 := by decide +kernel

/-- A byte mask of the last byte alone (R423). -/
theorem test_hbm_mask : (after (.hbmAccess .host 0x1000 true (1#64 <<< 63) (List.replicate 64 7#8)) State.reset).mem = [(0x103F, 7#8)] := by
  decide +kernel

/-- The oldest of the highest class is between two lists that leave it in front (R281). -/
theorem witness_SlowTierAccess : let q : SlowReq := ⟨1, slow0, none, 4⟩
    (∀ x ∈ ([⟨2, slow0, none, 1⟩, ⟨3, slow0, none, 1⟩] : List SlowReq), q.cls < x.cls) ∧
      (∀ x ∈ ([⟨1, slow0 + 8, none, 1⟩] : List SlowReq), q.cls ≤ x.cls) ∧ q.write = none ∧ q.len = 4 ∧
      RangeGood State.reset 0 slow0 4 true ∧ MemoryOpen State.reset ((List.range 4).map (slow0 + ·)) [] ∧
      regionOf (slow0 - 1) ≠ .slow 0 ∧ regionOf slow0 = .slow 0 ∧ regionOf slow0 ≠ .slow 1 := by decide +kernel

theorem witness_SlowTierAccess_write : let q : SlowReq := ⟨0, slow0 + 2 ^ 38 - 4, some [1#8, 2#8, 3#8, 4#8], 0⟩
    q.write = some [1#8, 2#8, 3#8, 4#8] ∧ RangeGood State.reset 0 q.addr 4 true ∧
      MemoryOpen State.reset [] ((List.range 4).map (q.addr + ·)) ∧ (∀ k, k < 4 → State.reset.stagingDie (q.addr + k) = none) := by
  decide +kernel

/-- THR 85 and BAND 3 at reset: levels at 85, 88 and 91, the flag at 94 (Table 13.3). -/
theorem test_hbm_temp : (after (.hbmTempReading 2 87) State.reset).fd .hbmTemp 2 0 16 2 = 1 ∧
    (after (.hbmTempReading 2 88) State.reset).fd .hbmTemp 2 0 16 2 = 2 ∧
    (after (.hbmTempReading 2 91) State.reset).fd .hbmTemp 2 0 16 2 = 3 ∧
    (after (.hbmTempReading 2 93) State.reset).flag .hbmStat 2 0 2 = false ∧
    (after (.hbmTempReading 2 94) State.reset).flag .hbmStat 2 0 2 = true := by decide +kernel

/-- A level is left below its edge less HYST, after 32 readings (R432); at the edge it is kept. -/
theorem witness_HbmTempReading : let s := setAll [(.hbmTemp, 0, 0, 0x10000#64)] { State.reset with chip := { cool := [(0, 31)] } }
    s.fd .hbmTemp 0 0 16 2 = 1 ∧ s.fd .hbmThr 0 0 0 8 = 85 ∧ s.fd .hbmThr 0 0 8 4 = 2 ∧
      (after (.hbmTempReading 0 82) s).fd .hbmTemp 0 0 16 2 = 0 ∧ (after (.hbmTempReading 0 83) s).fd .hbmTemp 0 0 16 2 = 1 := by
  decide +kernel

theorem witness_FltClr : MayWrite State.reset .shingle .fltCtl := by decide +kernel

/-- A set point from 16 down to 4 is pending, due at tick 32; and one up to 16. -/
def setpointState (req cur tick : Nat) : State :=
  setAll [(.clkSetpt, 0, 0, BitVec.ofNat 64 (0x400000 + cur * 256 + req)), (.clkSetat, 0, 0, 32#64), (.clkTick, 0, 0, BitVec.ofNat 64 tick),
    (.clkStat, 0, 0, 1#64)] State.reset

theorem witness_SetpointChange :
    (let s := setpointState 4 16 48
     s.flag .clkSetpt 0 0 22 = true ∧ s.tick % 16 = 0 ∧ (s.rd .clkSetat 0 0).toNat < s.tick ∧
       s.fd .clkSetpt 0 0 0 5 < s.fd .clkSetpt 0 0 8 5) ∧
    (let s := setpointState 16 4 32
     s.flag .clkSetpt 0 0 22 = true ∧ s.tick % 16 = 0 ∧ (s.rd .clkSetat 0 0).toNat ≤ s.tick ∧
       s.fd .clkSetpt 0 0 8 5 ≤ s.fd .clkSetpt 0 0 0 5) ∧
    (setpointState 16 4 33).tick % 16 ≠ 0 ∧ (setpointState 16 4 33).flag .clkStat 0 0 0 = true := by decide +kernel

/-- An exchange on port 0, and corrections due. -/
def tickState (cfg stat : W64) (slew : Int) : State :=
  setAll [(.clkTickcfg, 0, 0, cfg), (.clkTickstat, 0, 0, stat), (.lnkStat, 0, 0, 5#64), (.clkTick, 0, 0, 2000#64), (.clkStat, 0, 0, 1#64)]
    { State.reset with chip := { slew := slew, goodEx := 3, slewAt := 976, tickSent := some 1900 } }

theorem witness_TickExchange : let s := tickState 0x80000000#64 0#64 0
    s.chip.tickSent = some 1900 ∧ State.reset.chip.tickSent = none ∧ s.flag .clkTickcfg 0 0 31 = true ∧ s.flag .clkTickcfg 0 0 30 = false ∧ s.portUp (s.fd .clkTickcfg 0 0 0 4) = true := by decide +kernel

/-- Offset ((110 − 100) − (130 − 120)) / 2 = 0 is the fourth good one: VALID and LOCK, the tick at T4 (R494). -/
theorem test_tick_exchange : (∀ odd, tickOffset 100 110 120 130 odd = 0) ∧
    (let t := (tickState 0x80000000#64 0#64 0).tickOutcome 130 0
     t.flag .clkTickstat 0 0 30 = true ∧ t.flag .clkTickstat 0 0 31 = true ∧ t.rd .clkTick 0 0 = 130#64) := by decide +kernel

theorem witness_TickSlew :
    (let s := tickState 0x80000000#64 0x40000000#64 2
     s.flag .clkTickstat 0 0 30 = true ∧ 0 < s.chip.slew ∧ s.chip.slewAt + 1024 ≤ s.tick) ∧
    ((tickState 0x80000000#64 0x40000000#64 (-2)).chip.slew < 0) ∧ (tickState 0x80000000#64 0#64 0).chip.slew = 0 := by decide +kernel

theorem witness_ClockAndPowerEvents :
    (let s := setAll [] { State.reset with chip := { coreOn := true, waves := 7 } }
     s.chip.coreOn = true ∧ s.chip.waves < 8 ∧ s.sec ≠ 6 ∧ s.fd .clkDroop 0 0 0 8 ≤ 40 ∧ 39 < s.fd .clkDroop 0 0 0 8) ∧
    (State.reset.chip.coreOn = false ∧ (setpointState 0 0 0).flag .clkStat 0 0 0 = true ∧ State.reset.chip.cut = false) := by decide +kernel

/-- Ten samples of 4,300 W are the limit, of 4,301 W beyond it (Table 15.5). -/
theorem test_peak : let s := { State.reset with chip := { watts := List.replicate 9 4300 } }
    (after (.powerSample 4300) s).flag .clkSetpt 0 0 23 = false ∧ (after (.powerSample 4301) s).flag .clkSetpt 0 0 23 = true ∧
    (after (.powerSample 4301) s).fd .clkSetpt 0 0 8 5 = 16 := by decide +kernel

/-- An average of 100 samples above the 3,600 W of PWR_CAP at reset. -/
theorem test_cap : let s := { State.reset with chip := { watts := List.replicate 99 3600 } }
    (after (.powerSample 3600) s).flag .pwrStat 0 0 0 = false ∧ (after (.powerSample 3601) s).flag .pwrStat 0 0 0 = true := by
  decide +kernel

/-- 95 °C alerts, 105 °C is the emergency set point, 115 °C trips (R500, R501). -/
theorem test_junction : (after (.junctionSample 94) State.reset).flag .pwrStat 0 0 2 = false ∧
    (after (.junctionSample 95) State.reset).flag .pwrStat 0 0 2 = true ∧ (after (.junctionSample 104) State.reset).flag .clkSetpt 0 0 23 = false ∧
    (after (.junctionSample 105) State.reset).flag .clkSetpt 0 0 23 = true ∧ (after (.junctionSample 114) State.reset).chip.trip = false ∧
    (after (.junctionSample 115) State.reset).chip.trip = true := by decide +kernel

/-- The thousandth sample in a row at 105 °C in the emergency set point. -/
theorem test_junction_hot : let s := setAll [(.clkSetpt, 0, 0, 0x801010#64)] { State.reset with chip := { hot := 999 } }
    (after (.junctionSample 105) s).chip.trip = true ∧ (after (.junctionSample 104) s).chip.trip = false := by decide +kernel

/-! ### Power-up, resets, tenant switch, self-test -/

/-- A chip that has left standby reset, its PLL locked, with this state and bookkeeping. -/
def chipState (sec : Nat) (c : Chip) (l : List (Reg × Nat × Nat × W64) := []) : State :=
  setAll ([(.secState, 0, 0, BitVec.ofNat 64 sec), (.clkStat, 0, 0, 1#64)] ++ l) { State.reset with chip := c }

/-- The commands of power-up; a flash that holds nothing fails the first check of R508. -/
theorem witness_PowerUpCompletes :
    State.reset.chip.released = false ∧
    (let s := setAll [] { State.reset with chip := { released := true } }
     s.chip.released = true ∧ s.flag .clkStat 0 0 0 = false) ∧
    (let s := chipState 0 { released := true }
     secOf s = 0 ∧ s.chip.released = true ∧ s.flag .clkStat 0 0 0 = true ∧ s.flag .rstStat 0 0 7 = false ∧
       s.imageFails s.chip.flash = some 0) ∧
    (let s := chipState 2 { released := true, bidx := 15, mainPg := true }
     s.chip.mainPg = true ∧ s.chip.started = false ∧ secOf s = 2 ∧ s.chip.bidx ≤ 31 ∧ 31 % 16 = s.chip.bidx ∧ 31 ≠ s.chip.bidx) ∧
    (let s := chipState 2 { started := true, domains := 4 }
     s.chip.started = true ∧ s.chip.cut = false ∧ s.chip.domains < 5 ∧ secOf s = 2 ∧ 4 ≤ s.chip.domains ∧ s.chip.trained = false ∧
       s.chip.rngBad = false) := by decide +kernel

/-- The last scrub of a power-up, one that is not the last, and one of a chip that is stranded. -/
theorem witness_ScrubComplete :
    (let s := chipState 3 {} [(.memScrub, 0, 0, 0x400#64)]
     s.flag .memScrub 0 0 10 = true ∧ s.chip.severNext = false ∧ s.chip.resetNext = false ∧ secOf s = 3 ∧
       s.rd .memScrub 0 0 = 1#64 <<< 10 ∧ secOf (after (.scrubComplete 9) s) = 4) ∧
    (let s := chipState 3 {} [(.memScrub, 0, 0, 0x6FF#64)]
     s.flag .memScrub 0 0 7 = true ∧ s.rd .memScrub 0 0 ≠ 1#64 <<< 7 ∧ secOf (after (.scrubComplete 7) s) = 3) ∧
    secOf (after (.scrubComplete 0) (chipState 3 { stranded := true } [(.memScrub, 0, 0, 1#64)])) = 7 := by decide +kernel

/-- A chip with an owner. -/
abbrev owned (sec : Nat) (l : List (Reg × Nat × Nat × W64) := []) : State := chipState sec { owner := some [1#8] } l

theorem witness_ResetsAndSwitchesComplete :
    ((owned 5).chip.anchor.isSome = true ∧ secOf (owned 5) ∈ [1, 2, 3, 4, 5, 7] ∧ secOf (owned 5) ∈ [4, 5, 7]) ∧
    (secOf (owned 6) = 6 ∧ (owned 6).chip.closed = false ∧ (owned 6).drained = true ∧ (owned 6).chip.rngBad = false) ∧
    (let s := chipState 6 { closed := true }
     secOf s = 6 ∧ s.chip.closed = true ∧ s.chip.coreOn = false ∧ s.rd .memScrub 0 0 = 0#64 ∧ s.chip.keysWait = false ∧
       s.chip.cut = false ∧ ({ s with chip := { s.chip with cut := true } } : State).chip.cut = true) ∧
    (∀ w ∈ [7, 8], ∀ k, k < 10 → let b : W64 := 1#64 <<< (if k < 8 then k else k + 1)
      let s := chipState 6 { closed := true, coreOn := true, waves := w } [(.memScrub, 0, 0, if w = 7 then 0#64 else b)]
      secOf s = 6 ∧ s.chip.closed = true ∧ s.chip.coreOn = true ∧ s.chip.keysWait = false ∧ s.chip.severNext = false ∧
        s.chip.resetNext = false ∧ s.fd .tstStat 0 0 0 2 ≠ 1 ∧ s.chip.waves = w ∧ s.rd .memScrub 0 0 = if w = 7 then 0#64 else b) ∧
    (secOf (owned 4) = 4 ∧ (owned 4).fd .rteDomain 0 0 0 16 = 0 ∧ (owned 4).fd .tstStat 0 0 0 2 ≠ 1 ∧ (owned 4).chip.anchor.isSome = true) ∧
    (let s := owned 4 [(.tstStat, 0, 0, 0x61#64)]
     s.fd .tstStat 0 0 0 2 = 1 ∧ s.fd .tstStat 0 0 4 4 = 6 ∧ secOf s ≠ 6) := by decide +kernel

/-- A main-power reset takes a running chip back to BOOT (R545). -/
theorem test_main_power_reset : let s := chipState 5 { mainPg := true, started := true }
    secOf (after (.mainPowerReset true) s) = 2 ∧ (after (.mainPowerReset true) s).flag .rstStat 0 0 5 = true ∧
    (after (.mainPowerReset false) s).flag .rstStat 0 0 5 = false := by decide +kernel

/-- Core 255 fails phase 3 (R541). -/
theorem test_self_test_phase : let t := after (.selfTestPhase [255] false) (owned 4 [(.tstStat, 0, 0, 0x31#64)])
    t.flag .tstFailcore 0 3 63 = true ∧ t.flag .tstStat 0 0 26 = true ∧ t.fd .tstStat 0 0 8 9 = 1 ∧ t.fd .tstStat 0 0 4 4 = 4 := by
  decide +kernel

/-! ### Requests to Headland -/

theorem witness_SettingRequestsComplete :
    (Asked (owned 4) [4, 5] ∧ (∀ p, p < 20 → (owned 4).fd .lnkStat p 0 0 3 = 0 ∨ (owned 4).fd .lnkStat p 0 0 3 = 6) ∧
      boardOf 0xFBEFBE = (owned 4).chip.bidx ∧ boardOf 1 ≠ (owned 4).chip.bidx) ∧
    (Asked (owned 4) [4] ∧ (owned 4).fd .rteDomain 0 0 0 16 = 0 ∧ (owned 4 [(.rteDomain, 0, 0, 9#64)]).fd .rteDomain 0 0 0 16 ≠ 0) ∧
    (Asked (owned 6) [3, 4, 5, 6, 7] ∧ ¬Asked (owned 6) [4] ∧ ¬Asked (owned 6) [4, 5] ∧ ¬Asked (owned 2) [3, 4, 5, 6, 7] ∧
      ¬Asked (chipState 4 {}) [3, 4, 5, 6, 7]) ∧
    ((owned 6).flag .clkSetpt 0 0 23 = false ∧ (owned 6).fd .csrId 0 0 16 8 = 0) := by decide +kernel

/-- Bits 12 to 15 of the stored value and its limits (R436). -/
theorem test_hbm_thr : (after (.setHbmThr 3 96 15 0) (owned 4)).rd .hbmThr 3 0 = 0x1F5F#64 ∧
    (after (.setHbmThr 3 69 0 15) (owned 4)).rd .hbmThr 3 0 = 0xF046#64 := by decide +kernel

/-- Set point 16 is the last one, and a 512E part refuses 3 (R2, R484). -/
theorem test_setpoint_request : let lite := owned 4 [(.csrId, 0, 0, 0x01014231#64)]
    (after (.setpointRequest 16 0#64) (owned 4)).flag .clkSetpt 0 0 20 = false ∧
    (after (.setpointRequest 17 0#64) (owned 4)).flag .clkSetpt 0 0 20 = true ∧
    (after (.setpointRequest 3 0#64) (owned 4)).flag .clkSetpt 0 0 20 = false ∧
    (after (.setpointRequest 4 0#64) lite).flag .clkSetpt 0 0 20 = false ∧ (after (.setpointRequest 3 0#64) lite).flag .clkSetpt 0 0 20 = true := by decide +kernel

/-- An image without the magic number fails check 0, one whose slot does not exist check 1; a slot from 4 on has no keys. -/
theorem witness_SecurityRequestsComplete :
    (Asked (owned 4) [0, 1, 2, 3, 4, 5, 7] ∧ (owned 4).manifestFails [] = some 0 ∧ ¬((4 : Nat) < 4)) ∧
    ((owned 4).manifestFails ([0x46#8, 0x4D#8, 0x57#8, 0x44#8, 1#8, 0#8, 0#8, 4#8]) = some 1) ∧
    (let s := chipState 4 { anchors := [[7#8]] }
     s.chip.anchor = none ∧ [7#8] ∈ s.chip.anchors ∧ [8#8] ∉ s.chip.anchors ∧ (owned 4).chip.anchor ≠ none ∧
       (chipState 4 { owner := some [1#8], ownerDiff := 1 }).chip.anchor = none) ∧
    (Asked (owned 4) [4, 5, 7] ∧ Asked (owned 6) [6] ∧ Asked (owned 7) [7] ∧ (owned 7).fd .tstStat 0 0 0 2 ≠ 1 ∧ secOf (owned 5) = 5 ∧
      secOf (owned 7) = 7) ∧
    (let s := chipState 4 {} [(.clkTick, 0, 0, 1200000000#64)]
     s.chip.live + 1200000000 ≤ s.tick ∧ State.reset.tick < State.reset.chip.live + 1200000000) ∧
    (let s := chipState 4 { dtls := 1 } [(.mgtHbt, 0, 0, 5#64)]
     s.chip.dtls ≠ 0 ∧ s.fd .mgtHbt 0 0 0 16 ≠ 0 ∧ State.reset.chip.dtls = 0 ∧
       (chipState 4 {} [(.mgtHbt, 0, 0, 0#64)]).fd .mgtHbt 0 0 0 16 = 0) ∧
    ((owned 4).chip.rngBad = false ∧ (chipState 4 { rngBad := true }).chip.rngBad = true) := by decide +kernel

/-- A slot that does not exist holds no keys, so a token of it does not unlock. -/
theorem witness_DebugUnlock_refused (nonce msg : List Byte) :
    ¬(Config.nonceIssued nonce = true ∧ (owned 4).slotSigned 4 [] [] msg [] [] = true) := by
  rintro ⟨-, h⟩
  simp [State.slotSigned, State.slotHolds] at h

/-- The fused version rises and never falls (R511). -/
theorem test_svn : (after .svnCommit (chipState 4 { owner := some [], fuseSvn := 3 } [(.secState, 0, 0, 0x05000004#64)])).chip.fuseSvn = 5 ∧
    (after .svnCommit (chipState 4 { owner := some [], fuseSvn := 9 } [(.secState, 0, 0, 0x05000004#64)])).chip.fuseSvn = 9 := by decide +kernel

/-- A step that commits the version of the running image (R511), from a state in which its clauses hold. -/
theorem witness_FusesOnlyGrow_commit :
    let s := { chipState 4 { owner := some [1#8], fuseSvn := 3 } [(.secState, 0, 0, 0x05000004#64)] with pending := [.svnCommit] }
    s.chip.anchor.isSome = true ∧ s.sec ∈ [0, 1, 2, 3, 4, 5, 7] ∧ s.fd .secState 0 0 24 8 = 5 ∧
      (match step s with | .next t => t.chip.fuseSvn | _ => 0) = 5 := by decide +kernel

/-- Values on which every clause of the comparisons of FP32 speaks: the least subnormal, 1, infinities and a NaN. -/
theorem witness_LaneComparisons_values : fvOf32 1#32 = .fin false 1 (-149) ∧ fvOf32 0x80000000#32 = .fin true 0 (-149) ∧
    fvOf32 0x3F800000#32 = .fin false 0x800000 (-23) ∧ fvOf32 0xFF800000#32 = .inf true ∧ isNan32 0x7F800000#32 = false ∧
    isNan32 0x7FC00000#32 = true := by decide +kernel

/-- −0 equals +0, −∞ lies below every finite value, and a NaN compares with nothing (R239). -/
theorem test_fcmp : fcmp32 0 0#32 0x80000000#32 = some true ∧ fcmp32 2 0x80000000#32 0#32 = some false ∧
    fcmp32 2 0xFF800000#32 0xFF7FFFFF#32 = some true ∧ fcmp32 5 0x7FC00000#32 0#32 = some false ∧
    fcmp32 1 0x7FC00000#32 0x7FC00000#32 = some true := by decide +kernel

/-! ### Attestation, test port, register writes -/

theorem witness_AttestationAndTestPortComplete :
    (let s := chipState 4 { handshakes := [(false, 2)], sessions := [(true, 1)], ideSess := some 1, signable := [([1#8], [2#8])] }
     s.spdmUp false = true ∧ s.chip.rngBad = false ∧ (false, 3) ∉ s.chip.sessions ∧ (false, 3) ∉ s.chip.handshakes ∧
       (false, 2) ∈ s.chip.handshakes ∧ (true, 1) ∈ s.chip.sessions ∧ s.chip.ideSess = some 1 ∧
       s.chip.signable.find? (fun e => e.1 == [1#8]) = some ([1#8], [2#8])) ∧
    (setAll [(.cxlLinkstat, 0, 0, 0x10#64)] State.reset).spdmUp true = true ∧
    (chipState 4 { mainPg := true }).chip.mainPg = true := by decide +kernel

/-- The identification code leaves bit 0 first, and one more bit is what was shifted in (R604). -/
theorem test_idcode : (after (.idcode (true :: List.replicate 32 false)) State.reset).outbox =
    [.tdo ([true, true, false, false, true, false, true, true, true, false, true, false, false, false, false, false,
      false, true, false, true, true, false, false, false, false, false, true, true, true, false, false, false, true])] := by
  decide +kernel

/-- Every register the statement names stands at its offset (R577), where Headland may write it; an unassigned
offset; IDE required and missing; a register the host may not write. -/
theorem witness_RegisterWritesComplete :
    (∀ r ∈ [Reg.gateWdog, .boreWdog, .boreNsaddr, .ebbMirwd, .ebbDone, .ebbStgbase, .ebbDonecore, .coreWaitwd, .cxlSteprec, .rteXcfg,
      .clkDroop, .clkTickcfg], locate (r.offset 0 0) = some ⟨r, 0, 0, 0⟩ ∧ (mayReach .headland r).2 = true) ∧
    (State.reset.ebb 0).checked = false ∧ locate 0x3FFFFF8 = none ∧ locate 0x3FFFFFC = none ∧
    (let s := setAll [(.cxlIdepol, 0, 0, 1#64), (.cxlLinkstat, 0, 0, 0x10#64)] State.reset
     s.ideMissing = true ∧ s.arrives .host = true) ∧ State.reset.ideMissing = false ∧ State.reset.arrives .host = false ∧
    State.reset.arrives .headland = true ∧
    (mayReach .host .secState).2 = false := by decide +kernel

/-- GATE_WDOG is 32 bits at 0x2500020; the same write of 2 B is refused and recorded (R579, R580). -/
theorem test_register_write : let s := setAll [(.cxlLinkstat, 0, 0, 0x10#64)] State.reset
    (after (.registerWrite .host 0x2500020 4 0x1234#64 []) s).rd .gateWdog 0 0 = 0x1234#64 ∧
    (after (.registerWrite .host 0x2500020 2 0x1234#64 []) s).rd .csrRefaddr 0 0 = 0x8030000002500020#64 ∧
    (after (.registerWrite .host 0x2500020 4 0x1234#64 []) State.reset).rd .gateWdog 0 0 = 0x1E8480#64 := by decide +kernel

end Sys2Proof.Tests
end

section
/-! SUPPORT. Laws of bit fields: what a word, and a register word, holds after one of its fields is set. -/

namespace Sys2Proof.Machine

open Sys2Proof.Claims

/-! ### Words -/

theorem getLsbD_maskOf (n lo len i : Nat) :
    (maskOf n lo len).getLsbD i = (decide (i < n) && (decide (lo ≤ i) && decide (i - lo < len))) := by
  rw [maskOf, BitVec.getLsbD_ofNat, Nat.testBit_mul_two_pow, Nat.testBit_two_pow_sub_one]

/-- Setting a field replaces the bits of the field and no other. -/
theorem getLsbD_setFld {n : Nat} (v : BitVec n) (lo len x i : Nat) :
    (setFld v lo len x).getLsbD i =
      if lo ≤ i ∧ i < lo + len then decide (i < n) && x.testBit (i - lo) else v.getLsbD i := by
  rw [setFld, BitVec.getLsbD_or, BitVec.getLsbD_and, BitVec.getLsbD_not, getLsbD_maskOf, BitVec.getLsbD_ofNat,
    Nat.testBit_mul_two_pow, Nat.testBit_mod_two_pow]
  by_cases hn : i < n
  · have hlen : lo ≤ i → (i - lo < len ↔ i < lo + len) := by omega
    by_cases hlo : lo ≤ i
    · by_cases h : i < lo + len <;> simp [hn, hlo, hlen hlo, h]
    · simp [hn, hlo]
  · simp [hn, BitVec.getLsbD_of_ge v i (by omega)]

theorem testBit_fld {n : Nat} (v : BitVec n) (lo len j : Nat) :
    (fld v lo len).testBit j = (decide (j < len) && v.getLsbD (lo + j)) := by
  simp [fld, BitVec.getLsbD, Nat.testBit_div_two_pow, Nat.add_comm]

/-- A field that was set reads as the number put there. -/
theorem fld_setFld_same {n : Nat} (v : BitVec n) (lo len x : Nat) (h : lo + len ≤ n) :
    fld (setFld v lo len x) lo len = x % 2 ^ len := by
  refine Nat.eq_of_testBit_eq fun j => ?_
  rw [testBit_fld, getLsbD_setFld, Nat.testBit_mod_two_pow]
  by_cases hj : j < len
  · have hn : lo + j < n := by omega
    simp [hj, hn]
  · simp [hj]

/-- Setting a field leaves what a mask selects outside it. -/
theorem setFld_and_of_disjoint {n : Nat} (v m : BitVec n) (lo len x : Nat) (h : maskOf n lo len &&& m = 0#n) :
    setFld v lo len x &&& m = v &&& m := by
  refine BitVec.eq_of_getLsbD_eq fun i hi => ?_
  have hm := congrArg (BitVec.getLsbD · i) h
  rw [BitVec.getLsbD_and, BitVec.getLsbD_and, getLsbD_setFld]
  split
  case isTrue hin =>
    have hlen : i - lo < len := by omega
    have hmi : m.getLsbD i = false := by simpa [getLsbD_maskOf, hi, hin.1, hlen] using hm
    simp [hmi]
  case isFalse => rfl

/-! ### Register words -/

variable (s : State)

theorem State.fd_setF_same (r : Reg) (n i lo len x : Nat) (h : lo + len ≤ 64) :
    (s.setF r n i lo len x).fd r n i lo len = x % 2 ^ len := by
  rw [State.fd, State.setF_eq, State.rd_wr, fld_setFld_same _ _ _ _ h]

/-- A flag that was raised is set. -/
theorem State.flag_raise_same (r : Reg) (n i k : Nat) (h : k < 64) : (s.raise r n i k).flag r n i k = true := by
  simp [State.flag, bit, State.raise, State.setF_eq, getLsbD_setFld, h]

/-- A counter field counts up to its largest value and holds there (Table 19.3). -/
theorem State.fd_count_same (r : Reg) (n i lo len k : Nat) (h : lo + len ≤ 64) :
    (s.count r n i lo len k).fd r n i lo len = min (s.fd r n i lo len + k) (2 ^ len - 1) := by
  have hpos : 0 < 2 ^ len := Nat.two_pow_pos len
  rw [State.count, s.fd_setF_same _ _ _ _ _ _ h, satAdd, Nat.mod_eq_of_lt (by omega)]

theorem sameBits_setF (r : Reg) (n i lo len x : Nat) (m : W64) (h : maskOf 64 lo len &&& m = 0#64) :
    SameBits r n i m s (s.setF r n i lo len x) := by
  rw [SameBits, State.setF_eq, State.rd_wr, setFld_and_of_disjoint _ _ _ _ _ h]

/-- Another word of the same register is as it was. -/
theorem State.rd_setF_word (r : Reg) (n i j lo len x : Nat) (h : j ≠ i) :
    (s.setF r n i lo len x).rd r n j = s.rd r n j :=
  s.rd_wr_ne _ _ _ _ _ _ _ fun e => h e.2.2.symm

theorem sameRegs_wr (r : Reg) (n i : Nat) (v : W64) : SameRegs [r] s (s.wr r n i v) :=
  fun _ _ _ h => s.rd_wr_reg _ _ _ _ _ _ _ (Ne.symm (mt List.mem_singleton.2 h))

theorem onlyRegs_wr (r : Reg) (n i : Nat) (v : W64) : OnlyRegs s (s.wr r n i v) := ⟨_, rfl⟩

end Sys2Proof.Machine
end

section
/-! SUPPORT. Doorbells (R463, R472, R478): which write becomes a doorbell of which ring or queue, and what the doorbell
does then. -/

namespace Sys2Proof.Machine

open Sys2Proof.Claims

variable (s : State)

/-! ### CXL_STAT -/

/-- A vector goes out or becomes pending in the port's table; nothing else changes. -/
theorem State.vector_spec (v : Nat) : ∃ cxl outbox, s.vector v = { s with cxl := cxl, outbox := outbox } := by
  unfold State.vector
  split <;> exact ⟨_, _, rfl⟩

/-- Raising a bit of CXL_STAT sets it, and changes beside CXL_STAT only the port's table and what the chip has sent. -/
theorem State.cxlRaise_spec (k : Nat) (hk : k < 64) :
    (s.cxlRaise k).flag .cxlStat 0 0 k = true ∧ SameRegs [.cxlStat] s (s.cxlRaise k) ∧
      ∃ regs cxl outbox, s.cxlRaise k = { s with regs := regs, cxl := cxl, outbox := outbox } := by
  unfold State.cxlRaise
  by_cases h : s.flag .cxlStat 0 0 k = true
  · rw [if_pos h]
    exact ⟨h, fun _ _ _ _ => rfl, _, _, _, rfl⟩
  · rw [if_neg h]
    obtain ⟨cxl, outbox, hv⟩ := (s.raise .cxlStat 0 0 k).vector_spec 0
    rw [hv]
    exact ⟨s.flag_raise_same _ _ _ _ hk, sameRegs_wr s _ _ _ _, _, _, _, rfl⟩

/-! ### Writes that become doorbells -/

/-- An aligned 8 B write of the host into an open BAR2 below the end of the queues is a doorbell. -/
theorem State.bar2Write_of_open (c : Instr) (k : Nat) (v : W64) (h : BarOpen s) (hk : 8 * k < 0x48000) :
    s.bar2Write c (8 * k) 8 v = if k < 0x8000 then s.ringDoorbell k v else s.cqDoorbell (k - 0x8000) v := by
  obtain ⟨hup, hsec, hide⟩ := h
  have hup' : s.cxlUp = true := by simpa [State.cxlUp] using hup
  have hheld : s.portHeld = false := decide_eq_false (Nat.not_lt.2 hsec)
  have hring : 8 * k < 0x40000 ↔ k < 0x8000 := by omega
  have hdiv : (8 * k - 0x40000) / 8 = k - 0x8000 := by omega
  simp [State.bar2Write, hup', hheld, hide, hring, hdiv, hk]

theorem exec_doorbell_host (off size : Nat) (v : W64) :
    exec (.doorbell .host off size v) s = .next (s.bar2Write (.doorbell .host off size v) off size v) := rfl

theorem exec_doorbell_shingle (off size : Nat) (v : W64) :
    exec (.doorbell .shingle off size v) s = .next (s.gated .shingle .cxlDb 0 0 fun s => s.cxlDbWrite size v) := rfl

theorem exec_cqHeadDoorbell (off size : Nat) (v : W64) :
    exec (.cqHeadDoorbell off size v) s = .next (s.bar2Write (.cqHeadDoorbell off size v) off size v) := rfl

/-- Shingle may write CXL_DB (Table 19.2). -/
theorem State.gated_shingle_cxlDb (act : State → State) : s.gated .shingle .cxlDb 0 0 act = act s := rfl

/-- A write of CXL_DB names a ring in bits [30:16] and its TAIL in bits [15:0] (R463). -/
theorem State.cxlDbWrite_eq (r : Nat) (v : W64) (hr : r < 32768) (hv : v.toNat < 2 ^ 16) :
    s.cxlDbWrite 8 (BitVec.ofNat 64 (r * 2 ^ 16 + v.toNat)) = s.ringDoorbell r v := by
  have hw : (BitVec.ofNat 64 (r * 2 ^ 16 + v.toNat)).toNat = r * 2 ^ 16 + v.toNat := by
    rw [BitVec.toNat_ofNat, Nat.mod_eq_of_lt (by omega)]
  have hhigh : fld (BitVec.ofNat 64 (r * 2 ^ 16 + v.toNat)) 31 33 = 0 := by rw [fld, hw]; omega
  have hring : fld (BitVec.ofNat 64 (r * 2 ^ 16 + v.toNat)) 16 15 = r := by rw [fld, hw]; omega
  have htail : fld (BitVec.ofNat 64 (r * 2 ^ 16 + v.toNat)) 0 16 = v.toNat := by rw [fld, hw]; omega
  rw [State.cxlDbWrite, hhigh, hring, htail, BitVec.ofNat_toNat, BitVec.setWidth_eq]
  simp

/-- The host's write at BAR2 offset 8r and Shingle's write of CXL_DB are the same doorbell of ring `r` (R463). -/
theorem exec_doorbell_eq_ringDoorbell (r : Nat) (v : W64) (hr : r < 32768) (c : Instr)
    (hc : c = .doorbell .host (8 * r) 8 v ∧ BarOpen s ∨
      c = .doorbell .shingle 0 8 (BitVec.ofNat 64 (r * 2 ^ 16 + v.toNat)) ∧ v.toNat < 2 ^ 16) :
    exec c s = .next (s.ringDoorbell r v) := by
  obtain ⟨rfl, hopen⟩ | ⟨rfl, hv⟩ := hc
  · rw [exec_doorbell_host, s.bar2Write_of_open _ r v hopen (by omega), if_pos hr]
  · rw [exec_doorbell_shingle, s.gated_shingle_cxlDb, s.cxlDbWrite_eq r v hr hv]

/-- The host's write at BAR2 offset 0x4_0000 + 8q is a doorbell of queue `q` (R472). -/
theorem exec_cqHeadDoorbell_eq_cqDoorbell (q : Nat) (v : W64) (hq : q < 4096) (hopen : BarOpen s) :
    exec (.cqHeadDoorbell (0x40000 + 8 * q) 8 v) s = .next (s.cqDoorbell q v) := by
  have hoff : 0x40000 + 8 * q = 8 * (0x8000 + q) := by omega
  rw [exec_cqHeadDoorbell, hoff, s.bar2Write_of_open _ _ v hopen (by omega), if_neg (by omega), Nat.add_sub_cancel_left]

/-! ### What a ring doorbell does -/

/-- A doorbell of ring `r` is in order: the ring is ACTIVE, TAIL stands inside it and leaves the slots of the record that is taken
pending (R463). -/
def State.DoorbellFits (s : State) (r : Nat) (v : W64) : Prop :=
  s.fd .cxlRingstat 0 r 32 2 = 1 ∧ v.toNat < (s.ring r).size ∧
    (s.ring r).taken ≤ (v.toNat + (s.ring r).size - s.fd .cxlRingstat 0 r 0 16) % (s.ring r).size

theorem State.ringDoorbell_of_fits (r : Nat) (v : W64) (hs : s.isStranded = false) (h : s.DoorbellFits r v) :
    s.ringDoorbell r v = s.setF .cxlRingstat 0 r 16 16 v.toNat := by
  obtain ⟨hact, hin, htaken⟩ := h
  simp [State.ringDoorbell, State.ringState, State.ringHead, hs, hact, hin, htaken]

theorem State.ringDoorbell_of_not_fits (r : Nat) (v : W64) (hs : s.isStranded = false) (h : ¬s.DoorbellFits r v) :
    s.ringDoorbell r v = s.cxlRaise 0 := by
  have hbad : s.ringState r ≠ 1 ∨ (s.ring r).size ≤ v.toNat ∨
      (v.toNat + (s.ring r).size - s.ringHead r) % (s.ring r).size < (s.ring r).taken := by
    by_contra hgood
    simp only [not_or, not_not, not_le, not_lt] at hgood
    exact h hgood
  simp [State.ringDoorbell, hs, hbad]

theorem State.ringDoorbell_of_stranded (r : Nat) (v : W64) (hs : s.isStranded = true) :
    s.ringDoorbell r v = s.count .cxlDbstr 0 0 0 32 1 := by
  simp [State.ringDoorbell, hs]

/-! ### What a queue doorbell does -/

theorem State.cqDoorbell_of_active (q : Nat) (v : W64) (hact : s.fd .cxlCqstat 0 q 32 1 = 1)
    (hin : v.toNat < 2 ^ (s.cq q).log2) : s.cqDoorbell q v = s.setCqPtrs q v.toNat (s.cqTail q) := by
  have hstate : s.cqState q % 2 = 1 := by
    simp only [State.fd, fld] at hact
    simp only [State.cqState, State.fd, fld]
    omega
  simp [State.cqDoorbell, hstate, hin]

/-- HEAD stands in bits [31:16] of the queue's status. -/
theorem State.fd_setCqPtrs_head (q head tail : Nat) : (s.setCqPtrs q head tail).fd .cxlCqstat 0 q 16 16 = head % 2 ^ 16 := by
  simp only [State.setCqPtrs, State.fd, State.rd_wr, fld, BitVec.toNat_ofNat]
  split <;> omega

/-- TAIL stands in bits [15:0] of the queue's status. -/
theorem State.fd_setCqPtrs_tail (q head tail : Nat) : (s.setCqPtrs q head tail).fd .cxlCqstat 0 q 0 16 = tail % 2 ^ 16 := by
  simp only [State.setCqPtrs, State.fd, State.rd_wr, fld, BitVec.toNat_ofNat]
  split <;> omega

/-- TAIL of a queue is a number of 16 bits. -/
theorem State.cqTail_lt (q : Nat) : s.cqTail q < 2 ^ 16 := Nat.mod_lt _ (Nat.two_pow_pos 16)

/-- Settles O34: both ways of ringing are one doorbell, which fits the ring, does not, or meets a stranded chip; a queue's sets its
HEAD beside the TAIL it had. -/
theorem doorbellsComplete : Obligations.DoorbellsComplete := by
  unfold Obligations.DoorbellsComplete
  intro s r v hr
  refine ⟨fun c hc => ?_, fun q hq hopen hact hin hv => ?_⟩
  · have hexec := exec_doorbell_eq_ringDoorbell s r v hr c hc
    refine ⟨fun hs hfits => ⟨_, hexec, ?_⟩, fun hs hfits => ⟨_, hexec, ?_⟩, fun hs => ⟨_, hexec, ?_⟩⟩
    · rw [s.ringDoorbell_of_fits r v hs hfits]
      exact ⟨s.fd_setF_same _ _ _ _ _ _ (by decide), sameBits_setF s _ _ _ _ _ _ _ (by decide),
        fun q hq => s.rd_setF_word _ _ _ _ _ _ _ hq, sameRegs_wr s _ _ _ _, onlyRegs_wr s _ _ _ _⟩
    · rw [s.ringDoorbell_of_not_fits r v hs hfits]
      obtain ⟨hflag, hregs, _, _, _, hframe⟩ := s.cxlRaise_spec 0 (by decide)
      refine ⟨hflag, hregs, ?_⟩
      rw [hframe]
      exact ⟨⟨fun _ => rfl, fun _ => rfl⟩, rfl⟩
    · rw [s.ringDoorbell_of_stranded r v hs]
      exact ⟨s.fd_count_same _ _ _ _ _ _ (by decide), sameRegs_wr s _ _ _ _, onlyRegs_wr s _ _ _ _⟩
  · refine ⟨_, exec_cqHeadDoorbell_eq_cqDoorbell s q v hq hopen, ?_⟩
    rw [s.cqDoorbell_of_active q v hact hin]
    exact ⟨(s.fd_setCqPtrs_head _ _ _).trans (Nat.mod_eq_of_lt hv),
      (s.fd_setCqPtrs_tail _ _ _).trans (Nat.mod_eq_of_lt (s.cqTail_lt q)), sameRegs_wr s _ _ _ _, onlyRegs_wr s _ _ _ _⟩

end Sys2Proof.Machine
end

section
/-! SUPPORT. Check units of HBM and the slow tiers: runs of one unit, reads and writes whose units all pass their check, and
when nothing holds an access back. -/

namespace Sys2Proof.Machine

open Sys2Proof.Claims

variable (s : State)

/-! ### Check units -/

/-- Regions begin and end at unit boundaries (Table 13.1). -/
theorem regionOf_unit (a : Nat) : regionOf (a / 64 * 64) = regionOf a := by
  have h : ∀ b, b % 64 = 0 → (a / 64 * 64 < b ↔ a < b) := by omega
  simp only [regionOf, spadBase, ctlBase, h, Nat.reduceMod, Nat.reduceAdd]
  congr

theorem inScratch_unit (a : Nat) : inScratch (a / 64 * 64) = inScratch a := by rw [inScratch, regionOf_unit, inScratch]

theorem granule_of_not_scratch {a : Nat} (h : inScratch a = false) : granule a = a / 64 * 64 := by simp [granule, h]

theorem State.cellStatus_of_not_scratch {a : Nat} (h : inScratch a = false) :
    s.cellStatus a = if s.isBad (a / 64 * 64) then 5 else 0 := by
  simp [State.cellStatus, h, granule_of_not_scratch h]

/-- A unit ends an access as each of its bytes does. -/
theorem State.cellStatus_granule {a : Nat} (h : inScratch a = false) : s.cellStatus (granule a) = s.cellStatus a := by
  have hdiv : a / 64 * 64 / 64 = a / 64 := by omega
  rw [granule_of_not_scratch h, s.cellStatus_of_not_scratch h,
    s.cellStatus_of_not_scratch ((inScratch_unit a).trans h), hdiv]

/-! ### Runs -/

/-- Runs laid end to end are the list. -/
theorem flatMap_groupRuns {α : Type} (key : α → Nat) (l : List α) : (groupRuns key l).flatMap Prod.snd = l := by
  induction l with
  | nil => rfl
  | cons x t ih =>
    rw [groupRuns]
    cases hr : groupRuns key t with
    | nil => rw [hr] at ih; simp [← ih]
    | cons p r =>
      rw [hr] at ih
      dsimp only
      split <;> simp [← ih]

/-- A run holds an element, and its key is that of each element. -/
theorem key_of_mem_groupRuns {α : Type} (key : α → Nat) (l : List α) :
    ∀ g ∈ groupRuns key l, g.2 ≠ [] ∧ ∀ x ∈ g.2, key x = g.1 := by
  induction l with
  | nil => simp [groupRuns]
  | cons x t ih =>
    rw [groupRuns]
    cases hr : groupRuns key t with
    | nil => simp
    | cons p r =>
      rw [hr] at ih
      obtain ⟨hp, hrest⟩ := List.forall_mem_cons.1 ih
      dsimp only
      split
      case isTrue hk => exact List.forall_mem_cons.2 ⟨⟨by simp, List.forall_mem_cons.2 ⟨hk, hp.2⟩⟩, hrest⟩
      case isFalse => exact List.forall_mem_cons.2 ⟨by simp, ih⟩

/-- A property of keys that holds of every element's key holds of every run's. -/
theorem forall_groupRuns_key {α : Type} {key : α → Nat} {l : List α} {p : Nat → Prop} (h : ∀ x ∈ l, p (key x)) :
    ∀ g ∈ groupRuns key l, p g.1 := by
  intro g hg
  obtain ⟨hne, hkey⟩ := key_of_mem_groupRuns key l g hg
  obtain ⟨x, hx⟩ := List.exists_mem_of_ne_nil _ hne
  exact hkey x hx ▸ h x ((mem_groupRuns key l x).1 ⟨g, hg, hx⟩)

/-- Elements of one key are one run. -/
theorem groupRuns_of_key_eq {α : Type} {key : α → Nat} {k : Nat} (x : α) (l : List α) (h : ∀ y ∈ x :: l, key y = k) :
    groupRuns key (x :: l) = [(k, x :: l)] := by
  induction l generalizing x with
  | nil => simp [groupRuns, h x List.mem_cons_self]
  | cons y t ih =>
    rw [groupRuns, ih y fun z hz => h z (List.mem_cons_of_mem _ hz)]
    simp [h x List.mem_cons_self]

/-! ### Reads -/

/-- The byte can be read or written outside the scratchpads, and its unit passes its check. -/
def State.unitGood (s : State) (a : Nat) : Prop := inScratch a = false ∧ s.cellStatus a = 0

theorem State.failsAt_of_good {as : List Nat} (h : ∀ a ∈ as, s.unitGood a) : s.failsAt as = [] := by
  have hg : ∀ g ∈ groupRuns granule as, s.cellStatus g.1 = 0 :=
    forall_groupRuns_key (p := fun g => s.cellStatus g = 0) fun a ha => (s.cellStatus_granule (h a ha).1).trans (h a ha).2
  exact List.filterMap_eq_nil_iff.2 fun g hmem => by simp [hg g hmem]

/-! ### Writes -/

/-- A masked byte does not depend on check state. -/
theorem putBytes_with_bad (ws : List MWrite) (bad : List (Nat × Nat)) :
    ws.foldl State.putByte { s with bad := bad } = { ws.foldl State.putByte s with bad := bad } := by
  induction ws generalizing s with
  | nil => rfl
  | cons w t ih => exact ih (s.putByte w)

theorem putBytes_bad (ws : List MWrite) : (ws.foldl State.putByte s).bad = s.bad := by
  obtain ⟨⟨mem, h⟩, -⟩ := s.putBytes_spec ws
  rw [h]

/-- Units that pass their check in the one state pass it in the other. -/
def KeepsGood (bad bad' : List (Nat × Nat)) : Prop := ∀ g, Sparse.get 0 bad g = 0 → Sparse.get 0 bad' g = 0

theorem KeepsGood.unitGood {bad bad' : List (Nat × Nat)} {t t' : State} (h : KeepsGood bad bad') (hbad : t.bad = bad)
    (hbad' : t'.bad = bad') {a : Nat} (ha : t.unitGood a) : t'.unitGood a := by
  subst hbad hbad'
  obtain ⟨hs, hc⟩ := ha
  refine ⟨hs, ?_⟩
  rw [State.cellStatus_of_not_scratch _ hs] at hc ⊢
  have h0 := h (a / 64 * 64)
  simp [State.isBad] at hc ⊢
  exact h0 hc

/-- A write to a unit that passes its check puts the bytes. -/
theorem State.writeUnit_of_good (g : Nat) (ws : List MWrite) (h : s.cellStatus g = 0) :
    ∃ bad, s.writeUnit g ws = ({ ws.foldl State.putByte s with bad := bad }, 0) ∧ KeepsGood s.bad bad := by
  rw [State.writeUnit, h]
  by_cases hc : coversAll g ws = true
  · refine ⟨Sparse.set 0 s.bad g 0, by simp [hc, State.setBad, putBytes_bad, b2n], fun x hx => ?_⟩
    simp [hx]
  · exact ⟨s.bad, by simp [hc, ← putBytes_bad s ws], fun _ hx => hx⟩

/-- Writes whose units all pass their check put their bytes, and none fails. -/
theorem State.writeAll_of_good (ws : List MWrite) (h : ∀ w ∈ ws, s.unitGood w.addr) :
    ∃ bad, s.writeAll ws = ({ ws.foldl State.putByte s with bad := bad }, []) ∧ KeepsGood s.bad bad := by
  have hkeys : ∀ g ∈ groupRuns (fun w : MWrite => granule w.addr) ws, s.unitGood g.1 :=
    forall_groupRuns_key (p := s.unitGood) fun w hw => by
      obtain ⟨hs, hc⟩ := h w hw
      exact ⟨by rw [granule_of_not_scratch hs, inScratch_unit, hs], (s.cellStatus_granule hs).trans hc⟩
  have hflat := flatMap_groupRuns (fun w : MWrite => granule w.addr) ws
  rw [State.writeAll]
  generalize groupRuns (fun w : MWrite => granule w.addr) ws = l at hkeys hflat
  subst hflat
  clear h
  induction l generalizing s with
  | nil => exact ⟨s.bad, rfl, fun _ hx => hx⟩
  | cons g t ih =>
    obtain ⟨hg, ht⟩ := List.forall_mem_cons.1 hkeys
    obtain ⟨bad, hunit, hkeep⟩ := s.writeUnit_of_good g.1 g.2 hg.2
    obtain ⟨bad', hrest, hkeep'⟩ := ih { g.2.foldl State.putByte s with bad := bad }
      fun q hq => hkeep.unitGood rfl rfl (ht q hq)
    refine ⟨bad', ?_, fun x hx => hkeep' x (hkeep x hx)⟩
    rw [List.foldl_cons, hunit]
    refine hrest.trans ?_
    rw [putBytes_with_bad, List.flatMap_cons, List.foldl_append]

theorem byte_putByte_whole (a x : Nat) (v : Byte) :
    (s.putByte (.whole a v)).byte x = if a = x then v else s.byte x := by
  have hv : (s.byte a &&& ~~~0xFF#8) ||| (v &&& 0xFF#8) = v := by
    rw [show (0xFF#8 : Byte) = BitVec.allOnes 8 from rfl, BitVec.not_allOnes, BitVec.and_zero, BitVec.zero_or,
      BitVec.and_allOnes]
  rw [State.putByte, State.byte_setByte, MWrite.whole, hv]

/-- Whole bytes at offsets `is` from `u`: each takes its value, and every other byte is as it was. -/
theorem byte_putBytes_whole (u : Nat) (f : Nat → Byte) (is : List Nat) (x : Nat) :
    ((is.map fun i => MWrite.whole (u + i) (f i)).foldl State.putByte s).byte x =
      if u ≤ x ∧ x - u ∈ is then f (x - u) else s.byte x := by
  induction is generalizing s with
  | nil => simp
  | cons i t ih =>
    rw [List.map_cons, List.foldl_cons, ih, byte_putByte_whole]
    by_cases hi : u + i = x
    · subst hi; simp
    · have hne : u ≤ x → x - u ≠ i := by omega
      by_cases hx : u ≤ x <;> simp [hi, hx]
      simp [hne hx]

theorem wholeWrites_eq (a : Nat) (bs : List Byte) :
    wholeWrites a bs = (List.range bs.length).map fun i => MWrite.whole (a + i) (bs.getD i 0) := by
  refine List.ext_getElem (by simp [wholeWrites]) fun i h _ => ?_
  simp only [wholeWrites, List.length_map, List.length_zipIdx] at h
  simp [wholeWrites, h]

theorem wholeWrites_addr (a : Nat) (bs : List Byte) :
    (wholeWrites a bs).map (·.addr) = (List.range bs.length).map (a + ·) := by
  rw [wholeWrites_eq, List.map_map]; rfl

/-! ### Staging -/

theorem State.staged_of_none {as : List Nat} (h : ∀ a ∈ as, s.stagingDie a = none) : s.staged as = s := by
  have hdie : ∀ e, s.stageDie e (as.filter fun a => s.stagingDie a == some e) = s := fun e => by
    have hnil : (as.filter fun a => s.stagingDie a == some e) = [] :=
      List.filter_eq_nil_iff.2 fun a ha => by simp [h a ha]
    rw [hnil]; rfl
  rw [State.staged, List.foldl_cons, List.foldl_cons, List.foldl_nil, hdie 0, hdie 1]

/-- Writes outside the staging areas whose units all pass their check put their bytes, and that is all. -/
theorem State.land_of_good {ws : List MWrite} (h : ∀ w ∈ ws, s.unitGood w.addr)
    (hst : ∀ w ∈ ws, s.stagingDie w.addr = none) :
    ∃ bad, s.land ws = ({ ws.foldl State.putByte s with bad := bad }, []) ∧ KeepsGood s.bad bad := by
  obtain ⟨bad, hall, hkeep⟩ := s.writeAll_of_good ws h
  refine ⟨bad, ?_, hkeep⟩
  rw [State.land, hall]
  obtain ⟨⟨mem, hput⟩, -⟩ := s.putBytes_spec ws
  have hnone : ∀ a ∈ ws.map (·.addr), State.stagingDie { ws.foldl State.putByte s with bad := bad } a = none := by
    rw [hput]
    exact List.forall_mem_map.2 hst
  have hfilter : (ws.filter fun w => !([] : List (Nat × Nat)).any fun f => f.1 == granule w.addr) = ws := by simp
  dsimp only
  rw [hfilter, State.staged_of_none _ hnone]

/-! ### What holds an access back -/

theorem mem_unitsOf {as : List Nat} {u : Nat} (h : u ∈ unitsOf as) : ∃ a ∈ as, inScratch a = false ∧ a / 64 * 64 = u := by
  simpa [unitsOf, and_assoc] using h

/-- Nothing holds back what the memory is open to. -/
theorem State.heldBack_of_open {reads writes : List Nat} (h : MemoryOpen s reads writes) : s.heldBack reads writes = none := by
  obtain ⟨hclosed, hscrub, hwrite, hread⟩ := h
  have hany : (reads ++ writes).any s.scrubbing = false := List.any_eq_false.2 fun a ha => by simp [hscrub a ha]
  have hstage : writes.any s.stageHeld = false := List.any_eq_false.2 fun a ha => by simp [(hwrite a ha).1]
  have hw : ((unitsOf writes).filter fun u => s.hostHolds u != 0) = [] := List.filter_eq_nil_iff.2 fun u hu => by
    obtain ⟨a, ha, hs, rfl⟩ := mem_unitsOf hu
    simp [(hwrite a ha).2 hs]
  have hr : ((unitsOf reads).filter fun u => s.hostHolds u == 2 && !([] : List Nat).contains u) = [] :=
    List.filter_eq_nil_iff.2 fun u hu => by
      obtain ⟨a, ha, hs, rfl⟩ := mem_unitsOf hu
      simp [hread a ha hs]
  rw [State.heldBack, hclosed, hany, hstage]
  dsimp only
  rw [hw, hr]
  rfl

/-- What is open to all these accesses is open to some of them. -/
theorem memoryOpen_mono {s : State} {reads writes writes' : List Nat} (h : MemoryOpen s reads writes)
    (hsub : ∀ a ∈ writes', a ∈ writes) : MemoryOpen s reads writes' := by
  obtain ⟨hclosed, hscrub, hwrite, hread⟩ := h
  refine ⟨hclosed, fun a ha => hscrub a ?_, fun a ha => hwrite a (hsub a ha), hread⟩
  obtain hr | hw := List.mem_append.1 ha
  · exact List.mem_append_left _ hr
  · exact List.mem_append_right _ (hsub a hw)

theorem State.holding_of_open {c : Instr} {reads writes : List Nat} {act : State → State} (h : MemoryOpen s reads writes) :
    s.holding c reads writes act = act s := by
  rw [State.holding, s.heldBack_of_open h]

/-- An access to memory that is being scrubbed waits (R448). -/
theorem State.holding_of_scrubbing {c : Instr} {reads writes : List Nat} {act : State → State} (hclosed : s.chip.closed = false)
    {a : Nat} (ha : a ∈ reads ++ writes) (h : s.scrubbing a = true) : s.holding c reads writes act = s.hold c := by
  have hany : (reads ++ writes).any s.scrubbing = true := List.any_eq_true.2 ⟨a, ha, h⟩
  simp only [State.holding, State.heldBack, hclosed, hany]
  simp

/-- Closed memories discard an access and count it (R523). -/
theorem State.holding_of_closed {c : Instr} {reads writes : List Nat} {act : State → State} (hclosed : s.chip.closed = true)
    (h : reads ++ writes ≠ []) : s.holding c reads writes act = s.count .secSwdrop 0 0 0 32 1 := by
  have he : (reads ++ writes).isEmpty = false := List.isEmpty_eq_false_iff.2 h
  simp [State.holding, State.heldBack, hclosed, he]

end Sys2Proof.Machine
end

section
/-! SUPPORT. What a fault record and a failing unit leave in the registers, and fields beside one another in a word. -/

namespace Sys2Proof.Machine

open Sys2Proof.Claims

/-! ### Fields beside one another -/

/-- Setting a field leaves a field beside it. -/
theorem fld_setFld_of_disjoint {n : Nat} (v : BitVec n) (lo len x lo' len' : Nat) (h : lo + len ≤ lo' ∨ lo' + len' ≤ lo) :
    fld (setFld v lo len x) lo' len' = fld v lo' len' := by
  refine Nat.eq_of_testBit_eq fun j => ?_
  rw [testBit_fld, testBit_fld, getLsbD_setFld]
  by_cases hj : j < len'
  · rw [if_neg (by omega)]
  · simp [hj]

variable (s : State)

theorem State.fd_setF_of_disjoint (r : Reg) (n i lo len x lo' len' : Nat) (h : lo + len ≤ lo' ∨ lo' + len' ≤ lo) :
    (s.setF r n i lo len x).fd r n i lo' len' = s.fd r n i lo' len' := by
  rw [State.fd, State.setF_eq, State.rd_wr, fld_setFld_of_disjoint _ _ _ _ _ _ h, State.fd]

/-- Raising a flag leaves the flags that are set. -/
theorem State.flag_raise_mono (r : Reg) (n i k j : Nat) (h : s.flag r n i j = true) : (s.raise r n i k).flag r n i j = true := by
  have hj : j < 64 := BitVec.lt_of_getLsbD h
  simp only [State.flag, bit, State.raise, State.setF_eq, State.rd_wr, getLsbD_setFld] at h ⊢
  split
  case isTrue hk =>
    obtain rfl : j = k := by omega
    simp [hj]
  case isFalse => exact h

theorem State.fd_lt (r : Reg) (n i lo len : Nat) : s.fd r n i lo len < 2 ^ len := Nat.mod_lt _ (Nat.two_pow_pos len)

/-- Registers that two steps leave. -/
theorem sameRegs_trans {rs : List Reg} {s t u : State} (h : SameRegs rs s t) (h' : SameRegs rs t u) : SameRegs rs s u :=
  fun r n i hr => (h' r n i hr).trans (h r n i hr)

theorem sameRegs_mono {rs rs' : List Reg} {s t : State} (h : SameRegs rs s t) (hsub : rs ⊆ rs') : SameRegs rs' s t :=
  fun r n i hr => h r n i fun hmem => hr (hsub hmem)

theorem sameRegs_refl (rs : List Reg) : SameRegs rs s s := fun _ _ _ _ => rfl

/-! ### The fault log -/

/-- A record that enters the log takes the next sequence number. -/
theorem State.rd_faultStore_fltSeq (f : FaultRec) :
    (s.faultStore f).rd .fltSeq 0 0 = setFld (s.rd .fltSeq 0 0) 0 32 (s.fd .fltSeq 0 0 0 32 + 1) := by
  unfold State.faultStore
  dsimp only
  generalize f.image (s.rd .clkTick 0 0).toNat (s.fd .gateStep 0 0 0 48) (s.fd .fltSeq 0 0 0 32) = img
  generalize 8 * (if s.flag .fltHead 0 0 9 = true then 448 + s.fltSince % 64 else s.fd .fltHead 0 0 0 9) = k
  have hu : (s.wrWords .fltMem 0 k 8 img).rd .fltSeq 0 0 = s.rd .fltSeq 0 0 := s.rd_wrWords_reg _ _ _ _ _ _ _ _ (by decide)
  generalize s.wrWords .fltMem 0 k 8 img = u at hu
  generalize s.fd .fltSeq 0 0 0 32 + 1 = x
  have hv : (u.setF .fltSeq 0 0 0 32 x).rd .fltSeq 0 0 = setFld (s.rd .fltSeq 0 0) 0 32 x := by
    rw [State.setF_eq, State.rd_wr, hu]
  generalize u.setF .fltSeq 0 0 0 32 x = v at hv
  have hlost : (v.count .fltLost 0 0 0 32 1).rd .fltSeq 0 0 = v.rd .fltSeq 0 0 :=
    v.rd_count_reg _ _ _ _ _ _ _ _ _ (by decide)
  generalize v.count .fltLost 0 0 0 32 1 = w at hlost
  have hhead (y : Nat) : (v.setF .fltHead 0 0 0 9 y).rd .fltSeq 0 0 = v.rd .fltSeq 0 0 :=
    v.rd_setF_reg _ _ _ _ _ _ _ _ _ (by decide)
  generalize s.fd .fltHead 0 0 0 9 + 1 = y
  specialize hhead y
  generalize v.setF .fltHead 0 0 0 9 y = q at hhead
  have hfull : (q.raise .fltHead 0 0 9).rd .fltSeq 0 0 = q.rd .fltSeq 0 0 := q.rd_raise_reg _ _ _ _ _ _ _ (by decide)
  generalize q.raise .fltHead 0 0 9 = z at hfull
  have hcounts (t : State) (a b : Nat) : State.rd { t with fltSince := a, fltHeld := b } .fltSeq 0 0 = t.rd .fltSeq 0 0 := rfl
  have hsince (t : State) (a : Nat) : State.rd { t with fltSince := a } .fltSeq 0 0 = t.rd .fltSeq 0 0 := rfl
  split
  · split
    · exact (hcounts _ _ _).trans (hlost.trans hv)
    · exact (hcounts _ _ _).trans hv
  · split
    · exact (hsince _ _).trans (hfull.trans (hhead.trans hv))
    · exact hhead.trans hv

/-- A fault record takes a sequence number, whether the log takes it or not (R570). -/
theorem recorded_fault (f : FaultRec) : Recorded s (s.fault f) := by
  unfold Recorded State.fault
  split
  · have hlost (v : State) : (v.count .fltLost 0 0 0 32 1).fd .fltSeq 0 0 0 32 = v.fd .fltSeq 0 0 0 32 := by
      rw [State.fd, State.rd_count_reg _ _ _ _ _ _ _ _ _ _ (by decide), State.fd]
    rw [hlost, s.fd_setF_same _ _ _ _ _ _ (by decide)]
  · have hstore := s.rd_faultStore_fltSeq f
    show fld ((s.faultStore f).rd .fltSeq 0 0) 0 32 = _
    rw [hstore, fld_setFld_same _ _ _ _ (by decide)]

theorem sameRegs_fault (f : FaultRec) : SameRegs logRegs s (s.fault f) := by
  intro r n i h
  exact (s.fault_spec f).2 r n i fun hmem => h ((by decide : [Reg.fltMem, .fltSeq, .fltLost, .fltHead] ⊆ logRegs) hmem)

/-! ### Failing units -/

/-- A failing unit of HBM sets its stack's flag, counts, and is recorded; what changes are the stack's check registers and the
fault log (R430). -/
theorem State.reportUnit_hbm (c : Ctx) (g st : Nat) (h : regionOf g = .hbm ∨ regionOf g = .strandline) :
    let t := s.reportUnit c (g, st)
    t.flag .hbmStat (stackOf g) 0 0 = true ∧
      t.fd .hbmChkcnt (stackOf g) 0 0 32 = min (s.fd .hbmChkcnt (stackOf g) 0 0 32 + 1) (2 ^ 32 - 1) ∧ Recorded s t ∧
      SameRegs (.hbmStat :: .hbmChkcnt :: .hbmChkaddr :: logRegs) s t ∧
      ∃ regs a b w, t = { s with regs := regs, fltSince := a, fltHeld := b, fltWait := w } := by
  dsimp only
  generalize hk : stackOf g = k
  generalize hcap : (BitVec.ofNat 64 (2 ^ 63 + g) : W64) = cap
  let u := (s.count .hbmChkcnt k 0 0 32 1).raise .hbmStat k 0 0
  let v := if u.flag .hbmChkaddr k 0 63 then u else u.wr .hbmChkaddr k 0 cap
  obtain ⟨f, hf⟩ : ∃ f, s.reportUnit c (g, st) = v.fault f := by
    obtain h | h := h <;> exact ⟨_, by simp only [State.reportUnit, h, hk, hcap]; rfl⟩
  have hv : SameRegs [.hbmChkaddr] u v := by
    dsimp only [v]
    split
    · exact sameRegs_refl u _
    · exact sameRegs_wr u _ _ _ _
  have hregs : ∃ regs, v = { s with regs := regs } := by
    dsimp only [v]
    split <;> exact ⟨_, rfl⟩
  have hlog := sameRegs_fault v f
  have hstat : (v.fault f).rd .hbmStat k 0 = u.rd .hbmStat k 0 := (hlog _ _ _ (by decide)).trans (hv _ _ _ (by decide))
  have hcnt : (v.fault f).rd .hbmChkcnt k 0 = (s.count .hbmChkcnt k 0 0 32 1).rd .hbmChkcnt k 0 :=
    ((hlog _ _ _ (by decide)).trans (hv _ _ _ (by decide))).trans (State.rd_raise_reg _ _ _ _ _ _ _ _ (by decide))
  have hframe : SameRegs [.hbmStat, .hbmChkcnt] s u :=
    sameRegs_trans (sameRegs_mono (sameRegs_wr s _ _ _ _) (by simp)) (sameRegs_mono (sameRegs_wr _ .hbmStat k 0 _) (by simp))
  have hseq : u.rd .fltSeq 0 0 = s.rd .fltSeq 0 0 := hframe _ _ _ (by decide)
  rw [hf]
  refine ⟨?_, ?_, ?_, ?_, ?_⟩
  · rw [State.flag, hstat]
    exact State.flag_raise_same _ _ _ _ _ (by decide)
  · rw [State.fd, hcnt]
    exact s.fd_count_same _ _ _ _ _ _ (by decide)
  · have hrec := recorded_fault v f
    rwa [Recorded, State.fd, State.fd, hv _ _ _ (by decide), hseq] at hrec
  · exact sameRegs_trans (sameRegs_mono hframe (by simp))
      (sameRegs_trans (sameRegs_mono hv (by simp)) (sameRegs_mono hlog (by simp [logRegs])))
  · obtain ⟨regs, hregs⟩ := hregs
    obtain ⟨⟨regs', a, b, w, hfault⟩, -⟩ := v.fault_spec f
    exact ⟨regs', a, b, w, by rw [hfault, hregs]⟩

end Sys2Proof.Machine
end

section
/-! SUPPORT. The memory system's events (R281, R423, R426, R432, R571): an access whose units pass their check, one that fails, is
refused or waits, the request a slow-tier controller grants, and the stages of a temperature reading. -/

namespace Sys2Proof.Machine

open Sys2Proof.Claims

variable (s : State)

/-! ### Accesses -/

/-- A read whose units pass their check answers their bytes. -/
theorem State.memAccess_read {c : Instr} {src a n : Nat} (hopen : MemoryOpen s ((List.range n).map (a + ·)) [])
    (h : ∀ x ∈ (List.range n).map (a + ·), s.unitGood x) :
    s.memAccess c src a n none = s.emit (.memory a 0 (s.bytes a n)) := by
  rw [State.memAccess, s.holding_of_open hopen, s.failsAt_of_good h]
  simp [State.reportUnits, State.bytes, Function.comp_def]

/-- A write outside the staging areas whose units pass their check puts its bytes and is answered OK. -/
theorem State.memAccess_write {c : Instr} {src a n : Nat} {ws : List MWrite} (hopen : MemoryOpen s [] (ws.map (·.addr)))
    (h : ∀ w ∈ ws, s.unitGood w.addr) (hst : ∀ w ∈ ws, s.stagingDie w.addr = none) :
    ∃ mem bad, s.memAccess c src a n (some ws) = { s with mem := mem, bad := bad, outbox := s.outbox ++ [.memory a 0 []] } ∧
      mem = (ws.foldl State.putByte s).mem ∧ KeepsGood s.bad bad := by
  obtain ⟨bad, hland, hkeep⟩ := s.land_of_good h hst
  obtain ⟨⟨mem, hput⟩, -⟩ := s.putBytes_spec ws
  refine ⟨mem, bad, ?_, by rw [hput], hkeep⟩
  rw [State.memAccess, s.holding_of_open hopen]
  dsimp only
  rw [hland, hput]
  rfl

/-- An access that is refused is answered ADDR and recorded (R27). -/
theorem refused_memRefuse (src a : Nat) : Refused (.memory a 1 []) s (s.memRefuse src a) := by
  generalize hf : ({ cls := 1, evt := 1, src := src, status := 1, detail := a % 2 ^ 48 + 0xFF * 2 ^ 48 } : FaultRec) = f
  have hrefuse : s.memRefuse src a = (s.fault f).emit (.memory a 1 []) := by rw [← hf]; rfl
  obtain ⟨⟨regs, x, y, w, hfault⟩, -⟩ := s.fault_spec f
  rw [hrefuse]
  refine ⟨?_, recorded_fault s f, ?_, sameRegs_fault s f⟩
  · rw [hfault]; rfl
  · exact ⟨regs, x, y, w, s.outbox ++ [.memory a 1 []], by rw [hfault]; rfl⟩

/-! ### HBM units -/

theorem not_scratch_of_hbm {a : Nat} (h : regionOf a = .hbm ∨ regionOf a = .strandline) : inScratch a = false := by
  obtain h | h := h <;> simp [inScratch, h]

/-- The bytes of a 64 B unit. -/
theorem unit_eq_of_mem_unit {a x : Nat} (h : x ∈ (List.range 64).map (a / 64 * 64 + ·)) : x / 64 * 64 = a / 64 * 64 := by
  obtain ⟨i, hi, rfl⟩ := List.mem_map.1 h
  have := List.mem_range.1 hi
  omega

theorem regionOf_of_mem_unit {a x : Nat} (h : x ∈ (List.range 64).map (a / 64 * 64 + ·)) : regionOf x = regionOf (a / 64 * 64) := by
  rw [← regionOf_unit x, unit_eq_of_mem_unit h]

/-- Every byte of a unit of HBM that passes its check is good. -/
theorem State.unitGood_of_mem_unit {a x : Nat} (hr : regionOf (a / 64 * 64) = .hbm ∨ regionOf (a / 64 * 64) = .strandline)
    (hbad : s.isBad (a / 64 * 64) = false) (h : x ∈ (List.range 64).map (a / 64 * 64 + ·)) : s.unitGood x := by
  have hs : inScratch x = false := not_scratch_of_hbm (by rwa [regionOf_of_mem_unit h])
  exact ⟨hs, by rw [s.cellStatus_of_not_scratch hs, unit_eq_of_mem_unit h, hbad]; rfl⟩

/-- A unit that fails its check is what an access to it reports. -/
theorem State.failsAt_unit_bad {a : Nat} (hr : regionOf (a / 64 * 64) = .hbm ∨ regionOf (a / 64 * 64) = .strandline)
    (hbad : s.isBad (a / 64 * 64) = true) : s.failsAt ((List.range 64).map (a / 64 * 64 + ·)) = [(a / 64 * 64, 5)] := by
  have hkey : ∀ x ∈ (List.range 64).map (a / 64 * 64 + ·), granule x = a / 64 * 64 := fun x hx => by
    rw [granule_of_not_scratch (not_scratch_of_hbm (by rwa [regionOf_of_mem_unit hx])), unit_eq_of_mem_unit hx]
  have hrun : groupRuns granule ((List.range 64).map (a / 64 * 64 + ·)) = [(a / 64 * 64, (List.range 64).map (a / 64 * 64 + ·))] :=
    groupRuns_of_key_eq _ _ hkey
  have hst : s.cellStatus (a / 64 * 64) = 5 := by
    have hdiv : a / 64 * 64 / 64 = a / 64 := by omega
    rw [s.cellStatus_of_not_scratch (not_scratch_of_hbm hr), hdiv, hbad]; rfl
  rw [State.failsAt, hrun]
  simp [hst]

/-- A read of a unit of HBM that fails its check reports the unit and answers CHK with zeros. -/
theorem State.memAccess_read_bad {c : Instr} {src a : Nat} (hopen : MemoryOpen s ((List.range 64).map (a / 64 * 64 + ·)) [])
    (hr : regionOf (a / 64 * 64) = .hbm ∨ regionOf (a / 64 * 64) = .strandline) (hbad : s.isBad (a / 64 * 64) = true) :
    s.memAccess c src (a / 64 * 64) 64 none =
      (s.reportUnit { src := src } (a / 64 * 64, 5)).emit (.memory (a / 64 * 64) 5 (List.replicate 64 0#8)) := by
  have hgot : ((List.range 64).map (a / 64 * 64 + ·)).map (fun x =>
      if [(a / 64 * 64, 5)].any fun f => f.1 == granule x then 0#8 else s.byte x) = List.replicate 64 0#8 := by
    refine List.eq_replicate_iff.2 ⟨by simp, List.forall_mem_map.2 fun x hx => ?_⟩
    rw [granule_of_not_scratch (not_scratch_of_hbm (by rwa [regionOf_of_mem_unit hx])), unit_eq_of_mem_unit hx]
    simp
  rw [State.memAccess, s.holding_of_open hopen, s.failsAt_unit_bad hr hbad]
  dsimp only
  rw [hgot]
  rfl

/-! ### HBM_ACCESS -/

/-- The bytes that a mask selects of a unit at `u`. -/
def maskedWrites (u : Nat) (mask : W64) (data : List Byte) : List MWrite :=
  ((List.range 64).filter fun i => bit mask i).map fun i => MWrite.whole (u + i) (data.getD i 0#8)

/-- An access that R423 allows is one of its unit: in HBM, or in the strandline region a read or one of Ebb die 0. -/
theorem exec_hbmAccess_of_allowed {a : Agent} {addr : Nat} {write : Bool} {mask : W64} {data : List Byte}
    (h : regionOf (addr / 64 * 64) = .hbm ∨
      (regionOf (addr / 64 * 64) = .strandline ∧ (write = false ∨ agentCode a = 0x104))) :
    exec (.hbmAccess a addr write mask data) s = .next (s.memAccess (.hbmAccess a addr write mask data) (agentCode a)
      (addr / 64 * 64) 64 (if write then some (maskedWrites (addr / 64 * 64) mask data) else none)) := by
  show execHbmAccess a addr write mask data s = _
  obtain h | ⟨h, hw⟩ := h
  · simp only [execHbmAccess, h]; rfl
  · have hallow : (write && agentCode a != 0x104) = false := by obtain rfl | hc := hw <;> simp [*]
    simp only [execHbmAccess, h, hallow]; rfl

/-- Any other is refused. -/
theorem exec_hbmAccess_of_refused {a : Agent} {addr : Nat} {write : Bool} {mask : W64} {data : List Byte}
    (h : (regionOf (addr / 64 * 64) = .strandline ∧ write = true ∧ agentCode a ≠ 0x104) ∨
      (regionOf (addr / 64 * 64) ≠ .hbm ∧ regionOf (addr / 64 * 64) ≠ .strandline)) :
    exec (.hbmAccess a addr write mask data) s = .next (s.memRefuse (agentCode a) (addr / 64 * 64)) := by
  show execHbmAccess a addr write mask data s = _
  obtain ⟨h, rfl, hc⟩ | ⟨h, h'⟩ := h
  · simp [execHbmAccess, h, hc, ok]
  · unfold execHbmAccess
    dsimp only
    split
    · contradiction
    · contradiction
    · rfl

theorem exec_hbmAccess_read {a : Agent} {addr : Nat} {mask : W64} {data : List Byte}
    (hr : regionOf (addr / 64 * 64) = .hbm ∨ regionOf (addr / 64 * 64) = .strandline) :
    exec (.hbmAccess a addr false mask data) s =
      .next (s.memAccess (.hbmAccess a addr false mask data) (agentCode a) (addr / 64 * 64) 64 none) :=
  exec_hbmAccess_of_allowed s (hr.imp_right fun h => ⟨h, .inl rfl⟩)

theorem exec_hbmAccess_write {a : Agent} {addr : Nat} {mask : W64} {data : List Byte}
    (hr : regionOf (addr / 64 * 64) = .hbm ∨ (regionOf (addr / 64 * 64) = .strandline ∧ agentCode a = 0x104)) :
    exec (.hbmAccess a addr true mask data) s =
      .next (s.memAccess (.hbmAccess a addr true mask data) (agentCode a) (addr / 64 * 64) 64
        (some (maskedWrites (addr / 64 * 64) mask data))) :=
  exec_hbmAccess_of_allowed s (hr.imp_right fun h => ⟨h.1, .inr h.2⟩)

theorem maskedWrites_addr_mem {u : Nat} {mask : W64} {data : List Byte} {w : MWrite} (h : w ∈ maskedWrites u mask data) :
    w.addr ∈ (List.range 64).map (u + ·) := by
  obtain ⟨i, hi, rfl⟩ := List.mem_map.1 h
  exact List.mem_map.2 ⟨i, (List.mem_filter.1 hi).1, rfl⟩

/-- A masked write sets the bytes that its mask selects, and no other. -/
theorem byte_maskedWrites (u : Nat) (mask : W64) (data : List Byte) (x : Nat) :
    ((maskedWrites u mask data).foldl State.putByte s).byte x =
      if u ≤ x ∧ x < u + 64 ∧ mask.getLsbD (x - u) = true then data.getD (x - u) 0#8 else s.byte x := by
  rw [maskedWrites, byte_putBytes_whole]
  have hin : (u ≤ x ∧ x - u ∈ (List.range 64).filter fun i => bit mask i) ↔
      u ≤ x ∧ x < u + 64 ∧ mask.getLsbD (x - u) = true := by
    rw [List.mem_filter, List.mem_range, bit]
    constructor <;> rintro ⟨h1, h2, h3⟩ <;> exact ⟨h1, by omega, h3⟩
  exact if_congr hin rfl rfl

theorem stagingDie_of_not_slow {a : Nat} (h : ∀ e, regionOf a ≠ .slow e) : s.stagingDie a = none := by
  rw [State.stagingDie]
  split
  · rename_i e he; exact absurd he (h e)
  · rfl

/-- A write of a unit of HBM that passes its check. -/
theorem memAccess_write_unit {c : Instr} {src a : Nat} {mask : W64} {data : List Byte}
    (hr : regionOf (a / 64 * 64) = .hbm ∨ regionOf (a / 64 * 64) = .strandline)
    (hopen : MemoryOpen s [] ((List.range 64).map (a / 64 * 64 + ·))) (hbad : s.isBad (a / 64 * 64) = false) :
    let u := a / 64 * 64
    let t := s.memAccess c src u 64 (some (maskedWrites u mask data))
    t.outbox = s.outbox ++ [.memory u 0 []] ∧
      (∀ x, t.byte x = if u ≤ x ∧ x < u + 64 ∧ mask.getLsbD (x - u) = true then data.getD (x - u) 0#8 else s.byte x) ∧
      t.isBad u = false ∧ SameUnits s t ∧ SameRegs [] s t ∧ t.cores = s.cores ∧ t.chip = s.chip := by
  have hsub : ∀ x ∈ (maskedWrites (a / 64 * 64) mask data).map (·.addr), x ∈ (List.range 64).map (a / 64 * 64 + ·) :=
    List.forall_mem_map.2 fun w hw => maskedWrites_addr_mem hw
  have hgood : ∀ w ∈ maskedWrites (a / 64 * 64) mask data, s.unitGood w.addr := fun w hw =>
    s.unitGood_of_mem_unit hr hbad (maskedWrites_addr_mem hw)
  have hst : ∀ w ∈ maskedWrites (a / 64 * 64) mask data, s.stagingDie w.addr = none := fun w hw => by
    refine stagingDie_of_not_slow s fun e he => ?_
    rw [regionOf_of_mem_unit (maskedWrites_addr_mem hw)] at he
    simp [he] at hr
  obtain ⟨mem, bad, ht, hmem, hkeep⟩ := s.memAccess_write (c := c) (src := src) (a := a / 64 * 64) (n := 64) (memoryOpen_mono hopen hsub) hgood hst
  dsimp only
  rw [ht]
  refine ⟨rfl, fun x => ?_, ?_, ⟨rfl, rfl, rfl, rfl, rfl, rfl, rfl, rfl⟩, fun _ _ _ _ => rfl, rfl, rfl⟩
  · rw [← byte_maskedWrites]
    exact State.byte_congr _ _ hmem x
  · have h0 := hkeep (a / 64 * 64)
    simp [State.isBad] at hbad ⊢
    exact h0 hbad

/-- A read of a unit of HBM that fails its check. -/
theorem memAccess_read_bad_unit {c : Instr} {src a : Nat}
    (hr : regionOf (a / 64 * 64) = .hbm ∨ regionOf (a / 64 * 64) = .strandline)
    (hopen : MemoryOpen s ((List.range 64).map (a / 64 * 64 + ·)) []) (hbad : s.isBad (a / 64 * 64) = true) :
    let u := a / 64 * 64
    let t := s.memAccess c src u 64 none
    t.outbox = s.outbox ++ [.memory u 5 (List.replicate 64 0#8)] ∧ t.flag .hbmStat (stackOf u) 0 0 = true ∧
      t.fd .hbmChkcnt (stackOf u) 0 0 32 = min (s.fd .hbmChkcnt (stackOf u) 0 0 32 + 1) (2 ^ 32 - 1) ∧ Recorded s t ∧
      SameMem s t ∧ SameRegs (.hbmStat :: .hbmChkcnt :: .hbmChkaddr :: logRegs) s t ∧ t.cores = s.cores ∧ t.chip = s.chip := by
  obtain ⟨hflag, hcnt, hrec, hregs, regs, x, y, w, ht⟩ := s.reportUnit_hbm { src := src } (a / 64 * 64) 5 hr
  dsimp only
  rw [s.memAccess_read_bad hopen hr hbad]
  refine ⟨?_, hflag, hcnt, hrec, ?_, hregs, ?_, ?_⟩ <;> rw [ht]
  · rfl
  · exact ⟨fun _ => rfl, fun _ => rfl⟩
  · rfl
  · rfl

/-! ### SLOW_TIER_ACCESS -/

/-- One request against the best so far: it wins if its class is higher, which is a lower code (Table 9.2). -/
def grantStep (best : Option SlowReq) (q : SlowReq) : Option SlowReq :=
  match best with
  | none => some q
  | some x => if q.cls < x.cls then some q else some x

theorem grantOf_eq_foldl (reqs : List SlowReq) : grantOf reqs = reqs.foldl grantStep none := by
  rw [grantOf]
  congr 1
  funext best q
  cases best <;> rfl

/-- Requests that all lose to `q` leave a best that loses to `q`. -/
theorem foldl_grantStep_of_lower {q : SlowReq} {l : List SlowReq} {best : Option SlowReq} (hbest : ∀ x ∈ best, q.cls < x.cls)
    (hl : ∀ x ∈ l, q.cls < x.cls) : ∀ x ∈ l.foldl grantStep best, q.cls < x.cls := by
  induction l generalizing best with
  | nil => exact hbest
  | cons y t ih =>
    obtain ⟨hy, ht⟩ := List.forall_mem_cons.1 hl
    refine ih (fun x hx => ?_) ht
    cases best with
    | none => cases hx; exact hy
    | some b =>
      simp only [grantStep] at hx
      split at hx <;> cases hx
      · exact hy
      · exact hbest x rfl

/-- A request stays the best against requests of no higher class. -/
theorem foldl_grantStep_of_highest {q : SlowReq} {r : List SlowReq} (hr : ∀ x ∈ r, q.cls ≤ x.cls) :
    r.foldl grantStep (some q) = some q := by
  induction r with
  | nil => rfl
  | cons y t ih =>
    obtain ⟨hy, ht⟩ := List.forall_mem_cons.1 hr
    have hstep : grantStep (some q) y = some q := if_neg (Nat.not_lt.2 hy)
    rw [List.foldl_cons, hstep, ih ht]

/-- The oldest request of the highest class is granted (R281). -/
theorem grantOf_append_cons {l r : List SlowReq} {q : SlowReq} (hl : ∀ x ∈ l, q.cls < x.cls) (hr : ∀ x ∈ r, q.cls ≤ x.cls) :
    grantOf (l ++ q :: r) = some q := by
  have hbest := foldl_grantStep_of_lower (best := none) (by simp) hl
  have hwin : grantStep (l.foldl grantStep none) q = some q := by
    cases h : l.foldl grantStep none with
    | none => rfl
    | some x => exact if_pos (hbest x h)
  rw [grantOf_eq_foldl, List.foldl_append, List.foldl_cons, hwin, foldl_grantStep_of_highest hr]

/-- The bytes that a slow-tier request reads or writes. -/
def slowLen (q : SlowReq) : Nat :=
  match q.write with
  | some bs => bs.length
  | none => q.len

/-- The granted request is performed if its range lies in the die's own memory, and refused otherwise. -/
theorem exec_slowTierAccess_of_grant {die : Nat} {reqs : List SlowReq} {q : SlowReq} (h : grantOf reqs = some q)
    (hn : 0 < slowLen q) :
    exec (.slowTierAccess die reqs) s = .next
      (if regionOf q.addr = .slow die ∧ regionOf (q.addr + slowLen q - 1) = .slow die then
        s.memAccess (.slowTierAccess die [q]) (0x104 + die) q.addr (slowLen q) (q.write.map (wholeWrites q.addr))
      else s.memRefuse (0x104 + die) q.addr) := by
  show execSlowTierAccess die reqs s = _
  rw [execSlowTierAccess, h]
  show (if slowLen q = 0 then _ else _) = _
  rw [if_neg (by omega)]
  have hends : (regionOf q.addr == Region.slow die && regionOf (q.addr + slowLen q - 1) == Region.slow die) = true ↔
      regionOf q.addr = .slow die ∧ regionOf (q.addr + slowLen q - 1) = .slow die := by
    rw [Bool.and_eq_true, beq_iff_eq, beq_iff_eq]
  refine (if_congr hends rfl rfl).trans ?_
  split <;> rfl

theorem slowLen_of_read {q : SlowReq} (h : q.write = none) : slowLen q = q.len := by rw [slowLen, h]

theorem slowLen_of_write {q : SlowReq} {bs : List Byte} (h : q.write = some bs) : slowLen q = bs.length := by
  rw [slowLen, h]

/-- Every byte of a good range is good. -/
theorem unitGood_of_rangeGood {s : State} {die a n x : Nat} (h : RangeGood s die a n true) (hx : x ∈ (List.range n).map (a + ·)) :
    s.unitGood x := by
  obtain ⟨i, hi, rfl⟩ := List.mem_map.1 hx
  have hi' := List.mem_range.1 hi
  obtain ⟨hr, hc⟩ := h (a + i) (by omega) (by omega)
  exact ⟨by simp [inScratch, hr], hc⟩

/-- A good range begins and ends in the die's memory. -/
theorem regionOf_ends_of_rangeGood {s : State} {die a n : Nat} (h : RangeGood s die a n true) (hn : 0 < n) :
    regionOf a = .slow die ∧ regionOf (a + n - 1) = .slow die :=
  ⟨(h a (by omega) (by omega)).1, (h (a + n - 1) (by omega) (by omega)).1⟩

theorem exec_slowTierAccess_of_good {die : Nat} {reqs : List SlowReq} {q : SlowReq} (h : grantOf reqs = some q)
    (hn : 0 < slowLen q) (hgood : RangeGood s die q.addr (slowLen q) true) :
    exec (.slowTierAccess die reqs) s =
      .next (s.memAccess (.slowTierAccess die [q]) (0x104 + die) q.addr (slowLen q) (q.write.map (wholeWrites q.addr))) := by
  rw [exec_slowTierAccess_of_grant s h hn, if_pos (regionOf_ends_of_rangeGood hgood hn)]

/-- Whole bytes from an address are the bytes that change. -/
theorem byte_wholeWrites (a : Nat) (bs : List Byte) (x : Nat) :
    ((wholeWrites a bs).foldl State.putByte s).byte x = if a ≤ x ∧ x < a + bs.length then bs.getD (x - a) 0 else s.byte x := by
  rw [wholeWrites_eq, byte_putBytes_whole]
  have hin : (a ≤ x ∧ x - a ∈ List.range bs.length) ↔ a ≤ x ∧ x < a + bs.length := by rw [List.mem_range]; omega
  exact if_congr hin rfl rfl

/-- A write of a good range outside the staging areas. -/
theorem memAccess_write_slow {c : Instr} {src die a : Nat} {bs : List Byte} (hgood : RangeGood s die a bs.length true)
    (hopen : MemoryOpen s [] ((List.range bs.length).map (a + ·)))
    (hst : ∀ x, a ≤ x → x < a + bs.length → s.stagingDie x = none) :
    let t := s.memAccess c src a bs.length (some (wholeWrites a bs))
    OnlyBytes a bs s t ∧ t.outbox = s.outbox ++ [.memory a 0 []] ∧ SameRegs [] s t ∧ SameUnits s t ∧ t.ebbs = s.ebbs ∧
      t.cores = s.cores := by
  have haddr : ∀ w ∈ wholeWrites a bs, w.addr ∈ (List.range bs.length).map (a + ·) := fun w hw => by
    rw [← wholeWrites_addr]; exact List.mem_map_of_mem hw
  have hstage : ∀ w ∈ wholeWrites a bs, s.stagingDie w.addr = none := fun w hw => by
    obtain ⟨i, hi, he⟩ := List.mem_map.1 (haddr w hw)
    have hi' := List.mem_range.1 hi
    exact hst _ (by omega) (by omega)
  rw [← wholeWrites_addr] at hopen
  obtain ⟨mem, bad, ht, hmem, -⟩ := s.memAccess_write (c := c) (src := src) (a := a) (n := bs.length) hopen
    (fun w hw => unitGood_of_rangeGood hgood (haddr w hw)) hstage
  dsimp only
  rw [ht]
  refine ⟨fun x => ?_, rfl, fun _ _ _ _ => rfl, ⟨rfl, rfl, rfl, rfl, rfl, rfl, rfl, rfl⟩, rfl, rfl⟩
  rw [← byte_wholeWrites]
  exact State.byte_congr _ _ hmem x

/-! ### HBM_TEMP_READING -/

/-- The highest level whose entering edge a reading meets (Table 13.3). -/
def metLevel (thr band temp : Nat) : Nat :=
  if thr + 2 * band ≤ temp then 3 else if thr + band ≤ temp then 2 else if thr ≤ temp then 1 else 0

theorem metLevel_lt (thr band temp : Nat) : metLevel thr band temp < 2 ^ 2 := by
  unfold metLevel
  split_ifs <;> decide

/-- A level rises to the edge met at once, falls by one after 32 readings below its leaving edge, and stays otherwise (R432). -/
theorem throttleStep_level (thr hyst band level cool temp : Nat) : (throttleStep thr hyst band level cool temp).1 =
    if level < metLevel thr band temp then metLevel thr band temp
    else if level ≠ 0 ∧ temp + hyst < thr + (level - 1) * band then if 32 ≤ cool + 1 then level - 1 else level
    else level := by
  rw [throttleStep]
  change Prod.fst (if level < metLevel thr band temp then (metLevel thr band temp, 0) else _) = _
  rw [apply_ite Prod.fst, apply_ite Prod.fst, apply_ite Prod.fst]
  rfl

theorem throttleStep_level_lt {thr hyst band level cool temp : Nat} (h : level < 2 ^ 2) :
    (throttleStep thr hyst band level cool temp).1 < 2 ^ 2 := by
  have hmet := metLevel_lt thr band temp
  rw [throttleStep_level]
  split_ifs <;> omega

/-- A reading in the stack's registers: time throttled, temperature and peak; the level `lv` and the readings in a row below its
leaving edge. -/
def State.noteReading (stack temp lv cool : Nat) : State :=
  let s := if s.fd .hbmTemp stack 0 16 2 = 0 then s else s.count .hbmThrtime stack 0 0 32 32
  let s := (s.setF .hbmTemp stack 0 0 8 temp).setF .hbmTemp stack 0 8 8 (max temp (s.fd .hbmTemp stack 0 8 8))
  (s.setF .hbmTemp stack 0 16 2 lv).modChip fun c => { c with cool := Sparse.set 0 c.cool stack cool }

/-- A change of level is flagged, reported and logged (R435). -/
def State.noteLevel (stack level lv : Nat) : State :=
  if lv = level then s
  else ((s.raise .hbmStat stack 0 1).report 5 [stack, lv]).modChip fun c =>
    { c with log := c.log ++ [((s.rd .clkTick 0 0).toNat, stack, lv)] }

/-- A level that throttles sets the chip's gate latch. -/
def State.noteThrottle (lv : Nat) : State := if lv = 0 then s else { s with gate := { s.gate with hthr := true } }

/-- A reading at the limit is flagged and reported (R434). -/
def State.noteLimit (stack limit temp : Nat) : State := if limit ≤ temp then (s.raise .hbmStat stack 0 2).report 6 [stack] else s

/-- What a stage of a reading changes: registers, the gate latch, the control complex, and what is sent. -/
def ReadingFrame (s t : State) : Prop :=
  ∃ regs gate chip out, t = { s with regs := regs, gate := gate, chip := chip, outbox := out }

theorem ReadingFrame.trans {s t u : State} (h : ReadingFrame s t) (h' : ReadingFrame t u) : ReadingFrame s u := by
  obtain ⟨_, _, _, _, rfl⟩ := h
  obtain ⟨_, _, _, _, rfl⟩ := h'
  exact ⟨_, _, _, _, rfl⟩

theorem State.noteReading_frame (stack temp lv cool : Nat) : ReadingFrame s (s.noteReading stack temp lv cool) := by
  unfold State.noteReading
  dsimp only
  split <;> exact ⟨_, _, _, _, rfl⟩

theorem State.noteLevel_frame (stack level lv : Nat) : ReadingFrame s (s.noteLevel stack level lv) := by
  unfold State.noteLevel
  split <;> exact ⟨_, _, _, _, rfl⟩

theorem State.noteThrottle_frame (lv : Nat) : ReadingFrame s (s.noteThrottle lv) := by
  unfold State.noteThrottle
  split <;> exact ⟨_, _, _, _, rfl⟩

theorem State.noteLimit_frame (stack limit temp : Nat) : ReadingFrame s (s.noteLimit stack limit temp) := by
  unfold State.noteLimit
  split <;> exact ⟨_, _, _, _, rfl⟩

/-- The three fields of HBM_TEMP after a reading. -/
theorem State.fd_hbmTemp_noteReading (stack temp lv cool : Nat) (ht : temp < 2 ^ 8) (hlv : lv < 2 ^ 2) :
    let t := s.noteReading stack temp lv cool
    t.fd .hbmTemp stack 0 0 8 = temp ∧ t.fd .hbmTemp stack 0 8 8 = max temp (s.fd .hbmTemp stack 0 8 8) ∧
      t.fd .hbmTemp stack 0 16 2 = lv := by
  have hpeak : (if s.fd .hbmTemp stack 0 16 2 = 0 then s else s.count .hbmThrtime stack 0 0 32 32).fd .hbmTemp stack 0 8 8 =
      s.fd .hbmTemp stack 0 8 8 := by
    split
    · rfl
    · rw [State.fd, State.rd_count_reg _ _ _ _ _ _ _ _ _ _ (by decide), State.fd]
  have hlt : max temp (s.fd .hbmTemp stack 0 8 8) < 2 ^ 8 := Nat.max_lt.2 ⟨ht, s.fd_lt _ _ _ _ _⟩
  have hchip (u : State) (f : Chip → Chip) (lo len : Nat) : (u.modChip f).fd .hbmTemp stack 0 lo len = u.fd .hbmTemp stack 0 lo len := rfl
  unfold State.noteReading
  dsimp only
  rw [hpeak]
  generalize (if s.fd .hbmTemp stack 0 16 2 = 0 then s else s.count .hbmThrtime stack 0 0 32 32) = u
  refine ⟨?_, ?_, ?_⟩
  · rw [hchip, State.fd_setF_of_disjoint _ _ _ _ _ _ _ _ _ (by decide), State.fd_setF_of_disjoint _ _ _ _ _ _ _ _ _ (by decide),
      State.fd_setF_same _ _ _ _ _ _ _ (by decide), Nat.mod_eq_of_lt ht]
  · rw [hchip, State.fd_setF_of_disjoint _ _ _ _ _ _ _ _ _ (by decide), State.fd_setF_same _ _ _ _ _ _ _ (by decide),
      Nat.mod_eq_of_lt hlt]
  · rw [hchip, State.fd_setF_same _ _ _ _ _ _ _ (by decide), Nat.mod_eq_of_lt hlv]

/-- The time throttled grows by a reading's 32 µs while the level is not 0 (R435). -/
theorem State.fd_hbmThrtime_noteReading (stack temp lv cool : Nat) :
    (s.noteReading stack temp lv cool).fd .hbmThrtime stack 0 0 32 =
      min (s.fd .hbmThrtime stack 0 0 32 + (if s.fd .hbmTemp stack 0 16 2 = 0 then 0 else 32)) (2 ^ 32 - 1) := by
  have hlt := s.fd_lt .hbmThrtime stack 0 0 32
  have htemp (u : State) (x y z : Nat) (f : Chip → Chip) :
      ((((u.setF .hbmTemp stack 0 0 8 x).setF .hbmTemp stack 0 8 8 y).setF .hbmTemp stack 0 16 2 z).modChip f).fd .hbmThrtime stack 0 0 32 =
        u.fd .hbmThrtime stack 0 0 32 := by
    show State.fd (((u.setF .hbmTemp stack 0 0 8 x).setF .hbmTemp stack 0 8 8 y).setF .hbmTemp stack 0 16 2 z) .hbmThrtime stack 0 0 32 = _
    simp [State.fd]
  unfold State.noteReading
  dsimp only
  rw [htemp]
  split
  · omega
  · exact s.fd_count_same _ _ _ _ _ _ (by decide)

theorem State.sameRegs_noteReading (stack temp lv cool : Nat) :
    SameRegs [.hbmTemp, .hbmThrtime] s (s.noteReading stack temp lv cool) := by
  intro r n i h
  have htemp : Reg.hbmTemp ≠ r := fun e => h (by simp [← e])
  have htime : Reg.hbmThrtime ≠ r := fun e => h (by simp [← e])
  have hchip (u : State) (f : Chip → Chip) : (u.modChip f).rd r n i = u.rd r n i := rfl
  unfold State.noteReading
  dsimp only
  rw [hchip, State.rd_setF_reg _ _ _ _ _ _ _ _ _ _ htemp, State.rd_setF_reg _ _ _ _ _ _ _ _ _ _ htemp,
    State.rd_setF_reg _ _ _ _ _ _ _ _ _ _ htemp]
  split
  · rfl
  · exact s.rd_count_reg _ _ _ _ _ _ _ _ _ htime

theorem State.log_noteReading (stack temp lv cool : Nat) : (s.noteReading stack temp lv cool).chip.log = s.chip.log := by
  unfold State.noteReading
  dsimp only
  split <;> rfl

/-- A change of level raises the flag and enters the log with the tick. -/
theorem State.noteLevel_spec (stack level lv : Nat) :
    let t := s.noteLevel stack level lv
    (lv ≠ level → t.flag .hbmStat stack 0 1 = true) ∧
      t.chip.log = s.chip.log ++ (if lv = level then [] else [((s.rd .clkTick 0 0).toNat, stack, lv)]) ∧ SameRegs [.hbmStat] s t := by
  unfold State.noteLevel
  dsimp only
  by_cases h : lv = level
  · rw [if_pos h, if_pos h, List.append_nil]
    exact ⟨fun hne => absurd h hne, rfl, sameRegs_refl s _⟩
  · rw [if_neg h, if_neg h]
    exact ⟨fun _ => s.flag_raise_same _ _ _ _ (by decide), rfl, sameRegs_wr s _ _ _ _⟩

theorem State.noteThrottle_spec (lv : Nat) :
    let t := s.noteThrottle lv
    (lv ≠ 0 → t.gate.hthr = true) ∧ t.chip = s.chip ∧ SameRegs [] s t := by
  unfold State.noteThrottle
  dsimp only
  by_cases h : lv = 0
  · rw [if_pos h]
    exact ⟨fun hne => absurd h hne, rfl, sameRegs_refl s _⟩
  · rw [if_neg h]
    exact ⟨fun _ => rfl, rfl, fun _ _ _ _ => rfl⟩

/-- A reading at the limit raises the flag, and leaves the flags that are set. -/
theorem State.noteLimit_spec (stack limit temp : Nat) :
    let t := s.noteLimit stack limit temp
    (limit ≤ temp → t.flag .hbmStat stack 0 2 = true) ∧ (s.flag .hbmStat stack 0 1 = true → t.flag .hbmStat stack 0 1 = true) ∧
      t.gate = s.gate ∧ t.chip = s.chip ∧ SameRegs [.hbmStat] s t := by
  unfold State.noteLimit
  dsimp only
  by_cases h : limit ≤ temp
  · rw [if_pos h]
    exact ⟨fun _ => s.flag_raise_same _ _ _ _ (by decide), s.flag_raise_mono _ _ _ _ _, rfl, rfl, sameRegs_wr s _ _ _ _⟩
  · rw [if_neg h]
    exact ⟨fun hle => absurd hle h, id, rfl, rfl, sameRegs_refl s _⟩

/-- The state after a reading, whose level and count below the edge are `lv` and `cool`. -/
def State.afterReading (stack temp limit lv cool : Nat) : State :=
  (((s.noteReading stack temp lv cool).noteLevel stack (s.fd .hbmTemp stack 0 16 2) lv).noteThrottle lv).noteLimit stack limit temp

theorem exec_hbmTempReading (stack temp : Nat) (h : temp < 2 ^ 8) :
    exec (.hbmTempReading stack temp) s =
      let thr := s.fd .hbmThr stack 0 0 8
      let band := s.fd .hbmThr stack 0 12 4
      let p := throttleStep thr (s.fd .hbmThr stack 0 8 4) band (s.fd .hbmTemp stack 0 16 2) (Sparse.get 0 s.chip.cool stack) temp
      .next (s.afterReading stack temp (thr + 3 * band) p.1 p.2) := by
  have hmin : min temp 255 = temp := by omega
  show execHbmTempReading stack temp s = _
  unfold execHbmTempReading
  rw [hmin]
  rfl

/-- What a reading leaves in the registers, the log and the gate latch, given the level it decides. -/
theorem State.afterReading_spec (stack temp limit lv cool : Nat) (htemp : temp < 2 ^ 8) (hlv : lv < 2 ^ 2) :
    let t := s.afterReading stack temp limit lv cool
    let level := s.fd .hbmTemp stack 0 16 2
    t.fd .hbmTemp stack 0 0 8 = temp ∧ t.fd .hbmTemp stack 0 8 8 = max temp (s.fd .hbmTemp stack 0 8 8) ∧
      t.fd .hbmTemp stack 0 16 2 = lv ∧ (lv ≠ level → t.flag .hbmStat stack 0 1 = true) ∧
      (limit ≤ temp → t.flag .hbmStat stack 0 2 = true) ∧ (lv ≠ 0 → t.gate.hthr = true) ∧
      t.chip.log = s.chip.log ++ (if lv = level then [] else [((s.rd .clkTick 0 0).toNat, stack, lv)]) ∧
      t.fd .hbmThrtime stack 0 0 32 = min (s.fd .hbmThrtime stack 0 0 32 + (if level = 0 then 0 else 32)) (2 ^ 32 - 1) ∧
      SameRegs [.hbmTemp, .hbmStat, .hbmThrtime] s t ∧ ReadingFrame s t := by
  dsimp only
  rw [State.afterReading]
  generalize hlevel : s.fd .hbmTemp stack 0 16 2 = level
  obtain ⟨hnow, hpeak, hlv'⟩ := s.fd_hbmTemp_noteReading stack temp lv cool htemp hlv
  have htime := s.fd_hbmThrtime_noteReading stack temp lv cool
  have hregs1 := s.sameRegs_noteReading stack temp lv cool
  have hlog1 := s.log_noteReading stack temp lv cool
  have hframe1 := s.noteReading_frame stack temp lv cool
  generalize s.noteReading stack temp lv cool = u at *
  obtain ⟨hflag2, hlog2, hregs2⟩ := u.noteLevel_spec stack level lv
  have hframe2 := u.noteLevel_frame stack level lv
  generalize u.noteLevel stack level lv = v at *
  obtain ⟨hgate3, hchip3, hregs3⟩ := v.noteThrottle_spec lv
  have hframe3 := v.noteThrottle_frame lv
  generalize v.noteThrottle lv = w at *
  obtain ⟨hflag4, hmono4, hgate4, hchip4, hregs4⟩ := w.noteLimit_spec stack limit temp
  have hframe4 := w.noteLimit_frame stack limit temp
  generalize w.noteLimit stack limit temp = t at *
  have hlater : SameRegs [.hbmStat] u t := sameRegs_trans (sameRegs_trans hregs2 (sameRegs_mono hregs3 (by simp))) hregs4
  have htempReg : t.rd .hbmTemp stack 0 = u.rd .hbmTemp stack 0 := hlater _ _ _ (by decide)
  have htimeReg : t.rd .hbmThrtime stack 0 = u.rd .hbmThrtime stack 0 := hlater _ _ _ (by decide)
  have hstatReg : w.rd .hbmStat stack 0 = v.rd .hbmStat stack 0 := hregs3 _ _ _ (by decide)
  have htick : u.rd .clkTick 0 0 = s.rd .clkTick 0 0 := hregs1 _ _ _ (by decide)
  refine ⟨?_, ?_, ?_, ?_, hflag4, ?_, ?_, ?_, ?_, ?_⟩
  · rwa [State.fd, htempReg]
  · rwa [State.fd, htempReg]
  · rwa [State.fd, htempReg]
  · exact fun hne => hmono4 (by rw [State.flag, hstatReg]; exact hflag2 hne)
  · exact fun hne => by rw [hgate4]; exact hgate3 hne
  · rw [hchip4, hchip3, hlog2, hlog1, htick]
  · rw [State.fd, htimeReg, ← hlevel]; exact htime
  · exact sameRegs_trans (sameRegs_mono hregs1 (by simp)) (sameRegs_mono hlater (by simp))
  · exact ((hframe1.trans hframe2).trans hframe3).trans hframe4

/-! ### FLT_CLR -/

theorem State.gated_of_mayWrite {a : Agent} {r : Reg} (n i : Nat) (act : State → State) (h : MayWrite s a r) :
    s.gated a r n i act = act s := by
  obtain ⟨harrive, hreach⟩ := h
  simp [State.gated, harrive, hreach]

theorem exec_fltClr {a : Agent} (h : MayWrite s a .fltCtl) : exec (.fltClr a) s = .next s.fltClear := by
  show Host.Outcome.next (s.gated a .fltCtl 0 0 State.fltClear) = _
  rw [s.gated_of_mayWrite 0 0 _ h]

/-! ### The commands together -/

/-- A read of a unit that is being scrubbed waits, and one of closed memories is discarded and counted. -/
theorem hbmAccess_heldBack {a : Agent} {addr : Nat} {mask : W64} {data : List Byte}
    (hr : regionOf (addr / 64 * 64) = .hbm ∨ regionOf (addr / 64 * 64) = .strandline) :
    (s.chip.closed = false → s.scrubbing (addr / 64 * 64) = true →
      exec (.hbmAccess a addr false mask data) s = .next (s.hold (.hbmAccess a addr false mask data))) ∧
    (s.chip.closed = true → exec (.hbmAccess a addr false mask data) s = .next (s.count .secSwdrop 0 0 0 32 1)) := by
  have hmem : addr / 64 * 64 ∈ (List.range 64).map (addr / 64 * 64 + ·) := List.mem_map.2 ⟨0, by decide, rfl⟩
  rw [exec_hbmAccess_read s hr, State.memAccess]
  refine ⟨fun hclosed hscrub => ?_, fun hclosed => ?_⟩
  · exact congrArg _ (s.holding_of_scrubbing hclosed (List.mem_append_left _ hmem) hscrub)
  · exact congrArg _ (s.holding_of_closed hclosed (List.ne_nil_of_mem (List.mem_append_left _ hmem)))

/-- Settles O53: each command by the lemma about its own kind of access or event. -/
theorem memoryCommandsComplete : Obligations.MemoryCommandsComplete := by
  unfold Obligations.MemoryCommandsComplete
  intro s
  refine ⟨fun a addr mask data => ⟨fun hr hopen => ⟨fun hbad => ?_, fun hbad => ?_⟩, fun hr hopen hbad => ?_, fun write h => ?_, ?_⟩,
    fun die l r q hl hr _ => ⟨?_, ?_, ?_⟩, fun die => rfl, fun stack temp htemp => ?_, fun k => ⟨rfl, rfl⟩, fun a ha => ?_⟩
  · rw [exec_hbmAccess_read s hr, s.memAccess_read hopen fun x hx => s.unitGood_of_mem_unit hr hbad hx]
    rfl
  · exact ⟨_, exec_hbmAccess_read s hr, memAccess_read_bad_unit s hr hopen hbad⟩
  · exact ⟨_, exec_hbmAccess_write s hr, memAccess_write_unit s (hr.imp_right And.left) hopen hbad⟩
  · exact ⟨_, exec_hbmAccess_of_refused s h, refused_memRefuse s _ _⟩
  · rintro c rfl hr
    obtain ⟨hheld, hclosed⟩ := hbmAccess_heldBack s (a := a) (mask := mask) (data := data) hr
    exact ⟨hheld, fun h => ⟨_, hclosed h, onlyRegs_wr s _ _ _ _, sameRegs_wr s _ _ _ _, s.fd_count_same _ _ _ _ _ _ (by decide)⟩⟩
  · rintro n hw rfl hn hgood hopen
    rw [← slowLen_of_read hw] at hn hgood hopen ⊢
    rw [exec_slowTierAccess_of_good s (grantOf_append_cons hl hr) hn hgood, hw, Option.map_none,
      s.memAccess_read hopen fun x hx => unitGood_of_rangeGood hgood hx]
    rfl
  · intro bs hw hne hgood hopen hst
    have hlen := slowLen_of_write hw
    have hn : 0 < slowLen q := hlen ▸ List.length_pos_iff.2 hne
    refine ⟨_, exec_slowTierAccess_of_good s (grantOf_append_cons hl hr) hn (hlen ▸ hgood), ?_⟩
    rw [hlen, hw, Option.map_some]
    exact memAccess_write_slow s hgood hopen hst
  · intro n hn hlen hout
    have hlen : slowLen q = n := by
      obtain ⟨hw, rfl⟩ | ⟨bs, hw, rfl⟩ := hlen
      · exact slowLen_of_read hw
      · exact slowLen_of_write hw
    subst hlen
    refine ⟨_, exec_slowTierAccess_of_grant s (grantOf_append_cons hl hr) hn, ?_⟩
    rw [if_neg (not_and_or.2 hout)]
    exact refused_memRefuse s _ _
  · intro thr hyst band level met below
    have hstep := throttleStep_level thr hyst band level (Sparse.get 0 s.chip.cool stack) temp
    have hlt : (throttleStep thr hyst band level (Sparse.get 0 s.chip.cool stack) temp).1 < 2 ^ 2 :=
      throttleStep_level_lt (s.fd_lt _ _ _ _ _)
    refine ⟨_, exec_hbmTempReading s stack temp htemp, ?_⟩
    generalize throttleStep thr hyst band level (Sparse.get 0 s.chip.cool stack) temp = p at hstep hlt
    obtain ⟨hnow, hpeak, hlv, hchange, hlimit, hgate, hlog, htime, hregs, _, _, _, _, hframe⟩ :=
      s.afterReading_spec stack temp (thr + 3 * band) p.1 p.2 htemp hlt
    refine ⟨hnow, hpeak, fun h => ?_, fun h hstay => ?_, fun h hbelow => ?_, ?_, hlimit, ?_, ?_, htime, hregs, ?_⟩
    · exact hlv.trans (hstep.trans (if_pos h))
    · exact hlv.trans (hstep.trans ((if_neg (Nat.not_lt.2 h)).trans (if_neg hstay)))
    · exact hlv.trans (hstep.trans ((if_neg (Nat.not_lt.2 h)).trans (if_pos hbelow)))
    · exact fun hne => hchange (hlv ▸ hne)
    · exact fun hne => hgate (hlv ▸ hne)
    · rw [hlv]
      exact hlog
    · rw [hframe]
      exact ⟨⟨fun _ => rfl, fun _ => rfl⟩, ⟨rfl, rfl, rfl, rfl, rfl, rfl, rfl, rfl⟩, rfl⟩
  · exact ⟨_, exec_fltClr s ha, s.rd_wr _ _ _ _, rfl, rfl, sameRegs_wr s _ _ _ _, _, _, _, _, _, rfl⟩

end Sys2Proof.Machine
end

section
/-! SUPPORT. Operations of the data engines (R139, R147, R170): what their stages leave alone, and how one that starts next on
its engine reads ahead or is done. -/

namespace Sys2Proof.Machine

open Sys2Proof.Claims

variable {s t u : State} {n : Nat} {rs ls : List Reg}

/-! ### What an operation may change -/

/-- Of the registers only `rs` of core `n` and `ls` change, of the cores only `n`; beside them only accumulators and the
bookkeeping of the fault log do. -/
structure OpEffect (n : Nat) (rs ls : List Reg) (s t : State) : Prop where
  regs : ∀ r m i, r ∉ ls → r ∉ rs ∨ m ≠ n → t.rd r m i = s.rd r m i
  cores : SameCores n s t
  frame : ∃ regs acc accBad cores a b w,
    t = { s with regs := regs, acc := acc, accBad := accBad, cores := cores, fltSince := a, fltHeld := b, fltWait := w }

/-- As `OpEffect`, with the accumulators and the core's operations in flight as they were. -/
structure StageEffect (n : Nat) (rs ls : List Reg) (s t : State) : Prop where
  regs : ∀ r m i, r ∉ ls → r ∉ rs ∨ m ≠ n → t.rd r m i = s.rd r m i
  cores : SameCores n s t
  flights : (t.core n).flights = (s.core n).flights
  frame : ∃ regs cores a b w, t = { s with regs := regs, cores := cores, fltSince := a, fltHeld := b, fltWait := w }

theorem OpEffect.trans (h : OpEffect n rs ls s t) (h' : OpEffect n rs ls t u) : OpEffect n rs ls s u where
  regs r m i hl hr := (h'.regs r m i hl hr).trans (h.regs r m i hl hr)
  cores m hm := (h'.cores m hm).trans (h.cores m hm)
  frame := by
    obtain ⟨_, _, _, _, _, _, _, rfl⟩ := h.frame
    obtain ⟨_, _, _, _, _, _, _, rfl⟩ := h'.frame
    exact ⟨_, _, _, _, _, _, _, rfl⟩

theorem StageEffect.refl (n : Nat) (rs ls : List Reg) (s : State) : StageEffect n rs ls s s :=
  ⟨fun _ _ _ _ _ => rfl, fun _ _ => rfl, rfl, _, _, _, _, _, rfl⟩

theorem StageEffect.trans (h : StageEffect n rs ls s t) (h' : StageEffect n rs ls t u) : StageEffect n rs ls s u where
  regs r m i hl hr := (h'.regs r m i hl hr).trans (h.regs r m i hl hr)
  cores m hm := (h'.cores m hm).trans (h.cores m hm)
  flights := h'.flights.trans h.flights
  frame := by
    obtain ⟨_, _, _, _, _, rfl⟩ := h.frame
    obtain ⟨_, _, _, _, _, rfl⟩ := h'.frame
    exact ⟨_, _, _, _, _, rfl⟩

theorem StageEffect.ite (p : Prop) [Decidable p] (h : StageEffect n rs ls s t) : StageEffect n rs ls s (if p then t else s) := by
  split
  · exact h
  · exact .refl n rs ls s

theorem StageEffect.toOpEffect (h : StageEffect n rs ls s t) : OpEffect n rs ls s t where
  regs := h.regs
  cores := h.cores
  frame := by
    obtain ⟨_, _, _, _, _, rfl⟩ := h.frame
    exact ⟨_, _, _, _, _, _, _, rfl⟩

theorem StageEffect.acc_eq (h : StageEffect n rs ls s t) : t.acc = s.acc ∧ t.accBad = s.accBad := by
  obtain ⟨_, _, _, _, _, rfl⟩ := h.frame
  exact ⟨rfl, rfl⟩

theorem OpEffect.sameMem (h : OpEffect n rs ls s t) : SameMem s t := by
  obtain ⟨_, _, _, _, _, _, _, rfl⟩ := h.frame
  exact ⟨fun _ => rfl, fun _ => rfl⟩

theorem OpEffect.sameKernelsAndLanes (h : OpEffect n rs ls s t) : SameKernelsAndLanes s t := by
  obtain ⟨_, _, _, _, _, _, _, rfl⟩ := h.frame
  exact ⟨rfl, rfl, rfl, rfl, rfl, rfl⟩

theorem OpEffect.sameOutside (h : OpEffect n rs ls s t) : SameOutside s t := by
  obtain ⟨_, _, _, _, _, _, _, rfl⟩ := h.frame
  exact ⟨rfl, rfl, rfl, rfl, rfl, rfl, rfl, rfl, rfl, rfl, rfl, rfl, rfl, rfl⟩

theorem OpEffect.sameUnits (h : OpEffect n rs ls s t) (hacc : t.acc = s.acc) (hbad : t.accBad = s.accBad) : SameUnits s t :=
  ⟨hacc, hbad, h.sameKernelsAndLanes⟩

/-- The registers that every operation may change (R117, R180, R573). -/
def opRegs : List Reg := [.coreStat, .dmaStat, .spdConfl, .trcMem, .trcStat, .cntVal]

theorem OpEffect.opFrame (h : OpEffect n (rs ++ opRegs) logRegs s t) : OpFrame n rs s t := ⟨h.regs, h.cores⟩

/-! ### Effects of the shared stages -/

theorem State.core_setCore (s : State) (n m : Nat) (c : CoreSt) : (s.setCore n c).core m = if n = m then c else s.core m :=
  Sparse.get_set _ _ _ _ _

theorem stageEffect_wr {r : Reg} {i : Nat} {v : W64} (hr : r ∈ rs) : StageEffect n rs ls s (s.wr r n i v) where
  regs q m j _ hq := s.rd_wr_ne _ _ _ _ _ _ _ (by rintro ⟨rfl, rfl, -⟩; simp [hr] at hq)
  cores _ _ := rfl
  flights := rfl
  frame := ⟨_, _, _, _, _, rfl⟩

theorem stageEffect_modCore {f : CoreSt → CoreSt} (hf : (f (s.core n)).flights = (s.core n).flights) :
    StageEffect n rs ls s (s.modCore n f) where
  regs _ _ _ _ _ := rfl
  cores m hm := by rw [State.modCore, s.core_setCore, if_neg (Ne.symm hm)]
  flights := by rw [State.modCore, s.core_setCore, if_pos rfl, hf]
  frame := ⟨_, _, _, _, _, rfl⟩

theorem stageEffect_fault {f : FaultRec} (h : logRegs ⊆ ls) : StageEffect n rs ls s (s.fault f) where
  regs r m i hl _ := sameRegs_fault s f r m i fun hr => hl (h hr)
  cores m _ := by obtain ⟨⟨_, _, _, _, hf⟩, -⟩ := s.fault_spec f; rw [hf]; rfl
  flights := by obtain ⟨⟨_, _, _, _, hf⟩, -⟩ := s.fault_spec f; rw [hf]; rfl
  frame := by obtain ⟨⟨_, _, _, _, hf⟩, -⟩ := s.fault_spec f; exact ⟨_, _, _, _, _, hf⟩

theorem stageEffect_trace {k : TrKind} {op e st mk tag aux : Nat} (hmem : .trcMem ∈ rs) (hstat : .trcStat ∈ rs) :
    StageEffect n rs ls s (s.trace n k op e st mk tag aux) := by
  unfold State.trace
  refine .ite _ ?_
  dsimp only
  refine .trans ?_ (stageEffect_modCore rfl)
  refine .trans ?_ (.ite _ (stageEffect_wr hstat))
  exact .trans (.trans (stageEffect_wr hmem) (stageEffect_wr hmem)) (stageEffect_wr hstat)

theorem stageEffect_perfOne {ev k i : Nat} (h : .cntVal ∈ rs) : StageEffect n rs ls s (perfOne ev k s n i) := by
  unfold perfOne
  refine .ite _ ?_
  dsimp only
  split
  · exact stageEffect_wr h
  · have hcount : StageEffect n rs ls s (s.setF .cntVal n i 0 48 (s.fd .cntVal n i 0 48 + k)) := stageEffect_wr h
    exact hcount.trans (.ite _ (stageEffect_wr h))

theorem stageEffect_perf {ev k : Nat} (h : .cntVal ∈ rs) : StageEffect n rs ls s (s.perf n ev k) := by
  unfold State.perf
  generalize List.range 8 = is
  induction is generalizing s with
  | nil => exact .refl n rs ls s
  | cons i is ih => exact (stageEffect_perfOne h).trans ih

theorem stageEffect_waited {master k : Nat} (hconfl : .spdConfl ∈ rs) (hcnt : .cntVal ∈ rs) :
    StageEffect n rs ls s (s.waited n master k) := by
  have hcount : StageEffect n rs ls s (s.count .spdConfl n master 0 32 k) := stageEffect_wr hconfl
  exact hcount.trans (stageEffect_perf hcnt)

/-! ### Beginning -/

/-- The state in which an operation that hazard watch lets through is performed: its START event is traced when it begins. -/
def State.opening (s : State) (n : Nat) (f : Flight) : State :=
  if f.begun then s else s.trace n .start f.opcode f.ecls 0 0xFF f.tag 0

theorem stageEffect_opening {f : Flight} (hmem : .trcMem ∈ rs) (hstat : .trcStat ∈ rs) :
    StageEffect n rs ls s (s.opening n f) := by
  unfold State.opening
  split
  · exact .refl n rs ls s
  · exact stageEffect_trace hmem hstat

section
variable {e op : Nat} {f : Flight}

theorem beginOp_of_startsNext {go : State → Flight → State} (h : StartsNext s n e op f) :
    beginOp s n e op go = go (s.opening n f) f := by
  obtain ⟨hq, rfl, -, hz⟩ := h
  have hhaz (earlier : List Flight) : (if f.begun then none else s.hazard n e earlier (f.ranges n)) = none := by
    simp [State.hazard, hz]
  simp only [beginOp, hq, hhaz]
  simp [State.opening]

theorem ecls_of_startsNext (h : StartsNext s n e op f) : f.ecls = e := by
  have hf := List.find?_some h.1
  simp only [Bool.and_eq_true, beq_iff_eq] at hf
  exact hf.1

/-- What changes the operation found first may be said of that operation alone. -/
theorem replFirst_congr {α : Type} {p : α → Bool} {g g' : α → α} {a : α} {l : List α} (hfind : l.find? p = some a)
    (h : g a = g' a) : replFirst p g l = replFirst p g' l := by
  induction l with
  | nil => rfl
  | cons x l ih =>
    rw [List.find?_cons] at hfind
    rw [replFirst, replFirst]
    cases hx : p x with
    | true =>
      obtain rfl : x = a := by simpa [hx] using hfind
      simp [h]
    | false => simpa [hx] using ih (by simpa [hx] using hfind)

theorem opEffect_updFlight {ph : Phase} {g : Flight → Flight} (hcore : .coreStat ∈ rs) (hdma : .dmaStat ∈ rs) :
    OpEffect n rs ls s (s.updFlight n e ph g) where
  regs r m i _ hr := (State.sync_spec _ n).2 r m i fun ⟨hm, h⟩ => by
    obtain rfl | rfl := h
    · exact hr.elim (· hcore) (· hm)
    · exact hr.elim (· hdma) (· hm)
  cores m hm := (s.core_setCore n m _).trans (if_neg (Ne.symm hm))
  frame := ⟨_, _, _, _, _, _, _, rfl⟩

theorem flights_updFlight (s : State) (n e : Nat) (ph : Phase) (g : Flight → Flight) :
    ((s.updFlight n e ph g).core n).flights = replFirst (fun f => f.ecls == e && f.phase == ph) g (s.core n).flights :=
  congrArg CoreSt.flights ((s.core_setCore n n _).trans (if_pos rfl))

/-! ### Reading ahead -/

theorem StageEffect.bankState_eq (h : StageEffect n rs ls s t) (hr : .spdBankst ∉ rs) (hl : .spdBankst ∉ ls) (m b : Nat) :
    t.bankState m b = s.bankState m b := by
  rw [State.bankState, State.fd, h.regs _ _ _ hl (.inl hr), State.bankState, State.fd]

theorem StageEffect.readAhead_eq (h : StageEffect n rs ls s t) (hr : .spdBankst ∉ rs) (hl : .spdBankst ∉ ls) (m : Nat)
    (early : Early) (v : Seen) : t.readAhead m early v = s.readAhead m early v := by
  have hbank := h.bankState_eq hr hl
  obtain ⟨_, _, _, _, _, rfl⟩ := h.frame
  simp only [State.readAhead, hbank]
  rfl

theorem StageEffect.cellStatus_seeing (h : StageEffect n rs ls s t) (hr : .spdBankst ∉ rs) (hl : .spdBankst ∉ ls) (v : Seen)
    (a : Nat) : (t.seeing v).cellStatus a = (s.seeing v).cellStatus a := by
  have hbank (m b : Nat) : (t.seeing v).bankState m b = (s.seeing v).bankState m b := h.bankState_eq hr hl m b
  obtain ⟨_, _, _, _, _, rfl⟩ := h.frame
  simp only [State.cellStatus, hbank]
  rfl

/-- A command that runs its operation with `runOp` reads ahead as R109 and R170 say. -/
theorem readsAhead_of_runOp {c : Nat → Early → Instr} {body : Nat → State → Flight → OpRes}
    (h : ∀ s n early, exec (c n early) s = .next (runOp s n e op early (body n))) : ReadsAhead c e op := by
  intro s n f early hstart hne
  have hopen : StageEffect n opRegs logRegs s (s.opening n f) := stageEffect_opening (by decide) (by decide)
  have hseen := hopen.readAhead_eq (by decide) (by decide) n early f.seen
  have hrun : runOp s n e op early (body n) = (s.opening n f).updFlight n e .queued fun g =>
      { g with begun := true, seen := s.readAhead n early f.seen } := by
    rw [runOp, if_neg hne, peekOp, beginOp_of_startsNext hstart, hseen]
  have heff : OpEffect n opRegs logRegs s (runOp s n e op early (body n)) := by
    rw [hrun]
    exact hopen.toOpEffect.trans (opEffect_updFlight (by decide) (by decide))
  refine ⟨_, h s n early, ?_, heff.sameMem, heff.sameUnits ?_ ?_, heff.sameOutside, heff.opFrame (rs := [])⟩ <;> rw [hrun]
  · rw [flights_updFlight, hopen.flights]
  · exact hopen.acc_eq.1
  · exact hopen.acc_eq.2

/-! ### Completing -/

/-- An operation whose body ends with status OK in `u` is done there, and only its flight and what CORE_STAT and DMA_STAT show
of it change beside. -/
theorem runOp_completes {body : State → Flight → OpRes} (h : StartsNext s n e op f)
    (hbody : body (s.opening n f) f = ⟨u, 0, 0, 0xFF⟩) (hflights : (u.core n).flights = (s.core n).flights) :
    EndsWith n e 0 0 0xFF s (runOp s n e op {} body) ∧
      (runOp s n e op {} body).acc = u.acc ∧ (runOp s n e op {} body).accBad = u.accBad ∧
      ∀ {rs ls}, .coreStat ∈ rs → .dmaStat ∈ rs → OpEffect n rs ls u (runOp s n e op {} body) := by
  have hrun : runOp s n e op {} body = u.updFlight n e .queued fun g =>
      if 0 = 0 ∧ g.status ≠ 0 then { g with phase := .done }
      else { g with phase := .done, status := 0, addr := 0, dslot := 0xFF } := by
    rw [runOp, if_pos rfl, startOp, beginOp_of_startsNext h, hbody]
  obtain ⟨hq, -, hst, -⟩ := h
  rw [hrun]
  refine ⟨?_, rfl, rfl, fun hcore hdma => opEffect_updFlight hcore hdma⟩
  rw [EndsWith, flights_updFlight, hflights]
  exact replFirst_congr hq (by simp [hst])

end

end Sys2Proof.Machine
end

section
/-! SUPPORT. Matrix products (R90, R103, R199, R200): accumulator elements, the checks of legal operands, and what a product
leaves in its tile. -/

namespace Sys2Proof.Machine

open Sys2Proof.Claims

variable {s t : State} {n : Nat} {rs ls : List Reg}

/-! ### Accumulator elements -/

/-- Elements of different cores, tiles or positions have different keys. -/
theorem accKey_inj {n t i j m u k l : Nat} (ht : t < 8) (hi : i < 64) (hj : j < 64) (hu : u < 8) (hk : k < 64) (hl : l < 64) :
    accKey n t i j = accKey m u k l ↔ m = n ∧ u = t ∧ i = k ∧ j = l := by
  simp only [accKey]
  omega

section
variable {m q i j k l tl : Nat} {w : W32}

theorem accGet_accSet (htl : tl < 8) (hk : k < 64) (hl : l < 64) (hq : q < 8) (hi : i < 64) (hj : j < 64) :
    (s.accSet n tl k l w).accGet m q i j = if m = n ∧ q = tl ∧ k = i ∧ l = j then w else s.accGet m q i j := by
  rw [State.accGet, State.accSet, Sparse.get_set, State.accGet]
  exact if_congr (accKey_inj htl hk hl hq hi hj) rfl rfl

theorem accFails_accSet (htl : tl < 8) (hk : k < 64) (hl : l < 64) (hq : q < 8) (hi : i < 64) (hj : j < 64) :
    (s.accSet n tl k l w).accFails m q i j = if m = n ∧ q = tl ∧ k = i ∧ l = j then false else s.accFails m q i j := by
  rw [State.accFails, State.accSet, Sparse.get_set, State.accFails]
  exact if_congr (accKey_inj htl hk hl hq hi hj) rfl rfl

end

/-- The elements written by a product, one after the other. -/
def State.accSets (s : State) (n tl : Nat) (es : List ElemOut) : State :=
  es.foldl (fun s e => s.accSet n tl e.row e.col e.val) s

theorem accSets_frame (s : State) (n tl : Nat) (es : List ElemOut) :
    ∃ acc accBad, s.accSets n tl es = { s with acc := acc, accBad := accBad } := by
  induction es generalizing s with
  | nil => exact ⟨_, _, rfl⟩
  | cons e es ih =>
    obtain ⟨acc, accBad, h⟩ := ih (s.accSet n tl e.row e.col e.val)
    exact ⟨acc, accBad, h⟩

theorem opEffect_accSets {tl : Nat} {es : List ElemOut} : OpEffect n rs ls s (s.accSets n tl es) := by
  obtain ⟨_, _, h⟩ := accSets_frame s n tl es
  rw [h]
  exact ⟨fun _ _ _ _ _ => rfl, fun _ _ => rfl, _, _, _, _, _, _, _, rfl⟩

theorem flights_accSets (s : State) (n tl : Nat) (es : List ElemOut) (m : Nat) :
    ((s.accSets n tl es).core m).flights = (s.core m).flights := by
  obtain ⟨_, _, h⟩ := accSets_frame s n tl es
  rw [h]
  rfl

/-- Elements written to a tile hold their values and pass their check; every other element is as it was. -/
theorem acc_accSets {tl : Nat} {val : Nat → Nat → W32} {es : List ElemOut} (htl : tl < 8)
    (hes : ∀ e ∈ es, e.row < 64 ∧ e.col < 64 ∧ e.val = val e.row e.col) {m q i j : Nat} (hq : q < 8) (hi : i < 64)
    (hj : j < 64) :
    ((s.accSets n tl es).accGet m q i j =
        if m = n ∧ q = tl ∧ ∃ e ∈ es, e.row = i ∧ e.col = j then val i j else s.accGet m q i j) ∧
      (s.accSets n tl es).accFails m q i j =
        if m = n ∧ q = tl ∧ ∃ e ∈ es, e.row = i ∧ e.col = j then false else s.accFails m q i j := by
  induction es generalizing s with
  | nil => simp [State.accSets]
  | cons e es ih =>
    obtain ⟨⟨hrow, hcol, hval⟩, hes⟩ := List.forall_mem_cons.1 hes
    obtain ⟨hget, hfails⟩ := ih (s := s.accSet n tl e.row e.col e.val) hes
    have hsets : s.accSets n tl (e :: es) = (s.accSet n tl e.row e.col e.val).accSets n tl es := rfl
    rw [hsets, hget, hfails, accGet_accSet htl hrow hcol hq hi hj, accFails_accSet htl hrow hcol hq hi hj]
    by_cases hmq : m = n ∧ q = tl
    · by_cases he : e.row = i ∧ e.col = j
      · simp [hmq, he, hval]
      · simp [hmq, he]
    · simp [← and_assoc, hmq]

/-- The first `r` rows and `c` columns of a tile hold `val` and pass their check; every other element is as it was. -/
def TileHolds (n tl r c : Nat) (val : Nat → Nat → W32) (s t : State) : Prop :=
  ∀ m q i j, q < 8 → i < 64 → j < 64 →
    (t.accGet m q i j = if m = n ∧ q = tl ∧ i < r ∧ j < c then val i j else s.accGet m q i j) ∧
      t.accFails m q i j = if m = n ∧ q = tl ∧ i < r ∧ j < c then false else s.accFails m q i j

/-- Only the accumulators of both states matter. -/
theorem tileHolds_congr {tl r c : Nat} {val : Nat → Nat → W32} {s t s' t' : State} (hs : s'.acc = s.acc ∧ s'.accBad = s.accBad)
    (ht : t'.acc = t.acc ∧ t'.accBad = t.accBad) (h : TileHolds n tl r c val s t) : TileHolds n tl r c val s' t' := by
  simpa only [TileHolds, State.accGet, State.accFails, hs, ht] using h

theorem TileHolds.onlyTile {tl r c : Nat} {val : Nat → Nat → W32} (h : TileHolds n tl r c val s t) : OnlyTile n tl r c s t := by
  intro m q i j hi hj hq hout
  obtain ⟨hget, hfails⟩ := h m q i j hq hi hj
  exact ⟨hget.trans (if_neg hout), hfails.trans (if_neg hout)⟩

/-! ### The elements of a product -/

theorem mem_grid {r c : Nat} {p : Nat × Nat} : p ∈ grid r c ↔ p.1 < r ∧ p.2 < c := by
  obtain ⟨i, j⟩ := p
  simp [grid]

/-- One element of a product. -/
def State.mmaElem (s : State) (n tile : Nat) (accum : Bool) (a b : TDesc) (p : Nat × Nat) : ElemOut :=
  let o := dotElement (if accum then some (s.accGet n tile p.1 p.2) else none) (s.wingVector n a p.1) (s.wingVector n b p.2)
  ⟨p.1, p.2, o.1, o.2⟩

/-- A product has one element for each row of A and column of B. -/
theorem mmaElems_eq_map_grid (s : State) (n tile : Nat) (accum : Bool) (a b : TDesc) :
    s.mmaElems n tile accum a b = (grid a.ext.1 b.ext.1).map (s.mmaElem n tile accum a b) := by
  have hcols : ((List.range b.ext.1).map (s.wingVector n b)).zipIdx = (List.range b.ext.1).map fun j => (s.wingVector n b j, j) :=
    List.ext_getElem (by simp) fun j _ _ => by simp
  rw [State.mmaElems, grid, hcols, List.map_flatMap]
  simp only [List.map_map]
  rfl

/-- A product of at most 64 rows and columns, written to its tile. -/
theorem tileHolds_mmaElems {v : State} {tile : Nat} {accum : Bool} {a b : TDesc} (htile : tile < 8) (ha : a.ext.1 ≤ 64)
    (hb : b.ext.1 ≤ 64) : TileHolds n tile a.ext.1 b.ext.1 (fun i j => (v.mmaElem n tile accum a b (i, j)).val) s
      (s.accSets n tile (v.mmaElems n tile accum a b)) := by
  intro m q i j hq hi hj
  have hes : ∀ e ∈ v.mmaElems n tile accum a b, e.row < 64 ∧ e.col < 64 ∧
      e.val = (v.mmaElem n tile accum a b (e.row, e.col)).val := by
    rw [mmaElems_eq_map_grid]
    refine List.forall_mem_map.2 fun p hp => ?_
    obtain ⟨hrow, hcol⟩ := mem_grid.1 hp
    exact ⟨hrow.trans_le ha, hcol.trans_le hb, rfl⟩
  have hin : (∃ e ∈ v.mmaElems n tile accum a b, e.row = i ∧ e.col = j) ↔ i < a.ext.1 ∧ j < b.ext.1 := by
    rw [mmaElems_eq_map_grid, ← mem_grid (p := (i, j))]
    constructor
    · rintro ⟨e, he, rfl, rfl⟩
      obtain ⟨p, hp, rfl⟩ := List.mem_map.1 he
      exact hp
    · exact fun hp => ⟨_, List.mem_map.2 ⟨_, hp, rfl⟩, rfl, rfl⟩
  have hacc := acc_accSets (s := s) (n := n) (val := fun i j => (v.mmaElem n tile accum a b (i, j)).val) htile hes (m := m) hq hi hj
  simpa only [hin] using hacc

/-! ### Legal operands -/

/-- The operands A and B of a product. -/
abbrev Flight.mmaA (f : Flight) : TDesc := (dAt f.slots 0).t
abbrev Flight.mmaB (f : Flight) : TDesc := (dAt f.slots 1).t

/-- The tile of a product, and whether it accumulates (R199). -/
def Flight.mmaTile (f : Flight) : Nat := (if f.ecls = 2 then 4 else 0) + (vAt f.slots 2).toNat % 4
def Flight.mmaAccum (f : Flight) : Bool := (vAt f.slots 2).toNat / 4 % 2 == 1

/-- The elements of a product, its inputs as `v` shows them, and the value at a position. -/
def Flight.mmaOut (f : Flight) (v : State) (n : Nat) : List ElemOut := v.mmaElems n f.mmaTile f.mmaAccum f.mmaA f.mmaB
def Flight.mmaVal (f : Flight) (v : State) (n i j : Nat) : W32 := (v.mmaElem n f.mmaTile f.mmaAccum f.mmaA f.mmaB (i, j)).val

theorem Flight.mmaTile_lt (f : Flight) : f.mmaTile < 8 := by
  rw [Flight.mmaTile]
  split <;> omega

theorem Flight.mmaTile_eq {f : Flight} (h : f.ecls = 1 ∨ f.ecls = 2) :
    f.mmaTile = 4 * (f.ecls - 1) + (vAt f.slots 2).toNat % 4 := by
  obtain h | h := h <;> simp [Flight.mmaTile, h]

/-- The operands of `f` pass the checks of R192, R193 and R200 as `s` shows them: so do all bytes that the product reads, and
the elements that it accumulates on. -/
structure MmaLegal (s : State) (n : Nat) (f : Flight) : Prop where
  ctl : (vAt f.slots 2).toNat < 8
  left : WingOperandGood s n f.mmaA
  right : WingOperandGood s n f.mmaB
  inner : f.mmaA.ext.2.1 = f.mmaB.ext.2.1
  formats : f.mmaA.fmt = .bf16 ∧ f.mmaB.fmt = .bf16 ∨ f.mmaA.fmt.narrow = true ∧ f.mmaB.fmt.narrow = true
  previous : f.mmaAccum = true → ∀ i j, i < f.mmaA.ext.1 → j < f.mmaB.ext.1 → s.accFails n f.mmaTile i j = false

theorem wingCheck_of_good {d : TDesc} (h : WingOperandGood s n d) : wingCheck d = 0 := by
  obtain ⟨-, hspace, hpos, hle, h2, h3, hstr, hbax, -⟩ := h
  have hax : ¬(d.fmt.narrow = true ∧ (!d.num.bax) = true) := fun hn => by simp [hbax hn.1] at hn
  rw [wingCheck, if_neg (by omega), if_neg]
  simp only [not_or]
  exact ⟨by omega, by omega, by simpa using h2, by simpa using h3, by simpa using hstr, hax⟩

theorem mmaCheck_of_legal {f : Flight} (h : MmaLegal s n f) : mmaCheck f = (0, 0xFF) := by
  obtain ⟨hctl, hleft, hright, hinner, hformats, -⟩ := h
  have hwa := wingCheck_of_good hleft
  have hwb := wingCheck_of_good hright
  obtain ⟨hca, -, -, -, -, -, -, -, hka, hba, hra, -⟩ := hleft
  obtain ⟨hcb, -, -, -, -, -, -, -, -, hbb, hrb, -⟩ := hright
  have hpair : pairingOk f.mmaA.fmt f.mmaB.fmt = true := by
    obtain ⟨ha, hb⟩ | ⟨ha, hb⟩ := hformats <;> simp [pairingOk, ha, hb]
  simp [mmaCheck, hctl, hwa, hwb, hca, hcb, hinner, hpair, hinner ▸ hka, hba, hbb, hra, hrb]

/-- An access to the check unit of a byte ends as one to the byte does. -/
theorem State.cellStatus_granule_eq (s : State) (a : Nat) : s.cellStatus (granule a) = s.cellStatus a := by
  cases hs : inScratch a with
  | false => exact s.cellStatus_granule hs
  | true =>
    have hbound : ∀ b, b % 8 = 0 → (a / 8 * 8 < b ↔ a < b) := by omega
    have hregion : regionOf (a / 8 * 8) = regionOf a := by
      simp only [regionOf, spadBase, ctlBase, hbound, Nat.reduceMod, Nat.reduceAdd]
      congr
    have hin : inScratch (a / 8 * 8) = inScratch a := by rw [inScratch, hregion, inScratch]
    have hcore : spadCore (a / 8 * 8) = spadCore a := by simp only [spadCore, spadBase, spadSize]; omega
    have hbank : bankOf (spadOff (a / 8 * 8)) = bankOf (spadOff a) := by
      simp only [bankOf, spadOff, spadBase, spadSize]; omega
    have hword : a / 8 * 8 / 8 = a / 8 := by omega
    simp only [State.cellStatus, granule, hin, hs, hcore, hbank, hword, if_true]

/-- No unit fails an access to bytes that pass their check. -/
theorem State.failsAt_of_cellStatus {as : List Nat} (h : ∀ a ∈ as, s.cellStatus a = 0) : s.failsAt as = [] := by
  have hkeys : ∀ g ∈ groupRuns granule as, s.cellStatus g.1 = 0 :=
    forall_groupRuns_key (p := fun a => s.cellStatus a = 0) fun a ha => (s.cellStatus_granule_eq a).trans (h a ha)
  exact List.filterMap_eq_nil_iff.2 fun g hg => by simp [hkeys g hg]

theorem cellStatus_operandAddrs {d : TDesc} (h : WingOperandGood s n d) : ∀ x ∈ operandAddrs n d, s.cellStatus x = 0 := by
  obtain ⟨-, -, -, -, -, -, -, -, -, -, -, hgood⟩ := h
  exact List.forall_mem_map.2 fun p hp => hgood p (List.mem_range.1 hp)

theorem State.accFirstBad_of_good {tile r c : Nat} (h : ∀ i j, i < r → j < c → s.accFails n tile i j = false) :
    s.accFirstBad n tile (grid r c) = none :=
  List.find?_eq_none.2 fun p hp => by simp [h p.1 p.2 (mem_grid.1 hp).1 (mem_grid.1 hp).2]

/-! ### Effects of a product -/

theorem stageEffect_wingRuns {f : Flight} {busy waits : Nat} (hconfl : .spdConfl ∈ rs) (hcnt : .cntVal ∈ rs) :
    StageEffect n rs ls s (s.wingRuns n f busy waits) := by
  unfold State.wingRuns
  dsimp only
  exact ((stageEffect_perf hcnt).trans (stageEffect_waited hconfl hcnt)).trans (stageEffect_modCore (by split <;> rfl))

theorem stageEffect_latch {m : Nat} : StageEffect n rs ls s (s.latch n m) := by
  unfold State.latch
  split
  · exact .refl n rs ls s
  · exact stageEffect_modCore rfl

theorem stageEffect_matEvents {tile inv : Nat} {ev : Ev} (hstat : .matNstat ∈ rs) (hcnt : .matInvcnt ∈ rs) :
    StageEffect n rs ls s (s.matEvents n tile ev inv) := by
  unfold State.matEvents
  dsimp only
  have hraise (m : W64) : StageEffect n rs ls s (s.raiseMask .matNstat n 0 m) := stageEffect_wr hstat
  split
  · exact (hraise _).trans stageEffect_latch
  · exact ((hraise _).trans stageEffect_latch).trans (stageEffect_wr hcnt)

/-- A record of INV or OVF is written only where its control bit is set (R99, R100). -/
theorem stageEffect_numericRecord {tile : Nat} {f : Flight} {inv : Bool} {es : List ElemOut}
    (hlog : logRegs ⊆ ls ∨ s.flag .matNctl n 0 (if inv then 0 else 1) = false) :
    StageEffect n rs ls s (s.numericRecord n tile f inv es) := by
  unfold State.numericRecord
  generalize s.flag .matNctl n 0 (if inv then 0 else 1) = set at hlog
  cases set with
  | false => exact .refl n rs ls s
  | true =>
    rw [if_neg (by decide)]
    dsimp only
    split
    · exact .refl n rs ls s
    · exact stageEffect_fault (hlog.resolve_right (by decide))

theorem OpEffect.flag_eq (h : OpEffect n rs ls s t) {r : Reg} (hr : r ∉ rs) (hl : r ∉ ls) (m i k : Nat) :
    t.flag r m i k = s.flag r m i k := by
  rw [State.flag, h.regs _ _ _ hl (.inl hr), State.flag]

/-- The log takes records, or both control bits are clear. -/
def LogsOrSilent (s : State) (n : Nat) (ls : List Reg) : Prop :=
  logRegs ⊆ ls ∨ s.flag .matNctl n 0 0 = false ∧ s.flag .matNctl n 0 1 = false

theorem OpEffect.logsOrSilent (h : OpEffect n rs ls s t) (hr : .matNctl ∉ rs) (hl : .matNctl ∉ ls)
    (hlog : LogsOrSilent s n ls) : LogsOrSilent t n ls := by
  rwa [LogsOrSilent, h.flag_eq hr hl, h.flag_eq hr hl]

theorem stageEffect_accumulated {tile : Nat} {f : Flight} {es : List ElemOut} (hstat : .matNstat ∈ rs)
    (hcnt : .matInvcnt ∈ rs) (hr : .matNctl ∉ rs) (hl : .matNctl ∉ ls) (hlog : LogsOrSilent s n ls) :
    StageEffect n rs ls s (s.accumulated n tile f es) := by
  unfold State.accumulated
  dsimp only
  have hev := stageEffect_matEvents (s := s) (n := n) (ls := ls) (tile := tile) hstat hcnt
    (ev := es.foldl (fun e x => e.join (dotEvents x.log)) {}) (inv := es.foldl (fun k x => k + dotInvCount x.log) 0)
  have hlog1 := hev.toOpEffect.logsOrSilent hr hl hlog
  have hinv := stageEffect_numericRecord (rs := rs) (tile := tile) (f := f) (inv := true) (es := es) (hlog1.imp_right And.left)
  have hlog2 := hinv.toOpEffect.logsOrSilent hr hl hlog1
  exact (hev.trans hinv).trans (stageEffect_numericRecord (hlog2.imp_right And.right))

/-! ### MMA -/

/-- A product of legal operands writes its elements to its tile and reports them. -/
theorem mmaBody_of_legal {f : Flight} (waits : Nat) (h : MmaLegal (s.seeing f.seen) n f) :
    ∃ busy, mmaBody n waits s f = ⟨((s.wingRuns n f busy waits).accSets n f.mmaTile (f.mmaOut (s.seeing f.seen) n)).accumulated
      n f.mmaTile f (f.mmaOut (s.seeing f.seen) n), 0, 0, 0xFF⟩ := by
  have hreads : (s.seeing f.seen).failsAt (operandAddrs n f.mmaA ++ operandAddrs n f.mmaB) = [] :=
    State.failsAt_of_cellStatus fun x hx =>
      (List.mem_append.1 hx).elim (cellStatus_operandAddrs h.left x) (cellStatus_operandAddrs h.right x)
  have hprev : (if f.mmaAccum = true then (s.seeing f.seen).accFirstBad n f.mmaTile (grid f.mmaA.ext.1 f.mmaB.ext.1) else none) =
      none := by
    split
    case isTrue hset => exact State.accFirstBad_of_good (h.previous hset)
    case isFalse => rfl
  rw [Flight.mmaTile, Flight.mmaAccum] at hprev
  refine ⟨f.mmaA.ext.2.1 / 32 * ccPerGroup f.mmaA.fmt f.mmaB.fmt, ?_⟩
  rw [mmaBody, mmaCheck_of_legal h]
  dsimp only
  rw [if_neg (by decide), hreads]
  dsimp only
  rw [hprev]
  rfl

/-- The registers that a product may change. -/
def mmaRegs : List Reg := [.matNstat, .matInvcnt] ++ opRegs

/-- What a product leaves in its tile, its inputs as `v` shows them. -/
abbrev MmaHolds (n : Nat) (f : Flight) (v s t : State) : Prop :=
  TileHolds n f.mmaTile f.mmaA.ext.1 f.mmaB.ext.1 (f.mmaVal v n) s t

theorem mmaBody_completes {f : Flight} (waits : Nat) (h : MmaLegal (s.seeing f.seen) n f) :
    ∃ u, mmaBody n waits s f = ⟨u, 0, 0, 0xFF⟩ ∧ (u.core n).flights = (s.core n).flights ∧
      MmaHolds n f (s.seeing f.seen) s u ∧ ∀ ls, .matNctl ∉ ls → LogsOrSilent s n ls → OpEffect n mmaRegs ls s u := by
  obtain ⟨busy, hbody⟩ := mmaBody_of_legal waits h
  obtain ⟨-, -, -, ha, -⟩ := h.left
  obtain ⟨-, -, -, hb, -⟩ := h.right
  have hwing (ls : List Reg) : StageEffect n mmaRegs ls s (s.wingRuns n f busy waits) :=
    stageEffect_wingRuns (by decide) (by decide)
  have hholds : MmaHolds n f (s.seeing f.seen) (s.wingRuns n f busy waits) _ := tileHolds_mmaElems f.mmaTile_lt ha hb
  rw [← Flight.mmaOut] at hholds
  generalize f.mmaOut (s.seeing f.seen) n = es at hbody hholds
  have hflights := flights_accSets (s.wingRuns n f busy waits) n f.mmaTile es n
  have hsets (ls : List Reg) : OpEffect n mmaRegs ls (s.wingRuns n f busy waits) _ := opEffect_accSets (tl := f.mmaTile) (es := es)
  generalize (s.wingRuns n f busy waits).accSets n f.mmaTile es = w at *
  have hreport (ls : List Reg) (hctl : .matNctl ∉ ls) (hlog : LogsOrSilent w n ls) :
      StageEffect n mmaRegs ls w (w.accumulated n f.mmaTile f es) :=
    stageEffect_accumulated (by decide) (by decide) (by decide) hctl hlog
  have hlogged := hreport logRegs (by decide) (.inl (List.Subset.refl _))
  refine ⟨_, hbody, ?_, ?_, fun ls hctl hlog => ?_⟩
  · exact hlogged.flights.trans (hflights.trans (hwing []).flights)
  · exact tileHolds_congr ((hwing []).acc_eq.imp Eq.symm Eq.symm) hlogged.acc_eq hholds
  · have hbefore := (hwing ls).toOpEffect.trans (hsets ls)
    exact hbefore.trans (hreport ls hctl (hbefore.logsOrSilent (by decide) hctl hlog)).toOpEffect

/-- What an operation sees of its inputs does not change while neither memory, accumulators nor banks do. -/
theorem StageEffect.inputs_seeing (h : StageEffect n rs ls s t) (v : Seen) :
    (∀ m tl i j, (t.seeing v).accFails m tl i j = (s.seeing v).accFails m tl i j) ∧
      ∀ (f : Flight) (m : Nat), f.mmaVal (t.seeing v) m = f.mmaVal (s.seeing v) m := by
  obtain ⟨_, _, _, _, _, rfl⟩ := h.frame
  exact ⟨fun _ _ _ _ => rfl, fun _ _ => rfl⟩

theorem StageEffect.mmaLegal_seeing {f : Flight} {v : Seen} (h : StageEffect n rs ls s t) (hr : .spdBankst ∉ rs)
    (hl : .spdBankst ∉ ls) (had : MmaLegal (s.seeing v) n f) : MmaLegal (t.seeing v) n f := by
  have hcells := h.cellStatus_seeing hr hl v
  obtain ⟨hfails, -⟩ := h.inputs_seeing v
  obtain ⟨hctl, hleft, hright, hinner, hformats, hprev⟩ := had
  exact ⟨hctl, by simpa only [WingOperandGood, hcells] using hleft, by simpa only [WingOperandGood, hcells] using hright, hinner,
    hformats, by simpa only [hfails] using hprev⟩

theorem runOp_mma_completes {f : Flight} {eng : Nat} (waits : Nat) (hstart : StartsNext s n eng 0x20 f)
    (h : MmaLegal (s.seeing f.seen) n f) :
    let t := runOp s n eng 0x20 {} (mmaBody n waits)
    EndsWith n eng 0 0 0xFF s t ∧ MmaHolds n f (s.seeing f.seen) s t ∧
      ∀ ls, .matNctl ∉ ls → LogsOrSilent s n ls → OpEffect n mmaRegs ls s t := by
  have hopen (ls : List Reg) : StageEffect n mmaRegs ls s (s.opening n f) := stageEffect_opening (by decide) (by decide)
  obtain ⟨-, hval⟩ := (hopen []).inputs_seeing f.seen
  obtain ⟨u, hbody, hflights, hholds, heff⟩ :=
    mmaBody_completes waits ((hopen []).mmaLegal_seeing (by decide) (by decide) h)
  rw [MmaHolds, hval] at hholds
  obtain ⟨hends, hacc, hbad, hdone⟩ := runOp_completes hstart hbody (hflights.trans (hopen []).flights)
  refine ⟨hends, tileHolds_congr ((hopen []).acc_eq.imp Eq.symm Eq.symm) ⟨hacc, hbad⟩ hholds, fun ls hctl hlog => ?_⟩
  have hbefore := (hopen ls).toOpEffect.trans (heff ls hctl ((hopen ls).toOpEffect.logsOrSilent (by decide) hctl hlog))
  exact hbefore.trans (hdone (by decide) (by decide))

theorem exec_mma {eng : Nat} (heng : eng = 1 ∨ eng = 2) (s : State) (n waits : Nat) (early : Early) :
    exec (.mma n eng waits early) s = .next (runOp s n eng 0x20 early (mmaBody n waits)) := by
  show execMma n eng waits s early = _
  rw [execMma, if_pos heng, ok]

/-- Settles O15: legal operands pass every check of MMA, its elements are the first rows and columns of the tile, and the
stages around them touch neither memory nor other elements. -/
theorem mmaComputesTheProduct : Obligations.MmaComputesTheProduct := by
  unfold Obligations.MmaComputesTheProduct
  refine ⟨fun eng waits heng => readsAhead_of_runOp fun s n early => exec_mma heng s n waits early, ?_⟩
  intro s n eng waits f heng hstart hctl v a b tile accum hleft hright hinner hformats hprev
  obtain rfl : f.ecls = eng := ecls_of_startsNext hstart
  have htile : f.mmaTile = tile := Flight.mmaTile_eq heng
  have haccum : f.mmaAccum = true ↔ (vAt f.slots 2).toNat / 4 % 2 = 1 := beq_iff_eq
  have hmode : f.mmaAccum = true → accum := fun hset => by have := haccum.1 hset; omega
  obtain ⟨hends, hholds, heff⟩ := runOp_mma_completes waits hstart
    ⟨hctl, hleft, hright, hinner, hformats, fun hset => htile ▸ hprev (hmode hset)⟩
  have hlogged := heff logRegs (by decide) (.inl (List.Subset.refl _))
  rw [MmaHolds, htile] at hholds
  refine ⟨_, exec_mma heng s n waits {}, hends, fun i j hi hj => ?_, hholds.onlyTile, hlogged.sameMem,
    hlogged.sameKernelsAndLanes, hlogged.sameOutside, hlogged.opFrame, fun hinv hovf r hr m i => ?_⟩
  · obtain ⟨-, -, -, ha, -⟩ := hleft
    obtain ⟨-, -, -, hb, -⟩ := hright
    have hin : n = n ∧ tile = tile ∧ i < a.ext.1 ∧ j < b.ext.1 := ⟨rfl, rfl, hi, hj⟩
    obtain ⟨hget, hfails⟩ := hholds n tile i j (htile ▸ f.mmaTile_lt) (hi.trans_le ha) (hj.trans_le hb)
    refine ⟨hfails.trans (if_pos hin), hget.trans ((if_pos hin).trans ?_)⟩
    simp only [Flight.mmaVal, State.mmaElem, haccum, htile]
    rfl
  · have hkept : ∀ r ∈ logRegs, r ∉ mmaRegs := by decide
    exact (heff [] (by decide) (.inr ⟨hinv, hovf⟩)).regs r m i (by simp) (.inl (hkept r hr))

end Sys2Proof.Machine
end

section
/-! SUPPORT. Tide marks (R157 to R163): what one change of a mark, and several in one cc, leave. -/

namespace Sys2Proof.Machine

open Sys2Proof.Claims

variable {s t u : State} {n : Nat} {rs ls : List Reg}

/-! ### Steps that change registers alone -/

theorem StageEffect.sameCoreRegs (h : StageEffect n rs [] s t) : SameCoreRegs n rs s t :=
  fun r m i hr => h.regs r m i List.not_mem_nil hr

theorem onlyRegs_trans (h : OnlyRegs s t) (h' : OnlyRegs t u) : OnlyRegs s u := by
  obtain ⟨_, rfl⟩ := h
  obtain ⟨_, rfl⟩ := h'
  exact ⟨_, rfl⟩

theorem frame_of_onlyRegs (h : OnlyRegs s t) : SameMem s t ∧ SameUnits s t ∧ SameOutside s t ∧ t.cores = s.cores := by
  obtain ⟨_, rfl⟩ := h
  exact ⟨⟨fun _ => rfl, fun _ => rfl⟩, ⟨rfl, rfl, rfl, rfl, rfl, rfl, rfl, rfl⟩,
    ⟨rfl, rfl, rfl, rfl, rfl, rfl, rfl, rfl, rfl, rfl, rfl, rfl, rfl, rfl⟩, rfl⟩

/-- A step that changes registers of core `n` alone changes no other part of the core or of another. -/
theorem coreOnly_of_onlyRegs (h : OnlyRegs s t) (hregs : SameCoreRegs n rs s t) : CoreOnly n rs s t := by
  obtain ⟨hmem, ⟨hacc, hbad, -, hkern, -, hhdr, hlanes, hlaneF⟩, -, hcores⟩ := frame_of_onlyRegs h
  exact ⟨hregs, fun m _ => by rw [State.core, hcores, State.core], hmem, hacc, hbad, hkern, hhdr, hlanes, hlaneF⟩

/-! ### Flags -/

/-- Raising a flag sets that flag and no other. -/
theorem State.flag_raise (s : State) (r : Reg) (n i k j : Nat) (h : k < 64) :
    (s.raise r n i k).flag r n i j = (decide (j = k) || s.flag r n i j) := by
  by_cases hj : j = k
  · simp [hj, s.flag_raise_same r n i k h]
  · rw [State.flag, bit, State.raise, State.setF_eq, State.rd_wr, getLsbD_setFld, if_neg (by omega)]
    simp [hj, State.flag, bit]

/-! ### One change of a mark -/

theorem onlyRegs_markChange (s : State) (n m : Nat) (d : Int) : OnlyRegs s (s.markChange n m d) := (s.markChange_spec n m d).1

theorem stageEffect_markChange {m : Nat} {d : Int} (hmark : .mark ∈ rs) (hstat : .coreStat ∈ rs) :
    StageEffect n rs ls s (s.markChange n m d) := by
  unfold State.markChange
  dsimp only
  have hset (x : Nat) : StageEffect n rs ls s (s.setF .mark n m 0 16 x) := stageEffect_wr hmark
  split
  · exact (hset _).trans (stageEffect_wr hstat)
  · exact hset _

/-- What a mark reads after a change of it does not depend on MOVF. -/
theorem State.rd_mark_markChange (s : State) (n m : Nat) (d : Int) :
    (s.markChange n m d).rd .mark n m =
      setFld (s.rd .mark n m) 0 16 (min ((s.markCount n m : Int) + d).toNat 0xFFFF) := by
  unfold State.markChange
  dsimp only
  split <;> simp [State.setF_eq]

theorem State.rd_mark_markChange_ne (s : State) {n m k : Nat} (d : Int) (h : k ≠ m) :
    (s.markChange n m d).rd .mark n k = s.rd .mark n k :=
  (s.markChange_spec n m d).2 .mark n k (fun e => h e.2.2) (by decide)

/-- A mark's count changes by what is added, held between 0 and 0xFFFF (R161). -/
theorem State.markCount_markChange (s : State) (n m k : Nat) (d : Int) :
    (s.markChange n m d).markCount n k =
      if k = m then min ((s.markCount n k : Int) + d).toNat 0xFFFF else s.markCount n k := by
  split
  case isTrue h =>
    subst h
    rw [State.markCount, State.fd, s.rd_mark_markChange, fld_setFld_same _ _ _ _ (by decide)]
    exact Nat.mod_eq_of_lt (by omega)
  case isFalse h => rw [State.markCount, State.fd, s.rd_mark_markChange_ne d h, State.markCount, State.fd]

theorem State.markThr_markChange (s : State) (n m k : Nat) (d : Int) :
    (s.markChange n m d).markThr n k = s.markThr n k := by
  by_cases h : k = m
  · subst h
    rw [State.markThr, State.fd, s.rd_mark_markChange, fld_setFld_of_disjoint _ _ _ _ _ _ (by decide), State.markThr, State.fd]
  · rw [State.markThr, State.fd, s.rd_mark_markChange_ne d h, State.markThr, State.fd]

/-- A sum above 0xFFFF sets CORE_STAT.MOVF, and nothing clears it (R161). -/
theorem State.movf_markChange (s : State) (n m : Nat) (d : Int) :
    (s.markChange n m d).flag .coreStat n 0 5 = (decide (0xFFFF < (s.markCount n m : Int) + d) || s.flag .coreStat n 0 5) := by
  have hmark (x : Nat) : (s.setF .mark n m 0 16 x).flag .coreStat n 0 5 = s.flag .coreStat n 0 5 := by simp [State.flag]
  unfold State.markChange
  dsimp only
  split
  case isTrue h => rw [State.flag_raise _ _ _ _ _ _ (by decide)]; simp [h]
  case isFalse h => rw [hmark]; simp [h]

/-- A change of a mark leaves CORE_STAT but for MOVF. -/
theorem sameBits_markChange (s : State) (n m : Nat) (d : Int) : SameBits .coreStat n 0 (~~~0x20#64) s (s.markChange n m d) := by
  have hmark (x : Nat) : (s.setF .mark n m 0 16 x).rd .coreStat n 0 = s.rd .coreStat n 0 := s.rd_setF_reg _ _ _ _ _ _ _ _ _ (by decide)
  unfold State.markChange
  dsimp only
  split
  · rw [SameBits, ← hmark]
    exact sameBits_setF _ _ _ _ _ _ _ _ (by decide)
  · rw [SameBits, hmark]

end Sys2Proof.Machine
end

section
/-! SUPPORT. Control of a core's marks, DMA engines and banks from outside (R125, R134, R159, R162). -/

namespace Sys2Proof.Machine

open Sys2Proof.Claims

variable {s : State} {n : Nat}

/-! ### Marks -/

/-- A write of a mark sets its threshold, and its count to the value with the cc's changes applied (R162). -/
theorem State.markWrite_spec (s : State) (n k v inc dec : Nat) (hv : v < 2 ^ 24) :
    (s.markWrite n k v inc dec).markThr n k = v / 2 ^ 16 ∧
      (s.markWrite n k v inc dec).markCount n k = min (v % 2 ^ 16 + inc - dec) 0xFFFF := by
  rw [State.markWrite, State.markThr_markChange, State.markCount_markChange, if_pos rfl, State.markThr, State.markCount,
    State.fd_setF_of_disjoint _ _ _ _ _ _ _ _ _ (by decide), State.fd_setF_same _ _ _ _ _ _ _ (by decide),
    State.fd_setF_same _ _ _ _ _ _ _ (by decide)]
  omega

theorem onlyRegs_markWrite (s : State) (n k v inc dec : Nat) : OnlyRegs s (s.markWrite n k v inc dec) :=
  onlyRegs_trans ⟨_, rfl⟩ (onlyRegs_markChange _ n k _)

theorem stageEffect_markWrite {rs ls : List Reg} {k v inc dec : Nat} (hmark : .mark ∈ rs) (hstat : .coreStat ∈ rs) :
    StageEffect n rs ls s (s.markWrite n k v inc dec) := by
  have hthr : StageEffect n rs ls s (s.setF .mark n k 16 8 (v / 2 ^ 16)) := stageEffect_wr hmark
  have hcount : StageEffect n rs ls _ ((s.setF .mark n k 16 8 (v / 2 ^ 16)).setF .mark n k 0 16 v) := stageEffect_wr hmark
  exact (hthr.trans hcount).trans (stageEffect_markChange hmark hstat)

theorem State.rd_mark_markWrite_ne (s : State) {n k m : Nat} (v inc dec : Nat) (h : m ≠ k) :
    (s.markWrite n k v inc dec).rd .mark n m = s.rd .mark n m := by
  rw [State.markWrite, State.rd_mark_markChange_ne _ _ h, State.rd_setF_word _ _ _ _ _ _ _ _ h,
    State.rd_setF_word _ _ _ _ _ _ _ _ h]

theorem sameBits_markWrite (s : State) (n k v inc dec : Nat) :
    SameBits .coreStat n 0 (~~~0x20#64) s (s.markWrite n k v inc dec) := by
  have h := sameBits_markChange ((s.setF .mark n k 16 8 (v / 2 ^ 16)).setF .mark n k 0 16 v) n k ((inc : Int) - dec)
  rwa [SameBits, State.rd_setF_reg _ _ _ _ _ _ _ _ _ _ (by decide), State.rd_setF_reg _ _ _ _ _ _ _ _ _ _ (by decide)] at h

theorem exec_coreMsig {a : Agent} (v : Nat) (h : MayWrite s a .coreMsig) :
    exec (.coreMsig a n v) s = .next (s.markChange n (v % 64) 1) := by
  show Host.Outcome.next (s.gated a .coreMsig n 0 fun s => s.signal n (v % 64)) = _
  rw [s.gated_of_mayWrite n 0 _ h, State.signal]

theorem exec_markWrite {a : Agent} (k v inc dec : Nat) (h : MayWrite s a .mark) :
    exec (.markWrite a n k v inc dec) s = .next (s.markWrite n k v inc dec) := by
  show Host.Outcome.next (s.gated a .mark n k fun s => s.markWrite n k v inc dec) = _
  rw [s.gated_of_mayWrite n k _ h]

/-! ### DMA_CTL.HALT -/

theorem exec_dmaHalt {a : Agent} (eng : Nat) (on : Bool) (h : MayWrite s a .dmaCtl) :
    exec (.dmaHalt a n eng on) s = .next (s.setF .dmaCtl n (eng - 6) 8 1 (b2n on)) := by
  show Host.Outcome.next (s.gated a .dmaCtl n (eng - 6) fun s => s.setF .dmaCtl n (eng - 6) 8 1 (b2n on)) = _
  rw [s.gated_of_mayWrite n (eng - 6) _ h]

/-- A one-bit field that was set reads as the truth value put there. -/
theorem State.flag_setF_b2n (s : State) (r : Reg) (n i k : Nat) (b : Bool) (h : k < 64) :
    (s.setF r n i k 1 (b2n b)).flag r n i k = b := by
  rw [State.flag, bit, State.setF_eq, State.rd_wr, getLsbD_setFld, if_pos (by omega)]
  cases b <;> simp [b2n, h]

/-! ### Bank requests -/

/-- An offset inside a scratchpad is an address of that scratchpad (Table 13.1). -/
theorem inScratch_spadAddr {off : Nat} (hn : n < 256) (h : off < spadSize) : inScratch (spadAddr n off) = true := by
  have hbase : ¬spadAddr n off < spadBase := by simp only [spadAddr]; omega
  have hend : spadAddr n off < spadBase + 0x40000000 := by simp only [spadAddr, spadSize] at h ⊢; omega
  have hlow {b : Nat} (hb : b ≤ spadBase) : ¬spadAddr n off < b := fun hlt => hbase (hlt.trans_le hb)
  have hreg : regionOf (spadAddr n off) = .scratch := by
    rw [regionOf, if_neg (hlow (by decide)), if_neg (hlow (by decide)), if_neg (hlow (by decide)), if_neg (hlow (by decide)),
      if_neg (hlow (by decide)), if_neg hbase, if_pos hend]
  simp [inScratch, hreg]

theorem spadCore_spadAddr {off : Nat} (h : off < spadSize) : spadCore (spadAddr n off) = n := by
  simp only [spadCore, spadAddr, spadSize] at h ⊢; omega

theorem spadOff_spadAddr {off : Nat} (h : off < spadSize) : spadOff (spadAddr n off) = off := by
  simp only [spadOff, spadAddr, spadSize] at h ⊢; omega

/-- The words of a bank are in the scratchpads, and those of their core and bank. -/
theorem bank_of_mem_range {x b : Nat} (hn : n < 256) (hb : b < 32) (hlo : spadAddr n (b * 2 ^ 17) ≤ x)
    (hhi : x < spadAddr n (b * 2 ^ 17) + 2 ^ 17) : inScratch x = true ∧ spadCore x = n ∧ bankOf (spadOff x) = b := by
  obtain ⟨i, rfl⟩ := Nat.exists_eq_add_of_le hlo
  have hx : spadAddr n (b * 2 ^ 17) + i = spadAddr n (b * 2 ^ 17 + i) := Nat.add_assoc _ _ _
  have hoff : b * 2 ^ 17 + i < spadSize := by simp only [spadSize]; omega
  rw [hx, inScratch_spadAddr hn hoff, spadCore_spadAddr hoff, spadOff_spadAddr hoff, bankOf]
  exact ⟨rfl, rfl, by omega⟩

/-- A bank that is lost loses its own words alone. -/
theorem State.loseBank_frame (s : State) {n b x : Nat} (hn : n < 256) (hb : b < 32)
    (hx : ¬(inScratch x = true ∧ spadCore x = n ∧ bankOf (spadOff x) = b)) :
    (s.loseBank n b).byte x = s.byte x ∧ (s.loseBank n b).isBad x = s.isBad x := by
  have hout : decide (spadAddr n (b * 2 ^ 17) ≤ x ∧ x < spadAddr n (b * 2 ^ 17) + 2 ^ 17) = false :=
    decide_eq_false fun h => hx (bank_of_mem_range hn hb h.1 h.2)
  rw [State.byte, State.isBad, State.loseBank, Sparse.get_drop, Sparse.get_drop, hout]
  exact ⟨rfl, rfl⟩

/-- The state of a bank after a request for state `f`: 3 is no request, and one for the state it is in starts no transition
(R125). -/
def requested (f st : Nat) : Nat := if f = 3 ∨ f = st then st else 3

/-- The registers of a bank after a request for state `f`. -/
def State.bankAsked (s : State) (n b f : Nat) : State :=
  let u := s.setF .spdBankpwr n 0 (2 * b) 2 f
  if f = u.bankState n b then u else u.setF .spdBankst n 0 (2 * b) 2 3

/-- A field of SPD_BANKPWR is no request, or one that keeps the bank's content, or one for off. -/
theorem State.bankRequest_cases (s : State) (n : Nat) (v : W64) (b : Nat) :
    (fld v (2 * b) 2 = 3 ∧ s.bankRequest n v b = s) ∨
      (fld v (2 * b) 2 ≠ 3 ∧ fld v (2 * b) 2 ≠ 2 ∧ s.bankRequest n v b = s.bankAsked n b (fld v (2 * b) 2)) ∨
        (fld v (2 * b) 2 = 2 ∧ s.bankRequest n v b = (s.bankAsked n b 2).loseBank n b) := by
  by_cases h3 : fld v (2 * b) 2 = 3
  · exact .inl ⟨h3, by simp [State.bankRequest, h3]⟩
  · by_cases h2 : fld v (2 * b) 2 = 2
    · exact .inr (.inr ⟨h2, by simp only [State.bankRequest, h2]; rfl⟩)
    · refine .inr (.inl ⟨h3, h2, ?_⟩)
      simp only [State.bankRequest, if_neg h3, if_neg h2]
      rfl

theorem onlyRegs_bankAsked (s : State) (n b f : Nat) : OnlyRegs s (s.bankAsked n b f) := by
  unfold State.bankAsked
  dsimp only
  split <;> exact ⟨_, rfl⟩

theorem sameCoreRegs_bankAsked (s : State) (n b f : Nat) :
    SameCoreRegs n [.spdBankpwr, .spdBankst] s (s.bankAsked n b f) := by
  have hask : StageEffect n [.spdBankpwr, .spdBankst] [] s (s.setF .spdBankpwr n 0 (2 * b) 2 f) := stageEffect_wr (by decide)
  unfold State.bankAsked
  dsimp only
  split
  · exact hask.sameCoreRegs
  · exact (hask.trans (stageEffect_wr (by decide))).sameCoreRegs

theorem State.bankState_bankAsked (s : State) {n b c f : Nat} (hb : b < 32) (hc : c < 32) (hf : f < 3) :
    (s.bankAsked n b f).bankState n c = if c = b then requested f (s.bankState n c) else s.bankState n c := by
  have hask (d : Nat) : (s.setF .spdBankpwr n 0 (2 * b) 2 f).bankState n d = s.bankState n d := by
    rw [State.bankState, State.fd, State.rd_setF_reg _ _ _ _ _ _ _ _ _ _ (by decide), State.bankState, State.fd]
  have hne : f ≠ 3 := by omega
  unfold State.bankAsked
  dsimp only
  by_cases h : c = b
  · subst h
    rw [if_pos rfl, hask, requested]
    by_cases hst : f = s.bankState n c
    · rw [if_pos hst, if_pos (.inr hst), hask]
    · rw [if_neg hst, if_neg (by simp [hne, hst]), State.bankState, State.fd_setF_same _ _ _ _ _ _ _ (by omega)]
      rfl
  · rw [if_neg h]
    split
    · exact hask c
    · rw [State.bankState, State.fd_setF_of_disjoint _ _ _ _ _ _ _ _ _ (by omega)]
      exact hask c

theorem State.fd_spdBankpwr_bankAsked (s : State) {n b c f : Nat} (hb : b < 32) (hc : c < 32) (hf : f < 3) :
    (s.bankAsked n b f).fd .spdBankpwr n 0 (2 * c) 2 = if c = b then f else s.fd .spdBankpwr n 0 (2 * c) 2 := by
  have hword : (s.bankAsked n b f).rd .spdBankpwr n 0 = (s.setF .spdBankpwr n 0 (2 * b) 2 f).rd .spdBankpwr n 0 := by
    unfold State.bankAsked
    dsimp only
    split
    · rfl
    · exact State.rd_setF_reg _ _ _ _ _ _ _ _ _ _ (by decide)
  rw [State.fd, hword]
  split
  case isTrue h => subst h; exact (s.fd_setF_same _ _ _ _ _ _ (by omega)).trans (Nat.mod_eq_of_lt (by omega))
  case isFalse h => exact s.fd_setF_of_disjoint _ _ _ _ _ _ _ _ (by omega)

/-- What the requests of `v` to the banks of `bs` leave: each bank's request and state, and everything beside them. -/
structure BanksAsked (n : Nat) (v : W64) (bs : List Nat) (s t : State) : Prop where
  request : ∀ c, c < 32 → t.fd .spdBankpwr n 0 (2 * c) 2 =
    if c ∈ bs ∧ fld v (2 * c) 2 ≠ 3 then fld v (2 * c) 2 else s.fd .spdBankpwr n 0 (2 * c) 2
  state : ∀ c, c < 32 → t.bankState n c = if c ∈ bs then requested (fld v (2 * c) 2) (s.bankState n c) else s.bankState n c
  memory : ∀ x, ¬(inScratch x = true ∧ spadCore x = n ∧ fld v (2 * bankOf (spadOff x)) 2 = 2) →
    t.byte x = s.byte x ∧ t.isBad x = s.isBad x
  regs : SameCoreRegs n [.spdBankpwr, .spdBankst] s t
  frame : ∃ regs mem bad, t = { s with regs := regs, mem := mem, bad := bad }

theorem fld_two_lt_three {v : W64} {b : Nat} (h : fld v (2 * b) 2 ≠ 3) : fld v (2 * b) 2 < 3 := by
  have : fld v (2 * b) 2 < 4 := Nat.mod_lt _ (by decide)
  omega

theorem State.banksAsked_bankRequest (s : State) {n b : Nat} (v : W64) (hn : n < 256) (hb : b < 32) :
    BanksAsked n v [b] s (s.bankRequest n v b) := by
  obtain ⟨h3, h⟩ | ⟨h3, h2, h⟩ | ⟨h2, h⟩ := s.bankRequest_cases n v b <;> rw [h]
  case inl =>
    refine ⟨fun c _ => ?_, fun c _ => ?_, fun _ _ => ⟨rfl, rfl⟩, fun _ _ _ _ => rfl, _, _, _, rfl⟩
    · rw [if_neg]
      rintro ⟨hc, hne⟩
      exact hne (List.mem_singleton.1 hc ▸ h3)
    · split
      case isTrue hc => rw [List.mem_singleton.1 hc, h3, requested, if_pos (.inl rfl)]
      case isFalse => rfl
  case inr.inl =>
    obtain ⟨regs, hregs⟩ := onlyRegs_bankAsked s n b (fld v (2 * b) 2)
    obtain ⟨⟨hbyte, hbad⟩, -⟩ := frame_of_onlyRegs ⟨regs, hregs⟩
    refine ⟨fun c hc => ?_, fun c hc => ?_, fun x _ => ⟨hbyte x, hbad x⟩, sameCoreRegs_bankAsked s n b _, _, _, _, hregs⟩
    · rw [s.fd_spdBankpwr_bankAsked hb hc (fld_two_lt_three h3)]
      by_cases hcb : c = b <;> simp [hcb, h3]
    · rw [s.bankState_bankAsked hb hc (fld_two_lt_three h3)]
      by_cases hcb : c = b <;> simp [hcb]
  case inr.inr =>
    obtain ⟨regs, hregs⟩ := onlyRegs_bankAsked s n b 2
    obtain ⟨⟨hbyte, hbad⟩, -⟩ := frame_of_onlyRegs ⟨regs, hregs⟩
    refine ⟨fun c hc => ?_, fun c hc => ?_, fun x hx => ?_, sameCoreRegs_bankAsked s n b _,
      regs, ((s.bankAsked n b 2).loseBank n b).mem, ((s.bankAsked n b 2).loseBank n b).bad, ?_⟩
    · refine (s.fd_spdBankpwr_bankAsked hb hc (by decide)).trans ?_
      by_cases hcb : c = b <;> simp [hcb, h2]
    · refine (s.bankState_bankAsked hb hc (by decide)).trans ?_
      by_cases hcb : c = b <;> simp [hcb, h2]
    · obtain ⟨hbyte', hbad'⟩ := (s.bankAsked n b 2).loseBank_frame (x := x) hn hb
        fun ⟨hs, hcore, hbank⟩ => hx ⟨hs, hcore, hbank ▸ h2⟩
      exact ⟨hbyte'.trans (hbyte x), hbad'.trans (hbad x)⟩
    · rw [State.loseBank, hregs]

theorem requested_requested (f st : Nat) : requested f (requested f st) = requested f st := by
  simp only [requested]
  split <;> simp [*]

theorem BanksAsked.cons {n b : Nat} {v : W64} {bs : List Nat} {s t u : State} (h : BanksAsked n v [b] s t)
    (h' : BanksAsked n v bs t u) : BanksAsked n v (b :: bs) s u where
  request c hc := by
    rw [h'.request c hc, h.request c hc]
    by_cases h3 : fld v (2 * c) 2 = 3
    · simp [h3]
    · by_cases hb : c = b
      · subst hb; simp [h3]
      · simp [hb]
  state c hc := by
    rw [h'.state c hc, h.state c hc]
    by_cases hb : c = b
    · subst hb; simp [requested_requested]
    · simp [hb]
  memory x hx := ⟨(h'.memory x hx).1.trans (h.memory x hx).1, (h'.memory x hx).2.trans (h.memory x hx).2⟩
  regs r m i hr := (h'.regs r m i hr).trans (h.regs r m i hr)
  frame := by
    obtain ⟨_, _, _, rfl⟩ := h.frame
    obtain ⟨_, _, _, rfl⟩ := h'.frame
    exact ⟨_, _, _, rfl⟩

theorem State.banksAsked_foldl (s : State) {n : Nat} (v : W64) (hn : n < 256) {bs : List Nat} (hbs : ∀ b ∈ bs, b < 32) :
    BanksAsked n v bs s (bs.foldl (fun s b => s.bankRequest n v b) s) := by
  induction bs generalizing s with
  | nil => exact ⟨fun _ _ => by simp, fun _ _ => by simp, fun _ _ => ⟨rfl, rfl⟩, fun _ _ _ _ => rfl, _, _, _, rfl⟩
  | cons b bs ih =>
    obtain ⟨hb, hbs⟩ := List.forall_mem_cons.1 hbs
    exact (s.banksAsked_bankRequest v hn hb).cons (ih _ hbs)

/-- A write of SPD_BANKPWR asks every bank. -/
theorem State.banksAsked_bankPower (s : State) {n : Nat} (v : W64) (hn : n < 256) :
    BanksAsked n v (List.range 32) s (s.bankPower n v) := s.banksAsked_foldl v hn fun _ hb => List.mem_range.1 hb

theorem exec_spdBankpwr {a : Agent} (v : W64) (h : MayWrite s a .spdBankpwr) (hu : Unlocked s a .spdBankpwr) :
    exec (.spdBankpwr a n v) s = .next (s.bankPower n v) := by
  have hlock : (agentBound a && s.locked .spdBankpwr && s.bankChanges n v) = false := by rw [hu, Bool.false_and]
  show Host.Outcome.next (s.gatedLock a .spdBankpwr n 0 (s.bankChanges n v) fun s => s.bankPower n v) = _
  rw [State.gatedLock, s.gated_of_mayWrite n 0 _ h, hlock]
  rfl

theorem exec_bankTransition (s : State) (n b : Nat) : exec (.bankTransition n b) s =
    .next (if s.bankState n b = 3 then s.setF .spdBankst n 0 (2 * b) 2 (s.fd .spdBankpwr n 0 (2 * b) 2) else s) := by
  show execBankTransition n b s = _
  rw [execBankTransition]
  split <;> rfl

/-! ### The commands together -/

/-- Settles O40: each command by what its register action leaves, the write of SPD_BANKPWR bank by bank. -/
theorem markDmaAndBankControl : Obligations.MarkDmaAndBankControl := by
  unfold Obligations.MarkDmaAndBankControl
  refine ⟨fun s a n => ⟨fun v hw => ?_, fun k v inc dec hw hv => ?_, fun eng on heng hw => ?_⟩,
    fun s a n v hn => ⟨fun hw hu => ?_, fun b hb hst => ?_, fun b hst => ?_⟩⟩
  · have honly := onlyRegs_markChange s n (v % 64) 1
    have heff : StageEffect n [.mark, .coreStat] [] s (s.markChange n (v % 64) 1) := stageEffect_markChange (by decide) (by decide)
    obtain ⟨-, -, hout, hcores⟩ := frame_of_onlyRegs honly
    refine ⟨_, exec_coreMsig v hw, fun m => ⟨?_, s.markThr_markChange n _ m 1⟩, coreOnly_of_onlyRegs honly heff.sameCoreRegs, hcores,
      sameBits_markChange s n _ 1, hout⟩
    rw [s.markCount_markChange]
    split <;> rfl
  · have honly := onlyRegs_markWrite s n k v inc dec
    have heff : StageEffect n [.mark, .coreStat] [] s (s.markWrite n k v inc dec) := stageEffect_markWrite (by decide) (by decide)
    obtain ⟨-, -, hout, hcores⟩ := frame_of_onlyRegs honly
    obtain ⟨hthr, hcount⟩ := s.markWrite_spec n k v inc dec hv
    exact ⟨_, exec_markWrite k v inc dec hw, hthr, hcount, fun m hm => s.rd_mark_markWrite_ne v inc dec hm,
      coreOnly_of_onlyRegs honly heff.sameCoreRegs, hcores, sameBits_markWrite s n k v inc dec, hout⟩
  · have honly : OnlyRegs s (s.setF .dmaCtl n (eng - 6) 8 1 (b2n on)) := onlyRegs_wr s _ _ _ _
    have heff : StageEffect n [.dmaCtl] [] s (s.setF .dmaCtl n (eng - 6) 8 1 (b2n on)) := stageEffect_wr (by decide)
    obtain ⟨-, -, hout, hcores⟩ := frame_of_onlyRegs honly
    exact ⟨_, exec_dmaHalt eng on hw, s.flag_setF_b2n _ _ _ _ _ (by decide), sameBits_setF _ _ _ _ _ _ _ _ (by decide),
      fun i hi => s.rd_setF_word _ _ _ _ _ _ _ hi, coreOnly_of_onlyRegs honly heff.sameCoreRegs, hcores, hout⟩
  · obtain ⟨hreq, hst, hmem, hregs, regs, mem, bad, hframe⟩ := s.banksAsked_bankPower v hn
    refine ⟨_, exec_spdBankpwr v hw hu, fun b hb => ⟨?_, ?_⟩, hmem, hregs, ?_, ?_, ?_⟩
    · rw [hreq b hb]
      by_cases h3 : fld v (2 * b) 2 = 3 <;> simp [h3, hb]
    · rw [hst b hb, if_pos (List.mem_range.2 hb), requested]
    · rw [hframe]
    · rw [hframe]; exact ⟨rfl, rfl, rfl, rfl, rfl, rfl, rfl, rfl⟩
    · rw [hframe]; exact ⟨rfl, rfl, rfl, rfl, rfl, rfl, rfl, rfl, rfl, rfl, rfl, rfl, rfl, rfl⟩
  · have heff : StageEffect n [.spdBankst] [] s (s.setF .spdBankst n 0 (2 * b) 2 (s.fd .spdBankpwr n 0 (2 * b) 2)) :=
      stageEffect_wr (by decide)
    refine ⟨_, (exec_bankTransition s n b).trans (by rw [if_pos hst]), ?_, fun c hc hcb => ?_, heff.sameCoreRegs, onlyRegs_wr s _ _ _ _⟩
    · rw [State.bankState, s.fd_setF_same _ _ _ _ _ _ (by omega)]
      exact Nat.mod_eq_of_lt (s.fd_lt _ _ _ _ _)
    · rw [State.bankState, s.fd_setF_of_disjoint _ _ _ _ _ _ _ _ (by omega), State.bankState]
  · rw [exec_bankTransition, if_neg hst]

end Sys2Proof.Machine
end

section
/-! SUPPORT. Issue of records (R152 to R164): what the stages of an issue leave alone, what they make of marks and of the core,
and which record is ready. -/

namespace Sys2Proof.Machine

open Sys2Proof.Claims

variable {s t u : State} {n : Nat} {rs rs' : List Reg}

/-! ### Bits of a register word -/

theorem sameBits_trans {r : Reg} {i : Nat} {m : W64} (h : SameBits r n i m s t) (h' : SameBits r n i m t u) : SameBits r n i m s u :=
  h'.trans h

theorem sameBits_mono {r : Reg} {i : Nat} {m m' : W64} (h : SameBits r n i m s t) (hm : m &&& m' = m') : SameBits r n i m' s t := by
  rw [SameBits, ← hm, ← BitVec.and_assoc, h, BitVec.and_assoc]

/-- Setting a field leaves what a mask selects, if the field stands in another word or outside the mask. -/
theorem sameBits_setF_of {r r' : Reg} {n' i j lo len x : Nat} {m : W64} (h : r' = r → maskOf 64 lo len &&& m = 0#64) :
    SameBits r n i m s (s.setF r' n' j lo len x) := by
  by_cases hw : r' = r ∧ n' = n ∧ j = i
  · obtain ⟨rfl, rfl, rfl⟩ := hw
    exact sameBits_setF s _ _ _ _ _ _ _ (h rfl)
  · rw [SameBits, State.setF_eq, s.rd_wr_ne _ _ _ _ _ _ _ hw]

theorem State.flag_of_sameBits {r : Reg} {i k : Nat} {m : W64} (h : SameBits r n i m s t) (hk : m.getLsbD k = true) :
    t.flag r n i k = s.flag r n i k := by
  simpa [State.flag, bit, hk] using congrArg (BitVec.getLsbD · k) h

/-! ### What the issue of a record may change -/

/-- The registers that every issue may change (R117, R160, R180, R573). -/
def issueRegs : List Reg := [.mark, .coreStat, .dmaStat, .trcMem, .trcStat, .cntVal]

/-- As `OpEffect` without the fault log, with the accumulators as they were and the fields of CORE_STAT and DMA_STAT that no
issue changes. -/
structure IssueEffect (n : Nat) (rs : List Reg) (s t : State) : Prop where
  effect : OpEffect n rs [] s t
  acc : t.acc = s.acc ∧ t.accBad = s.accBad
  stat : SameBits .coreStat n 0 (~~~0x1F0027#64) s t
  dma : ∀ i, SameBits .dmaStat n i (~~~0x1F0100#64) s t

theorem IssueEffect.trans (h : IssueEffect n rs s t) (h' : IssueEffect n rs t u) : IssueEffect n rs s u where
  effect := h.effect.trans h'.effect
  acc := ⟨h'.acc.1.trans h.acc.1, h'.acc.2.trans h.acc.2⟩
  stat := sameBits_trans h.stat h'.stat
  dma i := sameBits_trans (h.dma i) (h'.dma i)

theorem IssueEffect.refl (n : Nat) (rs : List Reg) (s : State) : IssueEffect n rs s s :=
  ⟨(StageEffect.refl n rs [] s).toOpEffect, ⟨rfl, rfl⟩, rfl, fun _ => rfl⟩

/-- A stage that touches neither CORE_STAT nor DMA_STAT. -/
theorem StageEffect.issueEffect (h : StageEffect n rs [] s t) (hsub : rs ⊆ rs') (hstat : .coreStat ∉ rs) (hdma : .dmaStat ∉ rs) :
    IssueEffect n rs' s t where
  effect := ⟨fun r m i hl hr => h.regs r m i hl (hr.imp_left (mt (@hsub r))), h.cores, h.toOpEffect.frame⟩
  acc := h.acc_eq
  stat := by rw [SameBits, h.regs _ _ _ List.not_mem_nil (.inl hstat)]
  dma i := by rw [SameBits, h.regs _ _ _ List.not_mem_nil (.inl hdma)]

theorem IssueEffect.issueFrame (h : IssueEffect n (rs ++ issueRegs) s t) : IssueFrame n rs s t :=
  ⟨fun r m i hr => h.effect.regs r m i List.not_mem_nil hr, h.effect.cores, h.stat, h.dma 0, h.dma 1,
    h.effect.sameUnits h.acc.1 h.acc.2, h.effect.sameOutside⟩

/-! ### Bringing a core's status up to date -/

/-- The fields that a change of a core's execution state sets (Tables 4.16, 5.5, 5.11). -/
theorem State.sync_eq (s : State) (n : Nat) : ∃ code inflt k b k' b', s.sync n =
    (((((s.setF .coreStat n 0 0 3 code).setF .coreStat n 0 16 5 inflt).setF .dmaStat n 0 16 5 k).setF .dmaStat n 0 8 1 b).setF
      .dmaStat n 1 16 5 k').setF .dmaStat n 1 8 1 b' := ⟨_, _, _, _, _, _, rfl⟩

theorem sameBits_sync {r : Reg} {i : Nat} {m : W64}
    (h : (Reg.coreStat = r → maskOf 64 0 3 &&& m = 0#64 ∧ maskOf 64 16 5 &&& m = 0#64) ∧
      (Reg.dmaStat = r → maskOf 64 16 5 &&& m = 0#64 ∧ maskOf 64 8 1 &&& m = 0#64)) : SameBits r n i m s (s.sync n) := by
  obtain ⟨hstat, hdma⟩ := h
  obtain ⟨code, inflt, k, b, k', b', heq⟩ := s.sync_eq n
  rw [heq]
  refine sameBits_trans ?_ (sameBits_setF_of fun hr => (hdma hr).2)
  refine sameBits_trans ?_ (sameBits_setF_of fun hr => (hdma hr).1)
  refine sameBits_trans ?_ (sameBits_setF_of fun hr => (hdma hr).2)
  refine sameBits_trans ?_ (sameBits_setF_of fun hr => (hdma hr).1)
  refine sameBits_trans ?_ (sameBits_setF_of fun hr => (hstat hr).2)
  exact sameBits_setF_of fun hr => (hstat hr).1

theorem State.core_updCore (s : State) (n : Nat) (f : CoreSt → CoreSt) : (s.updCore n f).core n = f (s.core n) :=
  (s.core_setCore n n _).trans (if_pos rfl)

theorem issueEffect_updCore {f : CoreSt → CoreSt} (hstat : .coreStat ∈ rs) (hdma : .dmaStat ∈ rs) :
    IssueEffect n rs s (s.updCore n f) where
  effect := {
    regs := fun r m i _ hr => (State.sync_spec _ n).2 r m i fun ⟨hm, h⟩ => by
      obtain rfl | rfl := h
      · exact hr.elim (· hstat) (· hm)
      · exact hr.elim (· hdma) (· hm)
    cores := fun m hm => (s.core_setCore n m _).trans (if_neg (Ne.symm hm))
    frame := ⟨_, _, _, _, _, _, _, rfl⟩ }
  acc := ⟨rfl, rfl⟩
  stat := sameBits_sync (s := s.modCore n f) (by decide)
  dma _ := sameBits_sync (s := s.modCore n f) (by decide)

/-! ### Trace and performance counters -/

/-- A trace event changes of its core's execution state the count of events alone. -/
theorem State.core_trace (s : State) (n : Nat) (k : TrKind) (op e st mk tag aux : Nat) :
    ∃ x, (s.trace n k op e st mk tag aux).core n = { s.core n with trcCount := x } := by
  unfold State.trace
  split
  · dsimp only
    rw [State.modCore, State.core_setCore, if_pos rfl]
    split <;> exact ⟨_, rfl⟩
  · exact ⟨_, rfl⟩

theorem onlyRegs_perfOne (ev k : Nat) (s : State) (n i : Nat) : OnlyRegs s (perfOne ev k s n i) := by
  unfold perfOne
  dsimp only
  split
  · split
    · exact ⟨_, rfl⟩
    · split <;> exact ⟨_, rfl⟩
  · exact ⟨_, rfl⟩

theorem onlyRegs_perf (s : State) (n ev k : Nat) : OnlyRegs s (s.perf n ev k) := by
  unfold State.perf
  generalize List.range 8 = is
  induction is generalizing s with
  | nil => exact ⟨_, rfl⟩
  | cons i is ih => exact onlyRegs_trans (onlyRegs_perfOne ev k s n i) (ih _)

theorem core_of_onlyRegs (h : OnlyRegs s t) (m : Nat) : t.core m = s.core m := by
  obtain ⟨_, rfl⟩ := h
  rfl

/-! ### Marks in one core cycle -/

/-- Marks and MOVF of core `n` are as they were. -/
def MarksKept (n : Nat) (s t : State) : Prop :=
  (∀ m, t.rd .mark n m = s.rd .mark n m) ∧ t.flag .coreStat n 0 5 = s.flag .coreStat n 0 5

theorem MarksKept.trans (h : MarksKept n s t) (h' : MarksKept n t u) : MarksKept n s u :=
  ⟨fun m => (h'.1 m).trans (h.1 m), h'.2.trans h.2⟩

theorem StageEffect.marksKept (h : StageEffect n rs [] s t) (hmark : .mark ∉ rs) (hstat : .coreStat ∉ rs) : MarksKept n s t :=
  ⟨fun m => h.regs _ _ m List.not_mem_nil (.inl hmark), h.toOpEffect.flag_eq hstat List.not_mem_nil n 0 5⟩

theorem marksKept_updCore {f : CoreSt → CoreSt} : MarksKept n s (s.updCore n f) :=
  ⟨fun m => (State.sync_spec _ n).2 .mark n m (by simp),
    State.flag_of_sameBits (sameBits_sync (s := s.modCore n f) (m := 0x20#64) (by decide)) (by decide)⟩

/-- The marks change by `g` in one cc: sums held between 0 and 0xFFFF, MOVF set by a sum above (R161). -/
structure MarksChanged (n : Nat) (g : Nat → Int) (s t : State) : Prop where
  count : ∀ m, t.markCount n m = min ((s.markCount n m : Int) + g m).toNat 0xFFFF
  thr : ∀ m, t.markThr n m = s.markThr n m
  movf : t.flag .coreStat n 0 5 = true ↔ s.flag .coreStat n 0 5 = true ∨ ∃ m, 0xFFFF < (s.markCount n m : Int) + g m

theorem MarksChanged.kept {g : Nat → Int} (h : MarksChanged n g s t) (h' : MarksKept n t u) : MarksChanged n g s u := by
  obtain ⟨hmarks, hmovf⟩ := h'
  refine ⟨fun m => ?_, fun m => ?_, by rw [hmovf]; exact h.movf⟩
  · rw [State.markCount, State.fd, hmarks]; exact h.count m
  · rw [State.markThr, State.fd, hmarks]; exact h.thr m

/-- One change of each of several marks. -/
theorem markChanges_foldl (s : State) (n : Nat) (g : Nat → Int) {ms : List Nat} (hms : ms.Nodup) :
    let t := ms.foldl (fun s m => s.markChange n m (g m)) s
    (∀ m, t.markCount n m = if m ∈ ms then min ((s.markCount n m : Int) + g m).toNat 0xFFFF else s.markCount n m) ∧
      (∀ m, t.markThr n m = s.markThr n m) ∧
      (t.flag .coreStat n 0 5 = true ↔
        s.flag .coreStat n 0 5 = true ∨ ∃ m ∈ ms, 0xFFFF < (s.markCount n m : Int) + g m) := by
  induction ms generalizing s with
  | nil => simp
  | cons k ms ih =>
    obtain ⟨hk, hms⟩ := List.nodup_cons.1 hms
    obtain ⟨hcount, hthr, hmovf⟩ := ih (s.markChange n k (g k)) hms
    rw [List.foldl_cons]
    refine ⟨fun m => ?_, fun m => (hthr m).trans (s.markThr_markChange n k m _), hmovf.trans ?_⟩
    · rw [hcount, s.markCount_markChange]
      by_cases hmk : m = k
      · subst hmk; simp [hk]
      · simp [hmk]
    · have hother : ∀ m ∈ ms, (s.markChange n k (g k)).markCount n m = s.markCount n m := fun m hm => by
        rw [s.markCount_markChange, if_neg (ne_of_mem_of_not_mem hm hk)]
      rw [s.movf_markChange, List.exists_mem_cons_iff, Bool.or_eq_true, decide_eq_true_eq, or_comm (a := _ < _), or_assoc]
      refine or_congr_right (or_congr_right (exists_congr fun m => and_congr_right fun hm => ?_))
      rw [hother m hm]

/-- What a list of changes adds to a mark (R161). -/
def changeOf (ds : List (Nat × Int)) (m : Nat) : Int := ((ds.filter fun e => e.1 == m).map Prod.snd).sum

theorem changeOf_append (ds es : List (Nat × Int)) (m : Nat) : changeOf (ds ++ es) m = changeOf ds m + changeOf es m := by
  simp [changeOf]

theorem changeOf_of_not_mem {ds : List (Nat × Int)} {m : Nat} (h : m ∉ ds.map Prod.fst) : changeOf ds m = 0 := by
  have hnil : (ds.filter fun e => e.1 == m) = [] := List.filter_eq_nil_iff.2 fun e he hm =>
    h (List.mem_map.2 ⟨e, he, beq_iff_eq.1 hm⟩)
  rw [changeOf, hnil]
  rfl

theorem State.markCount_le (s : State) (n m : Nat) : s.markCount n m ≤ 0xFFFF := by
  have := s.fd_lt .mark n m 0 16
  rw [State.markCount]
  omega

theorem marksChanged_markSum (s : State) (n : Nat) (ds : List (Nat × Int)) :
    MarksChanged n (changeOf ds) s (s.markSum n ds) := by
  obtain ⟨hcount, hthr, hmovf⟩ := markChanges_foldl s n (changeOf ds) (List.nodup_dedup (ds.map Prod.fst))
  have hzero {m : Nat} (hm : m ∉ (ds.map Prod.fst).dedup) : changeOf ds m = 0 :=
    changeOf_of_not_mem fun h => hm (List.mem_dedup.2 h)
  refine ⟨fun m => (hcount m).trans ?_, hthr, hmovf.trans (or_congr_right ⟨fun ⟨m, _, h⟩ => ⟨m, h⟩, fun ⟨m, h⟩ => ⟨m, ?_, h⟩⟩)⟩
  · have hle := s.markCount_le n m
    split
    case isTrue => rfl
    case isFalse hm => rw [hzero hm]; omega
  · by_contra hm
    have hle := s.markCount_le n m
    rw [hzero hm] at h
    omega

theorem onlyRegs_markSum (s : State) (n : Nat) (ds : List (Nat × Int)) : OnlyRegs s (s.markSum n ds) := by
  unfold State.markSum
  generalize (ds.map Prod.fst).dedup = ms
  induction ms generalizing s with
  | nil => exact ⟨_, rfl⟩
  | cons m ms ih => exact onlyRegs_trans (onlyRegs_markChange s n m _) (ih _)

theorem issueEffect_markChange {m : Nat} {d : Int} (hmark : .mark ∈ rs) (hstat : .coreStat ∈ rs) :
    IssueEffect n rs s (s.markChange n m d) where
  effect := (stageEffect_markChange hmark hstat).toOpEffect
  acc := (stageEffect_markChange (rs := rs) (ls := []) hmark hstat).acc_eq
  stat := sameBits_mono (sameBits_markChange s n m d) (by decide)
  dma i := by rw [SameBits, (s.markChange_spec n m d).2 _ _ _ (by simp) (by decide)]

theorem issueEffect_markSum {ds : List (Nat × Int)} (hmark : .mark ∈ rs) (hstat : .coreStat ∈ rs) :
    IssueEffect n rs s (s.markSum n ds) := by
  unfold State.markSum
  generalize (ds.map Prod.fst).dedup = ms
  induction ms generalizing s with
  | nil => exact .refl n rs s
  | cons m ms ih => exact (issueEffect_markChange hmark hstat).trans ih

/-! ### Issue -/

/-- The marks of a wait mask are different ones. -/
theorem waitMarks_nodup (win mask : Nat) : (waitMarks win mask).Nodup :=
  (List.nodup_range.filter _).map fun a b (h : 16 * win + a = 16 * win + b) => by omega

theorem changeOf_dues (s : State) (n m : Nat) {ms : List Nat} (h : ms.Nodup) :
    changeOf (s.dues n ms) m = if m ∈ ms then -(s.markThr n m : Int) else 0 := by
  induction ms with
  | nil => rfl
  | cons k ms ih =>
    obtain ⟨hk, hms⟩ := List.nodup_cons.1 h
    have hcons : s.dues n (k :: ms) = [(k, -(s.markThr n k : Int))] ++ s.dues n ms := rfl
    rw [hcons, changeOf_append, ih hms]
    by_cases hm : m = k
    · subst hm; simp [changeOf, hk]
    · simp [changeOf, hm, Ne.symm hm]

/-- The signal of a record, if it has one (R158). -/
def Rec.signals (r : Rec) : List (Nat × Int) := if r.sv then [(r.smark, 1)] else []

theorem changeOf_signals (r : Rec) (m : Nat) : changeOf r.signals m = if r.sv = true ∧ r.smark = m then 1 else 0 := by
  unfold Rec.signals
  by_cases hsv : r.sv = true
  · by_cases hm : r.smark = m <;> simp [changeOf, hsv, hm]
  · simp [changeOf, hsv]

/-- The stages of an issue after the marks. -/
theorem State.commit_stages (s : State) (n cc : Nat) (r : Rec) (co : Bool) (ds : List (Nat × Int)) :
    ∃ tag mark wait, s.commit n cc r co ds =
      (((s.markSum n (s.dues n r.waits ++ ds)).trace n .issue r.opcode r.ecls 0 mark tag wait).perf n 4 1).updCore n fun c =>
        { c with pc := c.pc + 1, base := cc, prevData := r.ecls != 0, prevCls := r.ecls, prevCo := co, prevCc := cc, lastTag := tag,
                 lastIssue := cc, waiting := false, waitReported := false } := ⟨_, _, _, rfl⟩

theorem issueEffect_commit {cc : Nat} {r : Rec} {co : Bool} {ds : List (Nat × Int)} (hsub : issueRegs ⊆ rs) :
    IssueEffect n rs s (s.commit n cc r co ds) := by
  obtain ⟨tag, mark, wait, h⟩ := s.commit_stages n cc r co ds
  have hin {r : Reg} (hr : r ∈ issueRegs) : r ∈ rs := hsub hr
  have htrace (u : State) : IssueEffect n rs u (u.trace n .issue r.opcode r.ecls 0 mark tag wait) :=
    (stageEffect_trace (rs := [.trcMem, .trcStat]) (by decide) (by decide)).issueEffect
      (List.Subset.trans (by decide) hsub) (by decide) (by decide)
  have hperf (u : State) : IssueEffect n rs u (u.perf n 4 1) :=
    (stageEffect_perf (rs := [.cntVal]) (by decide)).issueEffect (List.Subset.trans (by decide) hsub) (by decide) (by decide)
  rw [h]
  exact (((issueEffect_markSum (hin (by decide)) (hin (by decide))).trans (htrace _)).trans (hperf _)).trans
    (issueEffect_updCore (hin (by decide)) (hin (by decide)))

/-- The marks that a record waits on are consumed at its issue, with what else changes them in that cc. -/
theorem marksChanged_commit (s : State) (n cc : Nat) (r : Rec) (co : Bool) (ds : List (Nat × Int)) :
    MarksChanged n (changeOf (s.dues n r.waits ++ ds)) s (s.commit n cc r co ds) := by
  obtain ⟨tag, mark, wait, h⟩ := s.commit_stages n cc r co ds
  have htrace (u : State) : MarksKept n u (u.trace n .issue r.opcode r.ecls 0 mark tag wait) :=
    (stageEffect_trace (rs := [.trcMem, .trcStat]) (by decide) (by decide)).marksKept (by decide) (by decide)
  have hperf (u : State) : MarksKept n u (u.perf n 4 1) :=
    (stageEffect_perf (rs := [.cntVal]) (by decide)).marksKept (by decide) (by decide)
  rw [h]
  exact (marksChanged_markSum s n _).kept (((htrace _).trans (hperf _)).trans marksKept_updCore)

theorem MarksChanged.marksAfter {r : Rec} {signals : Bool} {ds : List (Nat × Int)}
    (h : MarksChanged n (changeOf (s.dues n r.waits ++ ds)) s t)
    (hds : ∀ m, changeOf ds m = if signals = true ∧ r.sv = true ∧ r.smark = m then 1 else 0) :
    MarksAfter s n r signals (fun _ => 0) (s.markThr n) t := by
  have hsum (m : Nat) : (s.markCount n m : Int) + changeOf (s.dues n r.waits ++ ds) m = markSumOf s n r signals (fun _ => 0) m := by
    rw [changeOf_append, changeOf_dues s n m (ms := r.waits) (waitMarks_nodup _ _), hds, markSumOf]
    split <;> omega
  obtain ⟨hcount, hthr, hmovf⟩ := h
  simp only [hsum] at hcount hmovf
  exact ⟨fun m => ⟨hcount m, hthr m⟩, hmovf⟩

/-- The execution state of the core after an issue: the next record stands next, and the core still runs as it did. -/
theorem State.core_commit (s : State) (n cc : Nat) (r : Rec) (co : Bool) (ds : List (Nat × Int)) :
    ∃ tag x, (s.commit n cc r co ds).core n =
      { s.core n with pc := (s.core n).pc + 1, base := cc, prevData := r.ecls != 0, prevCls := r.ecls, prevCo := co, prevCc := cc,
                      lastTag := tag, lastIssue := cc, waiting := false, waitReported := false, trcCount := x } := by
  obtain ⟨tag, mark, wait, h⟩ := s.commit_stages n cc r co ds
  obtain ⟨x, htrace⟩ := (s.markSum n (s.dues n r.waits ++ ds)).core_trace n .issue r.opcode r.ecls 0 mark tag wait
  refine ⟨tag, x, ?_⟩
  rw [h, State.core_updCore, core_of_onlyRegs (onlyRegs_perf _ n 4 1), htrace, core_of_onlyRegs (onlyRegs_markSum s n _)]

/-! ### Records that are ready -/

/-- Room for a record: of its engine, and among all operations in flight (R138). A control record needs none. -/
def HasRoom (s : State) (n : Nat) (r : Rec) : Prop :=
  r.ecls ≠ 0 → (s.core n).flights.length < 16 ∧
    ((s.core n).flights.filter fun f => f.ecls == r.ecls).length < engineLimit r.ecls

/-- A record that is ready, with room, is found ready with the values of its operands. -/
theorem State.look_of_ready {cc : Nat} {r : Rec} (h : RecordReady s n cc r) (hroom : HasRoom s n r) :
    ∃ co, s.look n cc = .ready r (s.operands n r) co := by
  obtain ⟨hissue, hnext, hgood, hdelay, hlegal, hsat⟩ := h
  have hfull : ¬(r.ecls ≠ 0 ∧ (16 ≤ (s.core n).flights.length ∨
      engineLimit r.ecls ≤ ((s.core n).flights.filter fun f => f.ecls == r.ecls).length)) := by
    rintro ⟨he, hf⟩
    have := hroom he
    omega
  refine ⟨r.delay == 0 && (s.core n).prevData && r.ecls != 0 && (s.core n).prevCls != r.ecls && r.wmask == 0 &&
    !(s.core n).prevCo && cc == (s.core n).prevCc, ?_⟩
  unfold State.look
  dsimp only
  rw [hissue, hnext, hgood, hlegal, hsat, if_neg (by decide), if_neg (by simp [Nat.not_lt.2 hdelay]), if_neg (by decide),
    if_neg (by decide), if_neg hfull, if_neg (by decide)]

/-- Before record 1,023 is passed nothing happens at the half's end (R150). -/
theorem State.pastHalf_of_lt (h : (s.core n).pc < 1024) : s.pastHalf n = s := by
  unfold State.pastHalf
  dsimp only
  rw [if_neg (by omega)]

end Sys2Proof.Machine
end

section
/-! SUPPORT. RECORD_ISSUE (R106, R138, R164, R184): a data-engine record that is ready enters its engine's queue. -/

namespace Sys2Proof.Machine

open Sys2Proof.Claims

variable {s : State} {n cc : Nat} {r : Rec}

/-- The operation that a data-engine record becomes at its issue. -/
def State.flightOf (s : State) (n cc : Nat) (r : Rec) : Flight :=
  { opcode := r.opcode, ecls := r.ecls, tag := r.fullTag (s.rplIdx n), mark := if r.sv then some r.smark else none,
    slots := s.operands n r, issued := cc, replay := (s.core n).cur, phase := .queued, status := 0, addr := 0, dslot := 0xFF,
    fid := (s.core n).nextFid, woke := (r.ecls == 1 || r.ecls == 2) && (s.core n).wakes r.ecls cc }

/-- An operation wakes its wing, if it does, and joins those in flight. -/
def State.enqueue (s : State) (n : Nat) (f : Flight) : State :=
  (if f.woke then s.wingWakes n f.ecls else s).updCore n fun c => { c with flights := c.flights ++ [f], nextFid := c.nextFid + 1 }

theorem onlyRegs_wingWakes (s : State) (n ecls : Nat) : OnlyRegs s (s.wingWakes n ecls) :=
  onlyRegs_trans ⟨_, rfl⟩ (onlyRegs_perf _ n 0x0B 1)

theorem stageEffect_wingWakes {rs ls : List Reg} {ecls : Nat} (hwake : .matWakecnt ∈ rs) (hcnt : .cntVal ∈ rs) :
    StageEffect n rs ls s (s.wingWakes n ecls) := by
  have hcount : StageEffect n rs ls s (s.count .matWakecnt n 0 (if ecls = 1 then 0 else 16) 16 1) := stageEffect_wr hwake
  exact hcount.trans (stageEffect_perf hcnt)

theorem State.rd_matWakecnt_perf (s : State) (n ev k i : Nat) : (s.perf n ev k).rd .matWakecnt n i = s.rd .matWakecnt n i :=
  (stageEffect_perf (n := n) (rs := [.cntVal]) (ls := []) (by decide)).regs _ _ _ (by decide) (.inl (by decide))

/-- A wing that wakes counts in its half of MAT_WAKECNT (R106). -/
theorem State.fd_wingWakes (s : State) (n : Nat) {ecls : Nat} (h : ecls = 1 ∨ ecls = 2) :
    (s.wingWakes n ecls).fd .matWakecnt n 0 (16 * (ecls - 1)) 16 =
      min (s.fd .matWakecnt n 0 (16 * (ecls - 1)) 16 + 1) 0xFFFF := by
  have hlo : (if ecls = 1 then 0 else 16) = 16 * (ecls - 1) := by obtain rfl | rfl := h <;> rfl
  rw [State.wingWakes, hlo, State.fd, State.rd_matWakecnt_perf]
  exact s.fd_count_same _ _ _ _ _ _ (by omega)

/-- Only the registers that every issue may change and MAT_WAKECNT, which a wing that wakes changes. -/
theorem issueEffect_enqueue {f : Flight} : IssueEffect n ([.matWakecnt] ++ issueRegs) s (s.enqueue n f) := by
  refine IssueEffect.trans ?_ (issueEffect_updCore (by decide) (by decide))
  split
  · exact (stageEffect_wingWakes (rs := [.matWakecnt, .cntVal]) (by decide) (by decide)).issueEffect
      (by decide) (by decide) (by decide)
  · exact .refl _ _ s

theorem marksKept_enqueue {f : Flight} : MarksKept n s (s.enqueue n f) := by
  refine MarksKept.trans ?_ marksKept_updCore
  split
  · exact (stageEffect_wingWakes (rs := [.matWakecnt, .cntVal]) (by decide) (by decide)).marksKept (by decide) (by decide)
  · exact ⟨fun _ => rfl, rfl⟩

theorem State.core_enqueue (s : State) (n : Nat) (f : Flight) :
    (s.enqueue n f).core n = { s.core n with flights := (s.core n).flights ++ [f], nextFid := (s.core n).nextFid + 1 } := by
  rw [State.enqueue, State.core_updCore]
  split
  · rw [core_of_onlyRegs (onlyRegs_wingWakes s n _)]
  · rfl

/-- MAT_WAKECNT after an operation has joined: as its wing wakes or not. -/
theorem State.rd_matWakecnt_enqueue (s : State) (n : Nat) (f : Flight) (i : Nat) : (s.enqueue n f).rd .matWakecnt n i =
    (if f.woke then s.wingWakes n f.ecls else s).rd .matWakecnt n i := by
  rw [State.enqueue]
  exact (State.sync_spec _ n).2 .matWakecnt n i (by simp)

/-- RECORD_ISSUE of a ready data-engine record with room: issue, and its operation joins those in flight. -/
theorem exec_recordIssue (h : RecordReady s n cc r) (he : r.ecls ≠ 0) (hroom : HasRoom s n r) (hpc : (s.core n).pc < 1023) :
    ∃ co, exec (.recordIssue n cc) s = .next ((s.commit n cc r co []).enqueue n (s.flightOf n cc r)) := by
  obtain ⟨co, hlook⟩ := State.look_of_ready h hroom
  refine ⟨co, ?_⟩
  obtain ⟨tag, x, hcore⟩ := s.core_commit n cc r co []
  have hlt : (((s.commit n cc r co []).enqueue n (s.flightOf n cc r)).core n).pc < 1024 := by
    rw [State.core_enqueue, hcore]
    exact Nat.succ_lt_succ hpc
  show execRecordIssue n cc s = _
  unfold execRecordIssue
  dsimp only
  rw [h.issuing, h.next, hlook, if_neg (by decide), if_neg (fun hc => he hc.1)]
  dsimp only
  rw [if_neg he]
  exact congrArg _ (State.pastHalf_of_lt hlt)

/-- Settles O11: the issue changes marks and status, the queue gains the operation with what it captured, and MAT_WAKECNT counts
where the wing wakes. -/
theorem dataRecordIssues : Obligations.DataRecordIssues := by
  unfold Obligations.DataRecordIssues
  intro s n cc r h he hpc htotal hengine
  obtain ⟨co, hexec⟩ := exec_recordIssue h he (fun _ => ⟨htotal, hengine⟩) hpc
  obtain ⟨tag, x, hcore⟩ := s.core_commit n cc r co []
  have hissue : IssueEffect n ([.matWakecnt] ++ issueRegs) s (s.commit n cc r co []) := issueEffect_commit (by decide)
  have hcommit : ∀ i, (s.commit n cc r co []).rd .matWakecnt n i = s.rd .matWakecnt n i := fun i =>
    (issueEffect_commit (List.Subset.refl issueRegs)).effect.regs _ _ _ List.not_mem_nil (.inl (by decide))
  have heff := hissue.trans (issueEffect_enqueue (f := s.flightOf n cc r))
  have hmarks := (marksChanged_commit s n cc r co []).kept (marksKept_enqueue (f := s.flightOf n cc r))
  have hq := (s.commit n cc r co []).core_enqueue n (s.flightOf n cc r)
  rw [hcore] at hq
  refine ⟨_, s.flightOf n cc r, hexec, ?_, rfl, rfl, rfl, rfl, rfl, ?_, rfl, rfl, ?_, ?_, hmarks.marksAfter (by simp [changeOf]),
    heff.issueFrame, heff.effect.sameMem, fun hwake => ?_, fun hwake i => ?_⟩
  · rw [hq]
  · exact congrArg (r.tag * 256 + ·) (Nat.mod_eq_of_lt (s.fd_lt _ _ _ _ _))
  · rw [hq]
  · rw [hq]
  · obtain ⟨hwing, hasleep⟩ := hwake
    have hwoke : (s.flightOf n cc r).woke = true := by simpa [State.flightOf, hasleep] using hwing
    have hcount := (s.commit n cc r co []).fd_wingWakes n hwing
    rw [State.fd, State.fd, hcommit] at hcount
    rw [State.fd, State.rd_matWakecnt_enqueue, if_pos hwoke]
    exact hcount
  · have hwoke : ¬(s.flightOf n cc r).woke = true := by simpa [State.flightOf] using hwake
    rw [State.rd_matWakecnt_enqueue, if_neg hwoke, hcommit]

end Sys2Proof.Machine
end

section
/-! SUPPORT. Control records in their issue cc (R165, R186, R195), and the halt of a core (R175). -/

namespace Sys2Proof.Machine

open Sys2Proof.Claims

variable {s t : State} {n cc : Nat} {r : Rec} {rs ls : List Reg}

/-! ### Operands -/

/-- A position that an opcode does not use holds 0 (Table 6.2, R186). -/
theorem opnd_of_unused {roles : List Role} {k : Nat} (h : r.wellFormed = true) (hroles : opRoles r.opcode r.ecls = some roles)
    (hk : roles[k]? = some .u) : opnd s n r k = 0#64 := by
  simp only [Rec.wellFormed, hroles, Bool.and_eq_true, List.all_eq_true] at h
  have hslot := h.2
  rw [opnd, vAt, List.getD_eq_getElem?_getD]
  cases hp : (r.kinds.zip r.slots)[k]? with
  | none => simp [State.operands, hp]
  | some p =>
    obtain ⟨kind, slot⟩ := p
    have hzip : (List.zipWith (fun role ks => slotOk role ks.1 ks.2) roles (r.kinds.zip r.slots))[k]? = some (slotOk .u kind slot) := by
      rw [List.getElem?_zipWith, hk, hp]
    have hok := hslot _ (List.mem_of_getElem? hzip)
    have hkind : kind = 0 := by
      unfold slotOk at hok
      split at hok <;> simp_all
    subst hkind
    simp [State.operands, hp]

/-- A ready control record whose operands lie inside its masks issues with its signal and takes effect (R195). -/
theorem ctlRow_of_ready {op : Nat} {masks : List Nat} {eff : State → List W64 → CtlOut} {ds : List (Nat × Int)} {f : State → State}
    (h : RecordReady s n cc r) (hop : r.opcode = op) (he : r.ecls = 0)
    (hmask : ∀ e ∈ ((List.range 4).map (opnd s n r)).zip masks, e.1 &&& ~~~(BitVec.ofNat 64 e.2) = 0#64)
    (heff : eff s ((List.range 4).map (opnd s n r)) = .go ds f) :
    ∃ co, ctlRow s n cc op masks eff = (f (s.commit n cc r co (ds ++ r.signals))).pastHalf n := by
  obtain ⟨co, hlook⟩ := State.look_of_ready h fun hne => absurd he hne
  have hall : ((((List.range 4).map (opnd s n r)).zip masks).all fun e =>
      decide (e.1 &&& ~~~(BitVec.ofNat 64 e.2) = 0#64)) = true :=
    List.all_eq_true.2 fun e hmem => decide_eq_true (hmask e hmem)
  have hskip : (!s.issuing n || (s.nextRec n).opcode != op || (s.nextRec n).ecls != 0) = false := by
    simp [h.issuing, h.next, hop, he]
  have hvals : (List.range 4).map (vAt (s.operands n r)) = (List.range 4).map (opnd s n r) := rfl
  refine ⟨co, ?_⟩
  unfold ctlRow
  rw [hskip, if_neg (by decide), hlook]
  dsimp only
  rw [hvals, hall, if_neg (by decide), heff]
  rfl

/-! ### Halting -/

theorem stageEffect_updCore {f : CoreSt → CoreSt} (hf : (f (s.core n)).flights = (s.core n).flights) (hstat : .coreStat ∈ rs)
    (hdma : .dmaStat ∈ rs) : StageEffect n rs ls s (s.updCore n f) where
  regs r m i _ hr := (issueEffect_updCore hstat hdma).effect.regs r m i List.not_mem_nil hr
  cores := (issueEffect_updCore (rs := rs) hstat hdma).effect.cores
  flights := by rw [State.core_updCore, hf]
  frame := ⟨_, _, _, _, _, rfl⟩

/-- The registers that a halt changes (R175, R181). -/
def haltRegs : List Reg := [.coreHalt, .coreStat, .dmaStat, .trcMem, .trcStat, .trcCtl]

/-- CORE_HALT names the cause of a halt (Table 5.12). -/
def haltWord (tag opcode ecls status : Nat) : W64 :=
  BitVec.ofNat 64 ((tag % 2 ^ 32) * 2 ^ 32 + (opcode % 256) * 2 ^ 24 + (ecls % 16) * 2 ^ 20 + (status % 16) * 2 ^ 16)

theorem fld_haltWord_status (tag opcode ecls status : Nat) : fld (haltWord tag opcode ecls status) 16 4 = status % 16 := by
  simp only [fld, haltWord, BitVec.toNat_ofNat]; omega

theorem fld_haltWord_opcode (tag opcode ecls status : Nat) : fld (haltWord tag opcode ecls status) 24 8 = opcode % 256 := by
  simp only [fld, haltWord, BitVec.toNat_ofNat]; omega

/-- A core that has not halted halts, CORE_HALT naming the cause. -/
theorem State.halt_spec {tag opcode ecls status : Nat} {rep : Option Nat} {own : Bool} (h : (s.core n).halted = false) :
    let t := s.halt n tag opcode ecls status rep own
    (t.core n).halted = true ∧ t.rd .coreHalt n 0 = haltWord tag opcode ecls status ∧ StageEffect n haltRegs [] s t := by
  unfold State.halt
  dsimp only
  rw [h, if_neg (by decide)]
  generalize hu : (State.modCore s n _).wr Reg.coreHalt n 0 _ = u
  have hword : u.rd .coreHalt n 0 = haltWord tag opcode ecls status := by rw [← hu]; exact State.rd_wr _ _ _ _ _
  have hbefore : StageEffect n haltRegs [] s u := by
    rw [← hu]
    exact (stageEffect_modCore rfl).trans (stageEffect_wr (by decide))
  generalize hv : (u.raise .coreStat n 0 4).trace n .halt opcode ecls status 0xFF tag 0 = v
  have htraced (rs : List Reg) (hstat : .coreStat ∈ rs) (hm : .trcMem ∈ rs) (hs : .trcStat ∈ rs) : StageEffect n rs [] u v := by
    have hraise : StageEffect n rs [] u (u.raise .coreStat n 0 4) := stageEffect_wr hstat
    rw [← hv]
    exact hraise.trans (stageEffect_trace hm hs)
  have hfrozen (rs : List Reg) (hctl : .trcCtl ∈ rs) :
      StageEffect n rs [] v (if v.flag .trcCtl n 0 1 then v.setF .trcCtl n 0 0 1 0 else v) := .ite _ (stageEffect_wr hctl)
  generalize (if v.flag .trcCtl n 0 1 then v.setF .trcCtl n 0 0 1 0 else v) = w at hfrozen
  have hafter (rs : List Reg) (hstat : .coreStat ∈ rs) (hm : .trcMem ∈ rs) (hs : .trcStat ∈ rs) (hctl : .trcCtl ∈ rs)
      (hdma : .dmaStat ∈ rs) : StageEffect n rs [] u (w.updCore n fun c => { c with halted := true }) :=
    ((htraced rs hstat hm hs).trans (hfrozen rs hctl)).trans (stageEffect_updCore rfl hstat hdma)
  refine ⟨by rw [State.core_updCore], ?_, hbefore.trans (hafter _ (by decide) (by decide) (by decide) (by decide) (by decide))⟩
  rw [← hword]
  exact (hafter [.coreStat, .dmaStat, .trcMem, .trcStat, .trcCtl] (by decide) (by decide) (by decide) (by decide)
    (by decide)).regs _ _ _ List.not_mem_nil (.inl (by decide))

end Sys2Proof.Machine
end

section
/-! SUPPORT. Scratchpad words of control records (R118, R123, R198): their check units, and what DSLD, PLD and PST leave. -/

namespace Sys2Proof.Machine

open Sys2Proof.Claims

variable {s t : State} {n cc : Nat} {r : Rec} {rs : List Reg}

/-! ### Memory beside registers -/

theorem OpEffect.withMem {ls : List Reg} (h : OpEffect n rs ls s t) (mem : List Host.Cell) (bad : List (Nat × Nat)) :
    OpEffect n rs ls { s with mem := mem, bad := bad } { t with mem := mem, bad := bad } where
  regs := h.regs
  cores := h.cores
  frame := by
    obtain ⟨_, _, _, _, _, _, _, rfl⟩ := h.frame
    exact ⟨_, _, _, _, _, _, _, rfl⟩

/-- What the issue of a record may change does not depend on memory. -/
theorem IssueEffect.withMem (h : IssueEffect n rs s t) (mem : List Host.Cell) (bad : List (Nat × Nat)) :
    IssueEffect n rs { s with mem := mem, bad := bad } { t with mem := mem, bad := bad } :=
  ⟨h.effect.withMem mem bad, h.acc, h.stat, h.dma⟩

/-! ### Check units of aligned words -/

theorem inScratch_of_div {a b : Nat} (h : a / 64 = b / 64) : inScratch a = inScratch b := by
  rw [← inScratch_unit, h, inScratch_unit]

/-- The bytes of an aligned 8 B word are of one check unit. -/
theorem granule_word {a i : Nat} (ha : a % 8 = 0) (hi : i < 8) : granule (a + i) = granule a := by
  have h64 : (a + i) / 64 = a / 64 := by omega
  have h8 : (a + i) / 8 = a / 8 := by omega
  rw [granule, granule, inScratch_of_div h64, h64, h8]

theorem granule_granule (a : Nat) : granule (granule a) = granule a := by
  cases h : inScratch a with
  | false =>
    rw [granule_of_not_scratch h, granule_of_not_scratch ((inScratch_unit a).trans h)]
    omega
  | true =>
    have hg : granule a = a / 8 * 8 := by rw [granule, if_pos h]
    have hin : inScratch (a / 8 * 8) = true := (inScratch_of_div (by omega)).trans h
    rw [hg, granule, if_pos hin]
    omega

/-- An access to a byte of an aligned word ends as one to the word does. -/
theorem State.cellStatus_word (s : State) {a i : Nat} (ha : a % 8 = 0) (hi : i < 8) : s.cellStatus (a + i) = s.cellStatus a := by
  rw [← s.cellStatus_granule_eq, granule_word ha hi, s.cellStatus_granule_eq]

theorem State.isBad_of_cellStatus {a : Nat} (h : s.cellStatus a = 0) : s.isBad (granule a) = false := by
  by_contra hbad
  rw [State.cellStatus] at h
  split at h
  · omega
  · rw [if_pos (by simpa using hbad)] at h
    omega

theorem spadAddr_mod_eight {off : Nat} (h : off % 8 = 0) : spadAddr n off % 8 = 0 := by
  simp only [spadAddr, spadBase, spadSize]; omega

/-- No unit of good words fails an access to their bytes. -/
theorem failsAt_of_wordsGood {off k : Nat} (hoff : off % 8 = 0) (h : WordsGood s n off k) :
    s.failsAt ((List.range (8 * k)).map fun i => spadAddr n off + i) = [] := by
  refine State.failsAt_of_cellStatus (List.forall_mem_map.2 fun i hi => ?_)
  have hi' := List.mem_range.1 hi
  have hword : spadAddr n off + i = spadAddr n (off + 8 * (i / 8)) + i % 8 := by simp only [spadAddr]; omega
  rw [hword, s.cellStatus_word (spadAddr_mod_eight (by omega)) (by omega)]
  exact h _ (by omega)

/-- The write of a unit that passes its check puts its bytes, and no unit's check changes. -/
theorem State.writeUnit_keeps_isBad {g : Nat} (ws : List MWrite) (h : s.cellStatus g = 0) (hg : granule g = g) :
    ∃ bad, s.writeUnit g ws = ({ ws.foldl State.putByte s with bad := bad }, 0) ∧ ∀ x, (Sparse.get 0 bad x != 0) = s.isBad x := by
  have hgood : s.isBad g = false := hg ▸ State.isBad_of_cellStatus h
  rw [State.writeUnit, h]
  by_cases hc : coversAll g ws = true
  · refine ⟨Sparse.set 0 s.bad g 0, by simp [hc, State.setBad, putBytes_bad, b2n], fun x => ?_⟩
    rw [Sparse.get_set]
    split
    case isTrue hx => subst hx; simp [hgood]
    case isFalse => rfl
  · exact ⟨s.bad, by simp [hc, ← putBytes_bad s ws], fun _ => rfl⟩

/-- A whole write of an aligned word that passes its check puts its bytes, and no unit's check changes. -/
theorem State.writeAll_word {a : Nat} {bs : List Byte} (ha : a % 8 = 0) (hbs : bs.length = 8) (h : s.cellStatus a = 0) :
    ∃ mem bad, (s.writeAll (wholeWrites a bs)).1 = { s with mem := mem, bad := bad } ∧
      OnlyBytes a bs s { s with mem := mem, bad := bad } ∧ ∀ x, (Sparse.get 0 bad x != 0) = s.isBad x := by
  have hkeys : ∀ w ∈ wholeWrites a bs, granule w.addr = granule a := by
    rw [wholeWrites_eq, hbs]
    exact List.forall_mem_map.2 fun i hi => granule_word ha (List.mem_range.1 hi)
  have hlen : (wholeWrites a bs).length = 8 := by simp [wholeWrites, hbs]
  obtain ⟨w, ws, hws⟩ := List.exists_cons_of_length_eq_add_one hlen
  have hrun : groupRuns (fun w : MWrite => granule w.addr) (wholeWrites a bs) = [(granule a, wholeWrites a bs)] := by
    rw [hws] at hkeys ⊢
    exact groupRuns_of_key_eq w ws hkeys
  obtain ⟨bad, hunit, hbad⟩ := State.writeUnit_keeps_isBad (wholeWrites a bs) ((s.cellStatus_granule_eq a).trans h) (granule_granule a)
  obtain ⟨⟨mem, hput⟩, -⟩ := s.putBytes_spec (wholeWrites a bs)
  refine ⟨mem, bad, ?_, fun x => ?_, hbad⟩
  · rw [State.writeAll, hrun, List.foldl_cons, List.foldl_nil, hunit, hput]
  · rw [← byte_wholeWrites, hput]
    rfl

/-! ### The access of a control record -/

/-- The operands of a ready DSLD, PLD or PST lie inside the masks of Table 6.6. -/
theorem ctlAccess_masks {mask0 : Nat} (hlegal : r.wellFormed = true) (hroles : opRoles r.opcode r.ecls = some [.v, .v, .u, .u])
    (h0 : opnd s n r 0 &&& ~~~BitVec.ofNat 64 mask0 = 0#64) (h1 : opnd s n r 1 &&& ~~~0x3FFFFF#64 = 0#64) :
    ∀ e ∈ ((List.range 4).map (opnd s n r)).zip [mask0, 0x3FFFFF, 0, 0], e.1 &&& ~~~(BitVec.ofNat 64 e.2) = 0#64 := by
  have h2 : opnd s n r 2 = 0#64 := opnd_of_unused hlegal hroles rfl
  have h3 : opnd s n r 3 = 0#64 := opnd_of_unused hlegal hroles rfl
  have hzip : ((List.range 4).map (opnd s n r)).zip [mask0, 0x3FFFFF, 0, 0] =
      [(opnd s n r 0, mask0), (opnd s n r 1, 0x3FFFFF), (opnd s n r 2, 0), (opnd s n r 3, 0)] := rfl
  rw [hzip, h2, h3]
  exact List.forall_mem_cons.2 ⟨h0, List.forall_mem_cons.2 ⟨h1, List.forall_mem_cons.2 ⟨BitVec.zero_and,
    List.forall_mem_cons.2 ⟨BitVec.zero_and, List.forall_mem_nil _⟩⟩⟩⟩

/-- What DSLD, PLD and PST ask of the scratchpad is admitted and passes its check: the record is ready, hazard watch is off, and
each word that it touches is in a bank that is on and good. -/
structure AccessGood (s : State) (n cc : Nat) (r : Rec) (op align : Nat) : Prop where
  ready : RecordReady s n cc r
  opcode : r.opcode = op
  control : r.ecls = 0
  roles : opRoles op 0 = some [.v, .v, .u, .u]
  within : (s.core n).pc < 1023
  unwatched : (s.core n).hzw = false
  target : opnd s n r 0 &&& ~~~0xFF#64 = 0#64
  offset : opnd s n r 1 &&& ~~~0x3FFFFF#64 = 0#64
  aligned : (opnd s n r 1).toNat % align = 0
  good : s.failsAt ((List.range align).map fun i => spadAddr n (opnd s n r 1).toNat + i) = []

/-- The state in which a word that PST writes at port 1 is lost: the record has issued, and the core halts (R118, R119). -/
def State.wordLostBy (s : State) (n waits op off tag : Nat) : State :=
  let u := (s.waited n 10 waits).raise .spdStat n 0 0
  (u.fault (statusRecord n tag op 0 7 (spadAddr n off) 0xFF)).halt n tag op 0 7 (some (u.core n).cur) true

theorem ctlAccess_of_good {waits op align : Nat} {write lost : Bool} {done : State → Nat → Nat → State}
    (h : AccessGood s n cc r op align) (hdone : ∀ u p off, (done u p off).core n = u.core n) :
    ∃ co tag, ctlAccess s n cc waits op align 0xFF write lost done =
      if (write && lost && s.portOf n 10 (bankOf (opnd s n r 1).toNat) == 1) = true then
        (s.commit n cc r co r.signals).wordLostBy n waits op (opnd s n r 1).toNat tag
      else (done (s.commit n cc r co r.signals) (opnd s n r 0).toNat (opnd s n r 1).toNat).waited n 10 waits := by
  obtain ⟨hready, hop, he, hroles, hpc, hhzw, h0, h1, halign, hfails⟩ := h
  have hhazard (fs : List Flight) (rng : Ranges) : s.hazard n 0 fs rng = none := by simp [State.hazard, hhzw]
  have hmask := ctlAccess_masks hready.legal (hop ▸ he ▸ hroles) h0 h1
  unfold ctlAccess
  rw [hready.next]
  extract_lets s0 r' tag vs off line rng as fails loses stat s1 u v
  change ∃ co tag, _ = if loses = true then (s.commit n cc r co r.signals).wordLostBy n waits op off tag
    else (done (s.commit n cc r co r.signals) (opnd s n r 0).toNat off).waited n 10 waits
  have hnone : fails = [] := hfails
  have hstat : stat = if loses then 7 else 0 := by
    cases hw : write with
    | false => simp [stat, loses, hnone, hw]
    | true => simp [stat, hnone, hw]
  obtain ⟨co, hrow⟩ : ∃ co, s1 = (if stat = 0 then done (s.commit n cc r co r.signals) (opnd s n r 0).toNat off
      else s.commit n cc r co r.signals).pastHalf n := by
    show ∃ co, ctlRow s n cc op _ _ = _
    refine ctlRow_of_ready (ds := []) (f := fun u => if stat = 0 then done u (opnd s n r 0).toNat off else u) hready hop he hmask ?_
    have hoff : off % align = 0 := halign
    rw [if_neg (not_not.2 hoff), hhazard]
    rfl
  obtain ⟨_, _, hcommit⟩ := s.core_commit n cc r co r.signals
  have hcore : (if stat = 0 then done (s.commit n cc r co r.signals) (opnd s n r 0).toNat off
      else s.commit n cc r co r.signals).core n = (s.commit n cc r co r.signals).core n := by
    split
    · exact hdone _ _ _
    · rfl
  have hpc1 : ((s.commit n cc r co r.signals).core n).pc = (s.core n).pc + 1 := by rw [hcommit]
  rw [State.pastHalf_of_lt (by rw [hcore, hpc1]; omega)] at hrow
  have hissued : s0.issuing n = true ∧ (s0.core n).pc < (s1.core n).pc :=
    ⟨hready.issuing, by rw [hrow, hcore, hpc1]; exact Nat.lt_succ_self _⟩
  refine ⟨co, tag, ?_⟩
  rw [if_pos hissued]
  cases hl : loses with
  | false =>
    have hok : stat = 0 := by rw [hstat, hl]; rfl
    rw [if_pos hok] at hrow ⊢
    simp only [u, hrow]
    rfl
  | true =>
    have hlost : stat = 7 := by rw [hstat, hl]; rfl
    have hne : stat ≠ 0 := by omega
    rw [if_neg hne] at hrow ⊢
    simp only [v, u, hrow, hlost, hnone]
    rfl

/-! ### DSLD -/

/-- What DSLD loads: the eight words from an offset, each into its word of the descriptor slot. -/
def State.loadDesc (s : State) (n slot off k : Nat) : State :=
  (List.range k).foldl (fun s k =>
    s.wr .coreDesc n (8 * slot + k) (BitVec.ofNat 64 (leNat (s.bytes (spadAddr n (off + 8 * k)) 8)))) s

theorem onlyRegs_loadDesc (s : State) (n slot off k : Nat) : OnlyRegs s (s.loadDesc n slot off k) := by
  induction k with
  | zero => exact ⟨_, rfl⟩
  | succ k ih =>
    rw [State.loadDesc, List.range_succ, List.foldl_append]
    exact onlyRegs_trans ih ⟨_, rfl⟩

theorem stageEffect_loadDesc {ls : List Reg} {slot off k : Nat} (h : .coreDesc ∈ rs) :
    StageEffect n rs ls s (s.loadDesc n slot off k) := by
  induction k with
  | zero => exact .refl n rs ls s
  | succ k ih =>
    rw [State.loadDesc, List.range_succ, List.foldl_append]
    exact ih.trans (stageEffect_wr h)

theorem State.bytes_congr (h : ∀ a, t.byte a = s.byte a) (a k : Nat) : t.bytes a k = s.bytes a k := by
  simp only [State.bytes, h]

/-- Each word of the slot holds the word of memory that stands for it; other words are as they were. -/
theorem State.rd_loadDesc (s : State) (n slot off k i : Nat) : (s.loadDesc n slot off k).rd .coreDesc n i =
    if 8 * slot ≤ i ∧ i < 8 * slot + k then
      BitVec.ofNat 64 (leNat (s.bytes (spadAddr n (off + 8 * (i - 8 * slot))) 8)) else s.rd .coreDesc n i := by
  induction k with
  | zero => rw [if_neg (by omega)]; rfl
  | succ k ih =>
    have hstep : s.loadDesc n slot off (k + 1) = (s.loadDesc n slot off k).wr .coreDesc n (8 * slot + k)
        (BitVec.ofNat 64 (leNat (s.bytes (spadAddr n (off + 8 * k)) 8))) := by
      have hbytes := State.bytes_congr (frame_of_onlyRegs (onlyRegs_loadDesc s n slot off k)).1.1 (spadAddr n (off + 8 * k)) 8
      rw [State.loadDesc, List.range_succ, List.foldl_append, ← hbytes]
      rfl
    rw [hstep]
    by_cases hi : 8 * slot + k = i
    · subst hi
      rw [State.rd_wr, if_pos (by omega), Nat.add_sub_cancel_left]
    · rw [State.rd_wr_ne _ _ _ _ _ _ _ _ (fun e => hi e.2.2), ih]
      exact if_congr (by omega) rfl rfl

/-! ### The records -/

/-- The registers that DSLD, PLD and PST change beside their results: those of every issue, and the waits of the control master. -/
theorem issueEffect_waited {k : Nat} (hconfl : .spdConfl ∈ rs) (hsub : issueRegs ⊆ rs) : IssueEffect n rs s (s.waited n 10 k) :=
  (stageEffect_waited (rs := [.spdConfl, .cntVal]) (by decide) (by decide)).issueEffect
    (List.cons_subset.2 ⟨hconfl, List.Subset.trans (by decide) hsub⟩) (by decide) (by decide)

theorem marksKept_waited {k : Nat} : MarksKept n s (s.waited n 10 k) :=
  (stageEffect_waited (rs := [.spdConfl, .cntVal]) (by decide) (by decide)).marksKept (by decide) (by decide)

theorem onlyRegs_waited (s : State) (n master k : Nat) : OnlyRegs s (s.waited n master k) :=
  onlyRegs_trans ⟨_, rfl⟩ (onlyRegs_perf _ n _ k)

/-- DSLD and PLD after their issue: they load registers `dest`, and the waits of their request are counted. -/
theorem load_completes {co : Bool} {u : State} {dest : Reg} (waits : Nat) (honly : OnlyRegs (s.commit n cc r co r.signals) u)
    (h : StageEffect n [dest] [] (s.commit n cc r co r.signals) u) (hdest : dest ∉ .spdConfl :: issueRegs) :
    let t := u.waited n 10 waits
    (t.core n).pc = (s.core n).pc + 1 ∧ (∀ i, t.rd dest n i = u.rd dest n i) ∧
      MarksAfter s n r true (fun _ => 0) (s.markThr n) t ∧ IssueFrame n [dest, .spdConfl] s t ∧ SameMem s t := by
  simp only [List.mem_cons, issueRegs, List.not_mem_nil, or_false, not_or] at hdest
  obtain ⟨hconfl, hmark, hstat, hdma, -, -, hcnt⟩ := hdest
  obtain ⟨_, _, hcore⟩ := s.core_commit n cc r co r.signals
  have hwait := onlyRegs_waited u n 10 waits
  have hnot (r : Reg) (hr : dest ≠ r) : r ∉ [dest] := fun hmem => hr (List.mem_singleton.1 hmem).symm
  have heff : IssueEffect n ([dest, .spdConfl] ++ issueRegs) s (u.waited n 10 waits) :=
    ((issueEffect_commit (List.subset_append_right _ _)).trans
      (h.issueEffect (by simp) (hnot _ hstat) (hnot _ hdma))).trans
      (issueEffect_waited (by simp) (List.subset_append_right _ _))
  have hmarks := ((marksChanged_commit s n cc r co r.signals).kept (h.marksKept (hnot _ hmark) (hnot _ hstat))).kept
    (marksKept_waited (k := waits))
  refine ⟨?_, fun i => ?_, hmarks.marksAfter fun m => by simpa using changeOf_signals r m, heff.issueFrame, heff.effect.sameMem⟩
  · rw [core_of_onlyRegs hwait, core_of_onlyRegs honly, hcore]
  · exact (stageEffect_waited (rs := [.spdConfl, .cntVal]) (ls := []) (by decide) (by decide)).regs _ _ _ List.not_mem_nil
      (.inl (by simp [hconfl, hcnt]))

/-- What the issue of a control record leaves of other registers, and of memory, is what it found. -/
theorem commit_sees (s : State) (n cc : Nat) (r : Rec) (co : Bool) (ds : List (Nat × Int)) :
    (∀ q m i, q ∉ issueRegs → (s.commit n cc r co ds).rd q m i = s.rd q m i) ∧
      ∀ a, (s.commit n cc r co ds).byte a = s.byte a := by
  have heff := (issueEffect_commit (s := s) (n := n) (cc := cc) (r := r) (co := co) (ds := ds) (List.Subset.refl issueRegs)).effect
  exact ⟨fun q m i hq => heff.regs q m i List.not_mem_nil (.inl hq), heff.sameMem.1⟩

/-! ### PST -/

/-- PST after its issue: the word is written, no check code changes, and the waits of its request are counted. -/
theorem store_completes {co : Bool} {a : Nat} {bs : List Byte} (waits : Nat) (ha : a % 8 = 0) (hbs : bs.length = 8)
    (hgood : s.cellStatus a = 0) :
    let t := ((s.commit n cc r co r.signals).writeAll (wholeWrites a bs)).1.waited n 10 waits
    (t.core n).pc = (s.core n).pc + 1 ∧ OnlyBytes a bs s t ∧ (∀ g, t.isBad g = s.isBad g) ∧
      MarksAfter s n r true (fun _ => 0) (s.markThr n) t ∧ IssueFrame n [.spdConfl] s t := by
  have hissue : IssueEffect n ([.spdConfl] ++ issueRegs) s (s.commit n cc r co r.signals) :=
    issueEffect_commit (List.subset_append_right _ _)
  have hmarks := marksChanged_commit s n cc r co r.signals
  obtain ⟨_, _, hcore⟩ := s.core_commit n cc r co r.signals
  have hcell : (s.commit n cc r co r.signals).cellStatus a = 0 := by
    have hbank := (commit_sees s n cc r co r.signals).1 .spdBankst
    simp only [State.cellStatus, State.bankState, State.fd, hbank _ _ (by decide), hissue.effect.sameMem.2] at hgood ⊢
    exact hgood
  obtain ⟨hbyte, hcheck⟩ := hissue.effect.sameMem
  generalize s.commit n cc r co r.signals = c at *
  obtain ⟨mem, bad, hwrite, hbytes, hbads⟩ := State.writeAll_word ha hbs hcell
  rw [hwrite]
  have hwait := onlyRegs_waited { c with mem := mem, bad := bad } n 10 waits
  obtain ⟨⟨hbyte', hcheck'⟩, -⟩ := frame_of_onlyRegs hwait
  have heff : IssueEffect n ([.spdConfl] ++ issueRegs) { s with mem := mem, bad := bad } _ :=
    (hissue.withMem mem bad).trans (issueEffect_waited (k := waits) (by simp) (List.subset_append_right _ _))
  refine ⟨?_, fun x => ?_, fun g => ?_, ?_, heff.issueFrame⟩
  · rw [core_of_onlyRegs hwait]
    exact congrArg CoreSt.pc hcore
  · rw [hbyte', hbytes x, hbyte]
  · rw [hcheck', ← hcheck]
    exact hbads g
  · have hwritten : MarksChanged n _ s { c with mem := mem, bad := bad } := hmarks.kept ⟨fun _ => rfl, rfl⟩
    exact (hwritten.kept marksKept_waited).marksAfter fun m => by simpa using changeOf_signals r m

/-- A word of PST that is lost: SPD_STAT.LOST is set and the core halts with LOST, memory as it was (R118, R119). -/
theorem lostWord_halts {op off tag : Nat} (waits : Nat) (h : (s.core n).halted = false) :
    let t := s.wordLostBy n waits op off tag
    SameMem s t ∧ t.flag .spdStat n 0 0 = true ∧ (t.core n).halted = true ∧ t.fd .coreHalt n 0 16 4 = 7 ∧
      t.fd .coreHalt n 0 24 8 = op % 256 := by
  unfold State.wordLostBy
  dsimp only
  generalize hu : (s.waited n 10 waits).raise .spdStat n 0 0 = u
  have honly : OnlyRegs s u := hu ▸ onlyRegs_trans (onlyRegs_waited s n 10 waits) ⟨_, rfl⟩
  have hlost : u.flag .spdStat n 0 0 = true := by rw [← hu]; exact State.flag_raise_same _ _ _ _ _ (by decide)
  generalize statusRecord n tag op 0 7 (spadAddr n off) 0xFF = f
  have hfault : StageEffect n [] logRegs u (u.fault f) := stageEffect_fault (List.Subset.refl _)
  have hrun : ((u.fault f).core n).halted = false := by
    obtain ⟨⟨_, _, _, _, hf⟩, -⟩ := u.fault_spec f
    rw [hf]
    exact (congrArg CoreSt.halted (core_of_onlyRegs honly n)).trans h
  obtain ⟨hhalt, hword, heff⟩ := State.halt_spec (tag := tag) (opcode := op) (ecls := 0) (status := 7)
    (rep := some (u.core n).cur) (own := true) hrun
  obtain ⟨⟨hbyte, hbad⟩, -⟩ := frame_of_onlyRegs honly
  obtain ⟨hbyte', hbad'⟩ := hfault.toOpEffect.sameMem
  obtain ⟨hbyte'', hbad''⟩ := heff.toOpEffect.sameMem
  refine ⟨⟨fun a => ?_, fun g => ?_⟩, ?_, hhalt, ?_, ?_⟩
  · rw [hbyte'', hbyte', hbyte]
  · rw [hbad'', hbad', hbad]
  · rw [heff.toOpEffect.flag_eq (by decide) (by decide), hfault.toOpEffect.flag_eq (by decide) (by decide), hlost]
  · rw [State.fd, hword, fld_haltWord_status]
  · rw [State.fd, hword, fld_haltWord_opcode]

/-! ### The commands -/

theorem length_leBytes (k x : Nat) : (leBytes k x).length = k := by
  induction k generalizing x with
  | zero => rfl
  | succ k ih => rw [leBytes, List.length_cons, ih]

/-- A ready DSLD, PLD or PST (of `8 * k` bytes) whose operands are admitted and whose words are good. -/
theorem accessGood_of_wordsGood {op k : Nat} (hready : RecordReady s n cc r) (he : r.ecls = 0) (hpc : (s.core n).pc < 1023)
    (hhzw : (s.core n).hzw = false) (h0 : opnd s n r 0 &&& ~~~0xFF#64 = 0#64) (h1 : opnd s n r 1 &&& ~~~0x3FFFFF#64 = 0#64)
    (hop : r.opcode = op) (hroles : opRoles op 0 = some [.v, .v, .u, .u]) (halign : (opnd s n r 1).toNat % (8 * k) = 0)
    (hgood : WordsGood s n (opnd s n r 1).toNat k) : AccessGood s n cc r op (8 * k) :=
  ⟨hready, hop, he, hroles, hpc, hhzw, h0, h1, halign,
    failsAt_of_wordsGood (Nat.mod_eq_zero_of_dvd ((Nat.dvd_mul_right 8 k).trans (Nat.dvd_of_mod_eq_zero halign))) hgood⟩

theorem exec_dsld (waits : Nat) (h : AccessGood s n cc r 0x11 64) : ∃ co, exec (.dsld n cc waits) s =
    .next (((s.commit n cc r co r.signals).loadDesc n (opnd s n r 0).toNat (opnd s n r 1).toNat 8).waited n 10 waits) := by
  obtain ⟨co, tag, hrun⟩ := ctlAccess_of_good (waits := waits) (write := false) (lost := false)
    (done := fun s slot off => s.loadDesc n slot off 8) h fun u p off => core_of_onlyRegs (onlyRegs_loadDesc u n p off 8) n
  rw [Bool.false_and, Bool.false_and, if_neg (by decide)] at hrun
  exact ⟨co, congrArg Host.Outcome.next hrun⟩

theorem exec_pld (waits : Nat) (h : AccessGood s n cc r 0x12 8) : ∃ co, exec (.pld n cc waits) s =
    .next (((s.commit n cc r co r.signals).wr .coreParam n (opnd s n r 0).toNat
      (BitVec.ofNat 64 (leNat (s.bytes (spadAddr n (opnd s n r 1).toNat) 8)))).waited n 10 waits) := by
  obtain ⟨co, tag, hrun⟩ := ctlAccess_of_good (waits := waits) (write := false) (lost := false)
    (done := fun s p off => s.wr .coreParam n p (BitVec.ofNat 64 (leNat (s.bytes (spadAddr n off) 8)))) h fun _ _ _ => rfl
  rw [Bool.false_and, Bool.false_and, if_neg (by decide), State.bytes_congr (commit_sees s n cc r co r.signals).2] at hrun
  exact ⟨co, congrArg Host.Outcome.next hrun⟩

/-- PST writes its register's value, or the core halts for the word lost at port 1. -/
theorem exec_pst (waits : Nat) (lost : Bool) (h : AccessGood s n cc r 0x13 8) : ∃ co tag, exec (.pst n cc waits lost) s =
    .next (if (lost && s.portOf n 10 (bankOf (opnd s n r 1).toNat) == 1) = true then
        (s.commit n cc r co r.signals).wordLostBy n waits 0x13 (opnd s n r 1).toNat tag
      else ((s.commit n cc r co r.signals).writeAll (wholeWrites (spadAddr n (opnd s n r 1).toNat)
        (leBytes 8 (s.rd .coreParam n (opnd s n r 0).toNat).toNat))).1.waited n 10 waits) := by
  obtain ⟨co, tag, hrun⟩ := ctlAccess_of_good (waits := waits) (write := true) (lost := lost)
    (done := fun s p off => (s.writeAll (wholeWrites (spadAddr n off) (leBytes 8 (s.param n p).toNat))).1) h fun u p off => by
      obtain ⟨⟨_, _, hw⟩, -⟩ := u.writeAll_spec (wholeWrites (spadAddr n off) (leBytes 8 (u.param n p).toNat))
      rw [hw]
      rfl
  rw [Bool.true_and, State.param, (commit_sees s n cc r co r.signals).1 _ _ _ (by decide)] at hrun
  exact ⟨co, tag, congrArg Host.Outcome.next hrun⟩

/-- Settles O10: each record issues, and what follows its issue is the load, the store, or the halt for the word lost. -/
theorem scratchpadRecordsComplete : Obligations.ScratchpadRecordsComplete := by
  unfold Obligations.ScratchpadRecordsComplete
  intro s n cc waits r hready he hpc hhzw h0 h1 p off
  refine ⟨fun hop halign hgood => ?_, fun hop halign hgood => ?_, fun hop halign hgood => ?_, fun hop halign hgood hport => ?_⟩
  · obtain ⟨co, hexec⟩ := exec_dsld waits (accessGood_of_wordsGood (k := 8) hready he hpc hhzw h0 h1 hop rfl halign hgood)
    obtain ⟨hregs, hbyte⟩ := commit_sees s n cc r co r.signals
    obtain ⟨hpc', hdesc, hmarks, hframe, hmem⟩ := load_completes (dest := .coreDesc) waits
      (onlyRegs_loadDesc (s.commit n cc r co r.signals) n p off 8) (stageEffect_loadDesc (by decide)) (by decide)
    refine ⟨_, hexec, hpc', fun i => ?_, hmarks, hframe, hmem⟩
    rw [hdesc, State.rd_loadDesc, hregs _ _ _ (by decide), State.bytes_congr hbyte]
    by_cases hi : i / 8 = p
    · have hmod : i - 8 * p = i % 8 := by omega
      rw [if_pos (by omega), if_pos hi, hmod]
    · rw [if_neg (by omega), if_neg hi]
  · obtain ⟨co, hexec⟩ := exec_pld waits (accessGood_of_wordsGood (k := 1) hready he hpc hhzw h0 h1 hop rfl halign hgood)
    obtain ⟨hregs, -⟩ := commit_sees s n cc r co r.signals
    obtain ⟨hpc', hparam, hmarks, hframe, hmem⟩ := load_completes (s := s) (cc := cc) (r := r) (co := co) (dest := .coreParam)
      (u := (s.commit n cc r co r.signals).wr .coreParam n p _) waits ⟨_, rfl⟩ (stageEffect_wr (by decide)) (by decide)
    refine ⟨_, hexec, hpc', ⟨?_, fun j hj => ?_⟩, hmarks, hframe, hmem⟩
    · rw [hparam, State.rd_wr]
    · rw [hparam, State.rd_wr_ne _ _ _ _ _ _ _ _ (fun e => hj e.2.2.symm), hregs _ _ _ (by decide)]
  · obtain ⟨co, tag, hexec⟩ := exec_pst waits false (accessGood_of_wordsGood (k := 1) hready he hpc hhzw h0 h1 hop rfl halign hgood)
    rw [Bool.false_and, if_neg (by decide)] at hexec
    exact ⟨_, hexec, store_completes waits (spadAddr_mod_eight halign) (length_leBytes 8 _) (hgood 0 (by decide))⟩
  · obtain ⟨co, tag, hexec⟩ := exec_pst waits true (accessGood_of_wordsGood (k := 1) hready he hpc hhzw h0 h1 hop rfl halign hgood)
    rw [if_pos (by simpa using hport)] at hexec
    have hissue := (issueEffect_commit (s := s) (n := n) (cc := cc) (r := r) (co := co) (ds := r.signals)
      (List.Subset.refl _)).effect.sameMem
    have hrunning : ((s.commit n cc r co r.signals).core n).halted = false := by
      obtain ⟨_, _, hcore⟩ := s.core_commit n cc r co r.signals
      have hi := hready.issuing
      simp only [State.issuing, Bool.and_eq_true, Bool.not_eq_true'] at hi
      rw [hcore]
      exact hi.1.2
    obtain ⟨⟨hbyte, hbad⟩, hlost, hhalt, hstat, hopc⟩ := lostWord_halts (op := 0x13) (off := off) (tag := tag) waits hrunning
    exact ⟨_, hexec, ⟨fun a => (hbyte a).trans (hissue.1 a), fun g => (hbad g).trans (hissue.2 g)⟩, hlost, hhalt, hstat, hopc⟩

end Sys2Proof.Machine
end

section
/-! SUPPORT. Whole writes of scratchpad lines (R113, R123): each word of a line in a bank that is on is written whole, whatever its
check was. -/

namespace Sys2Proof.Machine

open Sys2Proof.Claims

variable {s t : State} {n : Nat}

/-! ### Runs of whole units -/

/-- Elements of one key in front of a list are a run of their own, or join its first. -/
theorem groupRuns_append_of_key_eq {α : Type} {key : α → Nat} {k : Nat} (x : α) (xs rest : List α) (h : ∀ y ∈ x :: xs, key y = k) :
    (∃ l r, groupRuns key rest = (k, l) :: r ∧ groupRuns key (x :: xs ++ rest) = (k, x :: xs ++ l) :: r) ∨
      groupRuns key (x :: xs ++ rest) = (k, x :: xs) :: groupRuns key rest := by
  have hx : key x = k := h x List.mem_cons_self
  induction xs generalizing x with
  | nil =>
    rw [List.singleton_append, groupRuns]
    cases hr : groupRuns key rest with
    | nil => exact .inr (by rw [hx])
    | cons p r =>
      obtain ⟨k', l⟩ := p
      dsimp only
      by_cases hk : key x = k'
      · obtain rfl : k = k' := hx.symm.trans hk
        exact .inl ⟨l, r, rfl, by rw [if_pos hk]; rfl⟩
      · exact .inr (by rw [if_neg hk, hx])
  | cons y ys ih =>
    have hys : ∀ z ∈ y :: ys, key z = k := fun z hz => h z (List.mem_cons_of_mem _ hz)
    rw [List.cons_append, groupRuns]
    obtain ⟨l, r, hrest, hrun⟩ | hrun := ih y hys (hys y List.mem_cons_self)
    · exact .inl ⟨l, r, hrest, by rw [hrun]; dsimp only; rw [if_pos hx]; rfl⟩
    · exact .inr (by rw [hrun]; dsimp only; rw [if_pos hx])

/-- The writes put every byte of the check unit at `g` whole. -/
def Covered (g : Nat) (ws : List MWrite) : Prop := ∀ i, i < granuleSize g → ∃ w ∈ ws, w.addr = g + i ∧ w.mask = 0xFF#8

/-- Bytes that one write puts whole are written. -/
theorem foldl_mask_of_whole {x : Nat} {ws : List MWrite} (h : ∃ w ∈ ws, w.addr = x ∧ w.mask = 0xFF#8) (m : Byte) :
    ws.foldl (fun m w => if w.addr = x then m ||| w.mask else m) m = 0xFF#8 := by
  have hor (b : Byte) : b ||| 0xFF#8 = 0xFF#8 := BitVec.or_allOnes
  have hfull (ws : List MWrite) : ws.foldl (fun m w => if w.addr = x then m ||| w.mask else m) 0xFF#8 = 0xFF#8 := by
    induction ws with
    | nil => rfl
    | cons w ws ih =>
      rw [List.foldl_cons]
      split
      · rw [BitVec.or_comm, hor]; exact ih
      · exact ih
  induction ws generalizing m with
  | nil => simp at h
  | cons w ws ih =>
    rw [List.foldl_cons]
    obtain ⟨w', hw, haddr, hmask⟩ := h
    obtain rfl | hw := List.mem_cons.1 hw
    · rw [if_pos haddr, hmask, hor]; exact hfull ws
    · exact ih ⟨w', hw, haddr, hmask⟩ _

theorem coversAll_of_covered {g : Nat} {ws : List MWrite} (h : Covered g ws) : coversAll g ws = true :=
  List.all_eq_true.2 fun i hi => beq_iff_eq.2 (foldl_mask_of_whole (h i (List.mem_range.1 hi)) 0#8)

/-- Chunks of whole units, one after the other, make runs of whole units. -/
theorem covered_of_mem_groupRuns {cs : List (Nat × List MWrite)}
    (h : ∀ c ∈ cs, c.2 ≠ [] ∧ (∀ w ∈ c.2, granule w.addr = c.1) ∧ Covered c.1 c.2) :
    ∀ g ∈ groupRuns (fun w : MWrite => granule w.addr) (cs.flatMap Prod.snd), Covered g.1 g.2 := by
  induction cs with
  | nil => simp [groupRuns]
  | cons c cs ih =>
    obtain ⟨⟨hne, hkey, hcov⟩, hcs⟩ := List.forall_mem_cons.1 h
    obtain ⟨w, ws, hw⟩ := List.exists_cons_of_ne_nil hne
    have hrest := ih hcs
    rw [List.flatMap_cons, hw]
    rw [hw] at hkey hcov
    obtain ⟨l, r, hr, hrun⟩ | hrun := groupRuns_append_of_key_eq w ws (cs.flatMap Prod.snd) hkey <;> rw [hrun]
    · rw [hr] at hrest
      refine List.forall_mem_cons.2 ⟨fun i hi => ?_, (List.forall_mem_cons.1 hrest).2⟩
      obtain ⟨w', hmem, hw'⟩ := hcov i hi
      exact ⟨w', List.mem_append_left _ hmem, hw'⟩
    · exact List.forall_mem_cons.2 ⟨hcov, hrest⟩

/-- The bank of a scratchpad unit is on. -/
def State.unitOn (s : State) (g : Nat) : Prop := inScratch g = true → s.bankState (spadCore g) (bankOf (spadOff g)) = 0

/-- A unit in a bank that is on, written whole, holds what is written and passes its check. -/
theorem State.writeUnit_of_covered {g : Nat} {ws : List MWrite} (hon : s.unitOn g) (hc : Covered g ws) :
    s.writeUnit g ws = ({ ws.foldl State.putByte s with bad := Sparse.set 0 s.bad g 0 }, 0) := by
  have hst : s.cellStatus g ≠ 6 := by
    rw [State.cellStatus]
    split
    case isTrue h =>
      rw [Bool.and_eq_true, bne_iff_ne] at h
      exact absurd (hon h.1) h.2
    case isFalse => split <;> decide
  rw [State.writeUnit, if_neg hst, if_pos (coversAll_of_covered hc), State.setBad, putBytes_bad]
  rfl

/-- Writes of whole units in banks that are on put their bytes, none fails, and only their units change their check. -/
theorem State.writeAll_of_covered {ws : List MWrite}
    (h : ∀ g ∈ groupRuns (fun w : MWrite => granule w.addr) ws, s.unitOn g.1 ∧ Covered g.1 g.2) :
    ∃ bad, s.writeAll ws = ({ ws.foldl State.putByte s with bad := bad }, []) ∧
      ∀ x, (∀ w ∈ ws, granule w.addr ≠ x) → Sparse.get 0 bad x = Sparse.get 0 s.bad x := by
  have hflat := flatMap_groupRuns (fun w : MWrite => granule w.addr) ws
  have hkeys := key_of_mem_groupRuns (fun w : MWrite => granule w.addr) ws
  rw [State.writeAll]
  generalize groupRuns (fun w : MWrite => granule w.addr) ws = l at h hflat hkeys
  subst hflat
  induction l generalizing s with
  | nil => exact ⟨s.bad, rfl, fun _ _ => rfl⟩
  | cons g l ih =>
    obtain ⟨⟨hon, hcov⟩, hl⟩ := List.forall_mem_cons.1 h
    obtain ⟨⟨hne, hkey⟩, hkeys⟩ := List.forall_mem_cons.1 hkeys
    obtain ⟨⟨mem, hput⟩, -⟩ := s.putBytes_spec g.2
    have honAfter (x : Nat) (hx : s.unitOn x) : State.unitOn { g.2.foldl State.putByte s with bad := Sparse.set 0 s.bad g.1 0 } x := by
      rw [hput]
      exact hx
    obtain ⟨bad, hrest, hbad⟩ := ih (s := { g.2.foldl State.putByte s with bad := Sparse.set 0 s.bad g.1 0 })
      (fun q hq => ⟨honAfter q.1 (hl q hq).1, (hl q hq).2⟩) hkeys
    refine ⟨bad, ?_, fun x hx => ?_⟩
    · rw [List.foldl_cons, State.writeUnit_of_covered hon hcov]
      refine hrest.trans ?_
      rw [putBytes_with_bad, List.flatMap_cons, List.foldl_append]
    · rw [List.flatMap_cons] at hx
      obtain ⟨w, ws, hw⟩ := List.exists_cons_of_ne_nil hne
      have hg : g.1 ≠ x := by
        rw [← hkey w (by rw [hw]; exact List.mem_cons_self)]
        exact hx w (List.mem_append_left _ (by rw [hw]; exact List.mem_cons_self))
      rw [hbad x fun w hw => hx w (List.mem_append_right _ hw), Sparse.get_set, if_neg hg]

/-! ### Lines -/

/-- An aligned line of a scratchpad, in a bank that is on. -/
structure LineOn (s : State) (a : Nat) : Prop where
  aligned : a % 64 = 0
  scratch : inScratch a = true
  on : s.bankState (spadCore a) (bankOf (spadOff a)) = 0

/-- The words of a line, each with its eight whole bytes. -/
def lineWords (a : Nat) (bs : List Byte) : List (Nat × List MWrite) :=
  (List.range 8).map fun i => (a + 8 * i, (List.range 8).map fun j => MWrite.whole (a + (8 * i + j)) (bs.getD (8 * i + j) 0))

theorem wholeWrites_eq_lineWords {a : Nat} {bs : List Byte} (h : bs.length = 64) :
    wholeWrites a bs = (lineWords a bs).flatMap Prod.snd := by
  have hsplit : List.range 64 = (List.range 8).flatMap fun i => (List.range 8).map fun j => 8 * i + j := by decide
  rw [wholeWrites_eq, h, hsplit, lineWords, List.flatMap_map, List.map_flatMap]
  simp only [List.map_map]
  rfl

theorem inScratch_line {a i : Nat} (ha : a % 64 = 0) (hi : i < 64) : inScratch (a + i) = inScratch a :=
  inScratch_of_div (by omega)

/-- Each word of a line is a check unit, whole, in a bank that is on. -/
theorem lineWords_covered {a : Nat} {bs : List Byte} (h : LineOn s a) :
    ∀ c ∈ lineWords a bs, (c.2 ≠ [] ∧ (∀ w ∈ c.2, granule w.addr = c.1) ∧ Covered c.1 c.2) ∧ s.unitOn c.1 := by
  obtain ⟨ha, hs, hon⟩ := h
  refine List.forall_mem_map.2 fun i hi => ?_
  have hi' := List.mem_range.1 hi
  have hin (j : Nat) (hj : j < 64) : inScratch (a + j) = true := (inScratch_line ha hj).trans hs
  refine ⟨⟨by simp [List.range_succ], List.forall_mem_map.2 fun j hj => ?_, fun j hj => ?_⟩, fun _ => ?_⟩
  · have hj' := List.mem_range.1 hj
    rw [MWrite.whole, granule, if_pos (hin _ (by omega))]
    show (a + (8 * i + j)) / 8 * 8 = a + 8 * i
    omega
  · rw [granuleSize, if_pos (hin _ (by omega))] at hj
    exact ⟨_, List.mem_map.2 ⟨j, List.mem_range.2 hj, rfl⟩, (Nat.add_assoc _ _ _).symm, rfl⟩
  · have hcore : spadCore (a + 8 * i) = spadCore a := by simp only [spadCore, spadBase, spadSize]; omega
    have hbank : bankOf (spadOff (a + 8 * i)) = bankOf (spadOff a) := by simp only [bankOf, spadOff, spadBase, spadSize]; omega
    rw [hcore, hbank, hon]

/-- The writes of lines that are on put their bytes, none fails, and only the lines' units change their check. -/
theorem State.writeLines_of_on {ls : List (Nat × List Byte)} (h : ∀ e ∈ ls, LineOn s e.1 ∧ e.2.length = 64) :
    ∃ mem bad, writeLines [] ls s = ({ s with mem := mem, bad := bad }, []) ∧
      mem = (ls.foldl (fun s e => (wholeWrites e.1 e.2).foldl State.putByte s) s).mem ∧
      ∀ x, (∀ e ∈ ls, ¬(e.1 ≤ x ∧ x < e.1 + 64)) → Sparse.get 0 bad x = Sparse.get 0 s.bad x := by
  have hkeep : ∀ w : MWrite, s.writeLost 2 [] w = false := fun w => by simp [State.writeLost, State.wordLost]
  have hsplit (ws : List MWrite) : splitWrites (s.writeLost 2 []) ws = (ws, []) := by simp [splitWrites, hkeep]
  have hwords : ls.flatMap (fun e => wholeWrites e.1 e.2) = (ls.flatMap fun e => lineWords e.1 e.2).flatMap Prod.snd := by
    rw [List.flatMap_assoc]
    exact List.flatMap_congr fun e he => wholeWrites_eq_lineWords (h e he).2
  have hcov : ∀ c ∈ ls.flatMap fun e => lineWords e.1 e.2,
      (c.2 ≠ [] ∧ (∀ w ∈ c.2, granule w.addr = c.1) ∧ Covered c.1 c.2) ∧ s.unitOn c.1 := fun c hc => by
    obtain ⟨e, he, hc⟩ := List.mem_flatMap.1 hc
    exact lineWords_covered (h e he).1 c hc
  have hunits : ∀ w ∈ ls.flatMap fun e => wholeWrites e.1 e.2, s.unitOn (granule w.addr) := fun w hw => by
    rw [hwords] at hw
    obtain ⟨c, hc, hw⟩ := List.mem_flatMap.1 hw
    rw [(hcov c hc).1.2.1 w hw]
    exact (hcov c hc).2
  obtain ⟨bad, hall, hbad⟩ := State.writeAll_of_covered (s := s) (ws := ls.flatMap fun e => wholeWrites e.1 e.2) fun g hg =>
    ⟨forall_groupRuns_key (p := s.unitOn) hunits g hg, covered_of_mem_groupRuns (fun c hc => (hcov c hc).1) g (hwords ▸ hg)⟩
  obtain ⟨⟨mem, hput⟩, -⟩ := s.putBytes_spec (ls.flatMap fun e => wholeWrites e.1 e.2)
  refine ⟨mem, bad, ?_, ?_, fun x hx => hbad x fun w hw => ?_⟩
  · rw [writeLines, hsplit]
    dsimp only
    rw [hall, hput]
    rfl
  · rw [← List.foldl_flatMap, hput]
  · rw [hwords] at hw
    obtain ⟨c, hc, hw⟩ := List.mem_flatMap.1 hw
    obtain ⟨e, he, hce⟩ := List.mem_flatMap.1 hc
    obtain ⟨i, hi, rfl⟩ := List.mem_map.1 hce
    have hi' := List.mem_range.1 hi
    rw [(hcov _ hc).1.2.1 w hw]
    rintro rfl
    exact hx e he ⟨by omega, by omega⟩

/-- Bytes outside the lines written are as they were. -/
theorem byte_lines_of_outside {ls : List (Nat × List Byte)} {x : Nat} (h : ∀ e ∈ ls, ¬(e.1 ≤ x ∧ x < e.1 + e.2.length)) :
    (ls.foldl (fun s e => (wholeWrites e.1 e.2).foldl State.putByte s) s).byte x = s.byte x := by
  induction ls generalizing s with
  | nil => rfl
  | cons e ls ih =>
    obtain ⟨he, hls⟩ := List.forall_mem_cons.1 h
    rw [List.foldl_cons, ih hls, byte_wholeWrites, if_neg he]

/-- A byte holds `v` after lines that agree on it have been written, if one of them holds it or it held `v` before. -/
theorem byte_lines_of_agree {ls : List (Nat × List Byte)} {x : Nat} {v : Byte}
    (h : ∀ e ∈ ls, e.1 ≤ x → x < e.1 + e.2.length → e.2.getD (x - e.1) 0 = v)
    (hin : (∃ e ∈ ls, e.1 ≤ x ∧ x < e.1 + e.2.length) ∨ s.byte x = v) :
    (ls.foldl (fun s e => (wholeWrites e.1 e.2).foldl State.putByte s) s).byte x = v := by
  induction ls generalizing s with
  | nil => simpa using hin
  | cons e ls ih =>
    obtain ⟨he, hls⟩ := List.forall_mem_cons.1 h
    refine ih hls ?_
    rw [byte_wholeWrites]
    by_cases hx : e.1 ≤ x ∧ x < e.1 + e.2.length
    · rw [if_pos hx]
      exact .inr (he hx.1 hx.2)
    · rw [if_neg hx]
      simpa [hx] using hin

end Sys2Proof.Machine
end

section
/-! SUPPORT. Squares of 64 × 64 elements (R189, R190, R206, R207): where their rows and lines stand, and the lists that a load or a
drain goes through. -/

namespace Sys2Proof.Machine

open Sys2Proof.Claims

/-! ### Lists by position -/

theorem flatMap_range_map {α : Type} (g : Nat → Nat → α) (m : Nat) {l : Nat} (hl : 0 < l) :
    ((List.range m).flatMap fun r => (List.range l).map (g r)) = (List.range (m * l)).map fun q => g (q / l) (q % l) := by
  induction m with
  | zero => simp
  | succ m ih =>
    rw [List.range_succ, List.flatMap_append, ih, Nat.succ_mul, List.range_add, List.map_append, List.flatMap_singleton, List.map_map]
    congr 1
    refine List.map_congr_left fun k hk => ?_
    have hk' := List.mem_range.1 hk
    rw [Function.comp_apply, Nat.mul_comm m l, Nat.mul_add_div hl, Nat.mul_add_mod, Nat.div_eq_of_lt hk', Nat.mod_eq_of_lt hk',
      Nat.add_zero]

theorem length_flatMap_range {α : Type} (f : Nat → List α) {c : Nat} (N : Nat) (hlen : ∀ k, (f k).length = c) :
    ((List.range N).flatMap f).length = N * c := by
  induction N with
  | zero => simp
  | succ N ih => rw [List.range_succ, List.flatMap_append, List.length_append, ih, List.flatMap_singleton, hlen, Nat.succ_mul]

/-- Of pieces of one length laid end to end, the element at a position of piece `k`. -/
theorem getD_flatMap_range {α : Type} (f : Nat → List α) {c : Nat} (hlen : ∀ k, (f k).length = c) {N k b : Nat} (hk : k < N) (hb : b < c)
    (x : α) : ((List.range N).flatMap f).getD (c * k + b) x = (f k).getD b x := by
  induction N with
  | zero => omega
  | succ N ih =>
    have hlenN := length_flatMap_range f N hlen
    rw [List.range_succ, List.flatMap_append, List.flatMap_singleton]
    by_cases hkN : k < N
    · have hle : c * k + c ≤ N * c := by rw [Nat.mul_comm N c, ← Nat.mul_succ]; exact Nat.mul_le_mul_left c hkN
      rw [List.getD_append _ _ _ _ (by omega), ih hkN]
    · obtain rfl : k = N := by omega
      have hge : k * c ≤ c * k + b := by rw [Nat.mul_comm]; omega
      rw [List.getD_append_right _ _ _ _ (by omega), hlenN, Nat.mul_comm k c, Nat.add_sub_cancel_left]

theorem leNat_leBytes (k x : Nat) : leNat (leBytes k x) = x % 256 ^ k := by
  induction k generalizing x with
  | zero => simp [leBytes, leNat, Nat.mod_one]
  | succ k ih =>
    rw [leBytes, leNat, ih, BitVec.toNat_ofNat, pow_succ' 256 k]
    exact Nat.mod_mul.symm

/-! ### Layout -/

section
variable {d : TDesc} {dest : Bool}

/-- A descriptor that passes the checks of R192 for the scratchpad lies in it. -/
theorem TDesc.space_of_check (h : d.check ⟨[0], dest⟩ = 0) : d.space = 0 ∧ d.pastEnd = false := by
  unfold TDesc.check at h
  simp only [List.contains_cons, List.contains_nil, Bool.or_false, Bool.not_eq_true', beq_eq_false_iff_ne] at h
  split_ifs at h with h1 h2 h3 h4 h5 h6 h7 h8
  have hspace : d.space = 0 := not_not.1 h3
  exact ⟨hspace, by simpa [hspace] using h8⟩

theorem fmt_of_squareGood (h : SquareGood d dest) :
    (d.num.fmt = 0 ∧ d.fmt = .fp32) ∨ (d.num.fmt = 1 ∧ d.fmt = .bf16) := by
  obtain ⟨hfmt | hfmt, -⟩ := h <;> simp [TDesc.fmt, NumWord.format, Fmt.ofCode, hfmt]

/-- A row of a square is 4 lines of FP32 or 2 of BF16, each element 4 or 2 bytes. -/
theorem width_of_squareGood (h : SquareGood d dest) : d.w = 8 * rowLines d ∧ (rowLines d = 4 ∨ rowLines d = 2) := by
  obtain ⟨-, hf⟩ | ⟨-, hf⟩ := fmt_of_squareGood h <;> simp [TDesc.w, rowLines, hf, Fmt.width]

theorem accShape_of_squareGood (h : SquareGood d dest) : accShape d dest = 0 := by
  obtain ⟨hfmt, hext, hcheck, hbase, hstr⟩ := h
  have hbad : ¬(d.num.fmt ≠ 0 ∧ d.num.fmt ≠ 1) := by omega
  simp [accShape, hbad, hext, hcheck, hbase, hstr]

/-- The stream of a square: its rows, `str.1` bytes apart. -/
theorem streamSize_of_squareGood (h : SquareGood d dest) : d.streamSize = 63 * d.str.1 + 64 * rowLines d := by
  obtain ⟨hw, hl⟩ := width_of_squareGood h
  have hnarrow : d.fmt.narrow = false := by obtain ⟨-, hf⟩ | ⟨-, hf⟩ := fmt_of_squareGood h <;> simp [hf, Fmt.narrow]
  obtain ⟨-, hext, -⟩ := h
  simp only [TDesc.streamSize, hnarrow, TDesc.size, TDesc.rowBytes, hext, hw, cdiv]
  obtain hl | hl := hl <;> simp [hl]

/-- The bytes of a line stand one after the other, interleaved or not (R120, R189). -/
theorem TDesc.addr_add (d : TDesc) (n : Nat) {p i : Nat} (hp : p % 64 = 0) (hi : i < 64) : d.addr n (p + i) = d.addr n p + i := by
  have hmod : (p + i) % 64 = i := by omega
  have hdiv : (p + i) / 64 = p / 64 := by omega
  have hoff : d.offset (p + i) = d.offset p + i := by
    simp only [TDesc.offset, hmod, hdiv, hp]
    split <;> omega
  simp only [TDesc.addr, hoff]
  split
  · simp only [spadAddr]; omega
  · rfl

theorem TDesc.offset_aligned (h : d.base % 64 = 0) {p : Nat} (hp : p % 64 = 0) : d.offset p % 64 = 0 := by
  simp only [TDesc.offset]
  split <;> omega

/-- Two positions of an interleaved stream: the one behind in its column of lines is behind in the scratchpad. -/
theorem TDesc.offset_le_of_column {p q : Nat} (hlil : d.lil ≠ 0) (hmod : p / 64 % (d.lil + 1) = q / 64 % (d.lil + 1))
    (h : p / 64 / (d.lil + 1) < q / 64 / (d.lil + 1) ∨ (p / 64 = q / 64 ∧ p % 64 ≤ q % 64)) : d.offset p ≤ d.offset q := by
  simp only [TDesc.offset, if_neg hlil, hmod]
  obtain h | ⟨hdiv, hle⟩ := h
  · omega
  · rw [hdiv]; omega

/-- A stream inside the scratchpad has every byte inside it (R121, R192). -/
theorem TDesc.offset_lt_of_inside (h : d.pastEnd = false) {p : Nat} (hp : p < d.streamSize) : d.offset p < spadSize := by
  unfold TDesc.pastEnd at h
  dsimp only at h
  split at h
  case isTrue hlil =>
    simp only [TDesc.offset, if_pos hlil]
    simp only [decide_eq_false_iff_not] at h
    omega
  case isFalse hlil =>
    have hlines : p / 64 < cdiv d.streamSize 64 := by simp only [cdiv]; omega
    have hlast : 64 * (cdiv d.streamSize 64 - 1) < d.streamSize := by simp only [cdiv]; omega
    generalize cdiv d.streamSize 64 = lines at *
    obtain ⟨m, hm⟩ : ∃ m, m = d.lil + 1 := ⟨_, rfl⟩
    have hmpos : 0 < m := by omega
    -- the last line of p's column of lines
    have hgap := Nat.div_add_mod (lines - 1 - p / 64) m
    have hk : (lines - 1 - p / 64) % m < m := Nat.mod_lt _ hmpos
    generalize (lines - 1 - p / 64) % m = k at hgap hk
    generalize (lines - 1 - p / 64) / m = j at hgap
    have hcol : lines - 1 - k = p / 64 + m * j := by omega
    have hend := List.any_eq_false.1 h k (List.mem_range.2 (hm ▸ hk))
    simp only [Bool.and_eq_true, decide_eq_true_eq, not_and, Nat.not_le] at hend
    refine lt_of_le_of_lt ?_ (hend (by omega))
    rw [hcol]
    have hq : min (64 * (p / 64 + m * j) + 63) (d.streamSize - 1) / 64 = p / 64 + m * j := by omega
    refine TDesc.offset_le_of_column hlil (by rw [hq, hm, Nat.add_mul_mod_self_left]) ?_
    rw [hq, ← hm, Nat.add_mul_div_left _ _ hmpos]
    by_cases hj : j = 0
    · subst hj
      exact .inr ⟨by omega, by omega⟩
    · exact .inl (by omega)

variable {n r k : Nat}

/-- The lines of a square are lines of its stream. -/
theorem squareLine_lt (h : SquareGood d dest) (hr : r < 64) (hk : k < rowLines d) : r * d.str.1 + 64 * k + 63 < d.streamSize := by
  have hrow : r * d.str.1 ≤ 63 * d.str.1 := Nat.mul_le_mul_right _ (by omega)
  rw [streamSize_of_squareGood h]
  omega

theorem linePos_aligned (h : SquareGood d dest) (r k : Nat) : (r * d.str.1 + 64 * k) % 64 = 0 := by
  obtain ⟨-, -, -, -, hstr⟩ := h
  have hrow : r * d.str.1 % 64 = 0 := by rw [Nat.mul_mod, hstr, Nat.mul_zero, Nat.zero_mod]
  omega

/-- A line of a square whose bank is on can be written. -/
theorem lineOn_squareLine {s : State} (hn : n < 256) (h : SquareGood d dest) (hr : r < 64) (hk : k < rowLines d)
    (hon : s.bankState n (bankOf (spadOff (squareLine n d r k))) = 0) : LineOn s (squareLine n d r k) := by
  have hpos := linePos_aligned h r k
  have hlt := squareLine_lt h hr hk
  obtain ⟨-, -, hcheck, hbase, -⟩ := h
  obtain ⟨hspace, hinside⟩ := TDesc.space_of_check hcheck
  have hoff : d.offset (r * d.str.1 + 64 * k) < spadSize := TDesc.offset_lt_of_inside hinside (by omega)
  have haligned := TDesc.offset_aligned hbase hpos
  have haddr : squareLine n d r k = spadAddr n (d.offset (r * d.str.1 + 64 * k)) := by rw [squareLine, TDesc.addr, if_pos hspace]
  rw [haddr] at hon ⊢
  refine ⟨?_, inScratch_spadAddr hn hoff, by rw [spadCore_spadAddr hoff]; exact hon⟩
  simp only [spadAddr, spadBase, spadSize]
  omega

/-- The lines of the rows, row by row, by number. -/
theorem rowLineAddrs_eq (h : SquareGood d dest) : rowLineAddrs n d =
    (List.range (64 * rowLines d)).map fun q => squareLine n d (q / rowLines d) (q % rowLines d) := by
  obtain ⟨-, hl⟩ := width_of_squareGood h
  exact flatMap_range_map (squareLine n d) 64 (by omega)

theorem length_rowLineAddrs (h : SquareGood d dest) : (rowLineAddrs n d).length = 64 * rowLines d := by
  rw [rowLineAddrs_eq h, List.length_map, List.length_range]

end

/-! ### Schedules -/

theorem length_bankSchedule (free items : List (Nat × Nat)) : (bankSchedule free items).2.length = items.length := by
  have hfold (r : List (Nat × Nat) × List Nat) : (items.foldl (fun (r : List (Nat × Nat) × List Nat) e =>
      let cc := max e.2 (Sparse.get 0 r.1 e.1)
      (Sparse.set 0 r.1 e.1 (cc + 1), r.2 ++ [cc])) r).2.length = r.2.length + items.length := by
    induction items generalizing r with
    | nil => rfl
    | cons e items ih =>
      rw [List.foldl_cons, ih]
      simp only [List.length_append, List.length_cons, List.length_nil]
      omega
  exact (hfold (free, [])).trans (Nat.zero_add _)

theorem length_loadWrites (ready : List Nat) : (loadWrites ready).length = ready.length := by
  have hfold (r : Option Nat × List Nat) : (ready.foldl (fun (r : Option Nat × List Nat) c =>
      let w := match r.1 with
        | some p => max (c + 1) (p + 1)
        | none => c + 1
      (some w, r.2 ++ [w])) r).2.length = r.2.length + ready.length := by
    induction ready generalizing r with
    | nil => rfl
    | cons c ready ih =>
      rw [List.foldl_cons, ih]
      simp only [List.length_append, List.length_cons, List.length_nil]
      omega
  exact (hfold (none, [])).trans (Nat.zero_add _)

theorem length_groupsOf {α : Type} {k : Nat} (hk : 0 < k) (m : Nat) (l : List α) (h : l.length = m * k) :
    (groupsOf k m l).length = m := by
  induction m generalizing l with
  | zero => rfl
  | succ m ih =>
    rw [Nat.succ_mul] at h
    have hne : l.isEmpty = false := by rw [List.isEmpty_eq_false_iff, ← List.length_pos_iff]; omega
    rw [groupsOf, hne, if_neg (by decide), List.length_cons, ih _ (by rw [List.length_drop]; omega)]

end Sys2Proof.Machine
end

section
/-! SUPPORT. Accumulator transfers (R107 to R111, R206 to R209): what a load, a clear and a drain of admitted operands leave. -/

namespace Sys2Proof.Machine

open Sys2Proof.Claims

variable {s t : State} {n : Nat} {rs ls : List Reg}

/-! ### Whole tiles -/

/-- The 64 × 64 elements of a tile, row by row. -/
def squareElems (val : Nat → Nat → W32) : List ElemOut := (grid 64 64).map fun p => ⟨p.1, p.2, val p.1 p.2, []⟩

theorem tileHolds_squareElems {tl : Nat} {val : Nat → Nat → W32} (htl : tl < 8) :
    TileHolds n tl 64 64 val s (s.accSets n tl (squareElems val)) := by
  intro m q i j hq hi hj
  have hes : ∀ e ∈ squareElems val, e.row < 64 ∧ e.col < 64 ∧ e.val = val e.row e.col :=
    List.forall_mem_map.2 fun p hp => ⟨(mem_grid.1 hp).1, (mem_grid.1 hp).2, rfl⟩
  have hin : (∃ e ∈ squareElems val, e.row = i ∧ e.col = j) ↔ i < 64 ∧ j < 64 :=
    ⟨fun _ => ⟨hi, hj⟩, fun h => ⟨_, List.mem_map.2 ⟨(i, j), mem_grid.2 h, rfl⟩, rfl, rfl⟩⟩
  have hacc := acc_accSets (s := s) (n := n) htl hes (m := m) hq hi hj
  simpa only [hin] using hacc

/-- Elements written row by row. -/
theorem foldl_rows_eq_accSets (s : State) (n tl : Nat) (val : Nat → Nat → W32) :
    (List.range 64).foldl (fun s i => (List.range 64).foldl (fun s j => s.accSet n tl i j (val i j)) s) s =
      s.accSets n tl (squareElems val) := by
  rw [State.accSets, squareElems, List.foldl_map, grid, List.foldl_flatMap]
  simp only [List.foldl_map]

/-! ### AZERO -/

theorem azeroBody_completes {f : Flight} (waits : Nat) (hctl : (vAt f.slots 0).toNat < 8) :
    ∃ u, azeroBody n waits s f = ⟨u, 0, 0, 0xFF⟩ ∧ (u.core n).flights = (s.core n).flights ∧
      TileHolds n (vAt f.slots 0).toNat 64 64 (fun _ _ => 0#32) s u ∧ OpEffect n opRegs logRegs s u := by
  unfold azeroBody
  extract_lets ctl u
  rw [if_neg (Nat.not_le.2 hctl)]
  have hstage : StageEffect n opRegs logRegs s u :=
    (stageEffect_waited (by decide) (by decide)).trans (stageEffect_modCore rfl)
  have hsets : (grid 64 64).foldl (fun s p => s.accSet n ctl p.1 p.2 0#32) u = u.accSets n ctl (squareElems fun _ _ => 0#32) := by
    rw [State.accSets, squareElems, List.foldl_map]
  rw [hsets]
  refine ⟨_, rfl, (flights_accSets _ _ _ _ _).trans hstage.flights, ?_, hstage.toOpEffect.trans opEffect_accSets⟩
  exact tileHolds_congr (hstage.acc_eq.imp Eq.symm Eq.symm) ⟨rfl, rfl⟩ (tileHolds_squareElems hctl)

/-! ### ALD -/

/-- The value that a load puts at a position: FP32 as it is, BF16 widened exactly (R206). -/
def State.loadVal (v : State) (n : Nat) (d : TDesc) (r j : Nat) : W32 :=
  if rowLines d = 4 then BitVec.ofNat 32 (v.elem n d (r * 64 + j) * 1) else canon32 (BitVec.ofNat 32 (v.elem n d (r * 64 + j) * 2 ^ 16))

/-- The operands of a load are admitted, and every byte that it reads passes its check. -/
structure LoadLegal (v : State) (n : Nat) (f : Flight) : Prop where
  ctl : (vAt f.slots 1).toNat < 8
  square : SquareGood (dAt f.slots 0).t false
  good : ∀ p, p < (dAt f.slots 0).t.streamSize → v.cellStatus ((dAt f.slots 0).t.addr n p) = 0

/-- No line of a square whose bytes pass their check fails a read. -/
theorem failsAt_squareLine {v : State} {f : Flight} (h : LoadLegal v n f) {a : Nat} (ha : a ∈ rowLineAddrs n (dAt f.slots 0).t) :
    v.failsAt ((List.range 8).map fun i => a + 8 * i) = [] := by
  obtain ⟨-, hsq, hgood⟩ := h
  obtain ⟨r, hr, hline⟩ := List.mem_flatMap.1 ha
  obtain ⟨k, hk, rfl⟩ := List.mem_map.1 hline
  have hlt := squareLine_lt hsq (List.mem_range.1 hr) (List.mem_range.1 hk)
  refine State.failsAt_of_cellStatus (List.forall_mem_map.2 fun i hi => ?_)
  have hi' := List.mem_range.1 hi
  rw [← TDesc.addr_add _ _ (linePos_aligned hsq r k) (by omega)]
  exact hgood _ (by omega)

theorem aldBody_completes {f : Flight} (waits : Nat) (h : LoadLegal (s.seeing f.seen) n f) :
    ∃ u, aldBody n waits s f = ⟨u, 0, 0, 0xFF⟩ ∧ (u.core n).flights = (s.core n).flights ∧
      TileHolds n (vAt f.slots 1).toNat 64 64 ((s.seeing f.seen).loadVal n (dAt f.slots 0).t) s u ∧ OpEffect n opRegs logRegs s u := by
  obtain ⟨hw, hl⟩ := width_of_squareGood h.square
  unfold aldBody
  extract_lets d ctl v s1 l as cc s2 ready fails first stop rows s3
  have hctl : ctl < 8 := h.ctl
  rw [if_neg (Nat.not_le.2 hctl), if_neg (not_not.2 (accShape_of_squareGood h.square))]
  have hstage : StageEffect n opRegs logRegs s s2 :=
    (stageEffect_waited (by decide) (by decide)).trans (stageEffect_modCore rfl)
  have hfails : fails = [] := List.filterMap_eq_nil_iff.2 fun e he => by
    rw [failsAt_squareLine h (List.of_mem_zip he).1]
    rfl
  have hfirst : first = none := by simp only [first, hfails, List.foldl_nil]
  have hlpos : 0 < l := by
    change 0 < rowLines (dAt f.slots 0).t
    omega
  have hready : ready.length = 64 := by
    rw [List.length_map, length_groupsOf hlpos 64 cc]
    rw [length_bankSchedule, List.length_map]
    exact length_rowLineAddrs h.square
  have hrows : rows.map Prod.fst = List.range 64 := by
    have hall : rows = (List.range 64).zip (loadWrites ready) := by simp [rows, stop, hfirst]
    rw [hall, List.map_fst_zip]
    rw [length_loadWrites, hready, List.length_range]
  have hval (r j : Nat) : (if l = 4 then BitVec.ofNat 32 (v.elem n d (r * 64 + j) * (if l = 4 then 1 else 2 ^ 16))
      else canon32 (BitVec.ofNat 32 (v.elem n d (r * 64 + j) * (if l = 4 then 1 else 2 ^ 16)))) = v.loadVal n d r j := by
    rw [State.loadVal]
    split <;> rfl
  have hs3 : s3 = s2.accSets n ctl (squareElems (v.loadVal n d)) := by
    have hfst : s3 = (rows.map Prod.fst).foldl
        (fun s r => (List.range 64).foldl (fun s j => s.accSet n ctl r j (v.loadVal n d r j)) s) s2 := by
      rw [List.foldl_map]
      simp only [s3, Nat.mod_eq_of_lt hctl, hval]
    rw [hfst, hrows, foldl_rows_eq_accSets]
  rw [hfirst]
  dsimp only
  rw [hs3]
  refine ⟨_, rfl, (flights_accSets _ _ _ _ _).trans hstage.flights, ?_, hstage.toOpEffect.trans opEffect_accSets⟩
  exact tileHolds_congr (hstage.acc_eq.imp Eq.symm Eq.symm) ⟨rfl, rfl⟩ (tileHolds_squareElems hctl)

end Sys2Proof.Machine
end

section
/-! SUPPORT. The drain of an accumulator tile (R207, R209): the lines that it writes, and where each element stands in them. -/

namespace Sys2Proof.Machine

open Sys2Proof.Claims

variable {s t : State} {n : Nat} {rs ls : List Reg}

/-! ### Lines written -/

/-- The bytes of the lines `ls` are written in their order, and nothing else of memory is touched. -/
structure LinesWritten (ls : List (Nat × List Byte)) (s t : State) : Prop where
  inside : ∀ x v, (∀ e ∈ ls, e.1 ≤ x → x < e.1 + e.2.length → e.2.getD (x - e.1) 0 = v) →
    (∃ e ∈ ls, e.1 ≤ x ∧ x < e.1 + e.2.length) → t.byte x = v
  outside : ∀ x, (∀ e ∈ ls, ¬(e.1 ≤ x ∧ x < e.1 + e.2.length)) → t.byte x = s.byte x ∧ t.isBad x = s.isBad x

/-- Only memory matters, before and after. -/
theorem LinesWritten.congr {ls : List (Nat × List Byte)} {s' t' : State} (h : LinesWritten ls s t) (hs : SameMem s' s) (ht : SameMem t t') :
    LinesWritten ls s' t' where
  inside x v hv hin := (ht.1 x).trans (h.inside x v hv hin)
  outside x hx := by
    obtain ⟨hbyte, hbad⟩ := h.outside x hx
    exact ⟨(ht.1 x).trans (hbyte.trans (hs.1 x)), (ht.2 x).trans (hbad.trans (hs.2 x))⟩

/-- Lines that are on are written, and no write of them fails. -/
theorem State.linesWritten_of_on {ls : List (Nat × List Byte)} (h : ∀ e ∈ ls, LineOn s e.1 ∧ e.2.length = 64) :
    ∃ mem bad, writeLines [] ls s = ({ s with mem := mem, bad := bad }, []) ∧ LinesWritten ls s { s with mem := mem, bad := bad } := by
  obtain ⟨mem, bad, hwrite, hmem, hbad⟩ := State.writeLines_of_on h
  have hbyte (x : Nat) : State.byte { s with mem := mem, bad := bad } x =
      (ls.foldl (fun s e => (wholeWrites e.1 e.2).foldl State.putByte s) s).byte x := by
    rw [State.byte, hmem, State.byte]
  refine ⟨mem, bad, hwrite, fun x v hv hin => ?_, fun x hx => ⟨?_, ?_⟩⟩
  · exact (hbyte x).trans (byte_lines_of_agree hv (.inl hin))
  · exact (hbyte x).trans (byte_lines_of_outside hx)
  · have hcheck := hbad x fun e he => (h e he).2 ▸ hx e he
    rw [State.isBad, hcheck, State.isBad]

/-! ### What a drain writes -/

/-- The code that a drain writes for an element of its destination (R207). -/
def State.drainCode (v : State) (n : Nat) (d : TDesc) (tile : Nat) (col : Bool) (r j : Nat) : Nat :=
  (cvtElem d.fmt (d.num.rmAt d.seed (r * 64 + j)) d.num.sat 0 (v.drainVal n tile col r j)).1

/-- The bytes of a row. -/
def State.drainRow (v : State) (n : Nat) (d : TDesc) (tile : Nat) (col : Bool) (r : Nat) : List Byte :=
  (List.range 64).flatMap fun j => leBytes (d.w / 8) (v.drainCode n d tile col r j)

/-- The bytes of the rows, one after the other. -/
def State.drainBytes (v : State) (n : Nat) (d : TDesc) (tile : Nat) (col : Bool) : List Byte :=
  (List.range 64).flatMap (v.drainRow n d tile col)

/-- The lines of a drain with what it writes to each. -/
def State.drainLines (v : State) (n : Nat) (d : TDesc) (tile : Nat) (col : Bool) : List (Nat × List Byte) :=
  (List.range (64 * rowLines d)).map fun q =>
    (squareLine n d (q / rowLines d) (q % rowLines d), ((v.drainBytes n d tile col).drop (64 * q)).take 64)

section
variable {v : State} {d : TDesc} {tile : Nat} {col dest : Bool}

theorem bytes_of_squareGood (h : SquareGood d dest) : d.w / 8 = rowLines d ∧ 0 < rowLines d := by
  obtain ⟨hw, hl⟩ := width_of_squareGood h
  omega

theorem length_drainRow (h : SquareGood d dest) (r : Nat) : (v.drainRow n d tile col r).length = 64 * rowLines d :=
  length_flatMap_range _ 64 fun _ => (length_leBytes _ _).trans (bytes_of_squareGood h).1

theorem length_drainBytes (h : SquareGood d dest) : (v.drainBytes n d tile col).length = 64 * (64 * rowLines d) :=
  length_flatMap_range _ 64 (length_drainRow h)

/-- The byte of an element in the bytes of the rows. -/
theorem getD_drainBytes (h : SquareGood d dest) {r j i : Nat} (hr : r < 64) (hj : j < 64) (hi : i < rowLines d) :
    (v.drainBytes n d tile col).getD (64 * rowLines d * r + (rowLines d * j + i)) 0 =
      (leBytes (rowLines d) (v.drainCode n d tile col r j)).getD i 0 := by
  obtain ⟨hw, -⟩ := bytes_of_squareGood h
  have hin : rowLines d * j + i < 64 * rowLines d := by
    have hle : rowLines d * j + rowLines d ≤ rowLines d * 64 := by rw [← Nat.mul_succ]; exact Nat.mul_le_mul_left _ hj
    omega
  rw [State.drainBytes, getD_flatMap_range _ (length_drainRow h) hr hin, State.drainRow,
    getD_flatMap_range _ (fun _ => (length_leBytes _ _).trans hw) hj hi, hw]

/-- Each line of a drain is a line of the destination, 64 bytes long. -/
theorem mem_drainLines (h : SquareGood d dest) {e : Nat × List Byte} (he : e ∈ v.drainLines n d tile col) :
    ∃ r k, r < 64 ∧ k < rowLines d ∧ e.1 = squareLine n d r k ∧ e.2.length = 64 ∧
      ∀ i, i < 64 → e.2.getD i 0 = (v.drainBytes n d tile col).getD (64 * rowLines d * r + (64 * k + i)) 0 := by
  obtain ⟨q, hq, rfl⟩ := List.mem_map.1 he
  obtain ⟨-, hl⟩ := bytes_of_squareGood h
  have hq' := List.mem_range.1 hq
  have hdiv : 64 * q = 64 * rowLines d * (q / rowLines d) + 64 * (q % rowLines d) := by
    rw [Nat.mul_assoc, ← Nat.mul_add, Nat.div_add_mod]
  refine ⟨q / rowLines d, q % rowLines d, Nat.div_lt_of_lt_mul (by rwa [Nat.mul_comm]), Nat.mod_lt _ hl, rfl, ?_, fun i hi => ?_⟩
  · rw [List.length_take, List.length_drop, length_drainBytes h]
    omega
  · rw [← Nat.add_assoc, ← hdiv, List.getD_eq_getElem?_getD, List.getElem?_take_of_lt hi, List.getElem?_drop,
      ← List.getD_eq_getElem?_getD]

/-- Each line of the destination is one of the drain. -/
theorem drainLines_cover {r k : Nat} (hr : r < 64) (hk : k < rowLines d) :
    ∃ e ∈ v.drainLines n d tile col, e.1 = squareLine n d r k := by
  have hlt : rowLines d * r + k < 64 * rowLines d := by
    have hle : rowLines d * r + rowLines d ≤ rowLines d * 64 := by rw [← Nat.mul_succ]; exact Nat.mul_le_mul_left _ hr
    omega
  refine ⟨_, List.mem_map.2 ⟨rowLines d * r + k, List.mem_range.2 hlt, rfl⟩, ?_⟩
  dsimp only
  rw [Nat.mul_add_div (by omega), Nat.mul_add_mod, Nat.div_eq_of_lt hk, Nat.mod_eq_of_lt hk, Nat.add_zero]

/-! ### Where an element stands -/

/-- A stream that is not interleaved stands in order (R189). -/
theorem TDesc.addr_of_plain (h : d.lil = 0) (p : Nat) : d.addr n p = d.addr n 0 + p := by
  simp only [TDesc.addr, TDesc.offset, if_pos h, spadAddr]
  split <;> omega

/-- Rows that do not overlap: a byte of a row is in no line of another, and in one of its own. -/
theorem row_of_line {S a k i r o l : Nat} (hS : 64 * l ≤ S) (hk : k < l) (hi : i < 64) (ho : o < 64 * l)
    (h : a * S + (64 * k + i) = r * S + o) : a = r ∧ 64 * k + i = o := by
  have hrow (b y : Nat) (hy : y < S) : (b * S + y) / S = b := by
    rw [Nat.add_div_of_dvd_right ⟨b, Nat.mul_comm b S⟩, Nat.mul_div_cancel b (by omega), Nat.div_eq_of_lt hy, Nat.add_zero]
  obtain rfl : a = r := by rw [← hrow a (64 * k + i) (by omega), h, hrow r o (by omega)]
  exact ⟨rfl, by omega⟩

/-- After a drain whose rows do not overlap, a byte of a row holds that byte of the row. -/
theorem byte_of_linesWritten (h : SquareGood d dest) (hw : LinesWritten (v.drainLines n d tile col) s t) (hlil : d.lil = 0)
    (hstr : 64 * rowLines d ≤ d.str.1) {r o : Nat} (hr : r < 64) (ho : o < 64 * rowLines d) :
    t.byte (d.addr n (r * d.str.1 + o)) = (v.drainBytes n d tile col).getD (64 * rowLines d * r + o) 0 := by
  have hline (a k : Nat) : squareLine n d a k = d.addr n 0 + (a * d.str.1 + 64 * k) := TDesc.addr_of_plain hlil _
  rw [TDesc.addr_of_plain hlil]
  refine hw.inside _ _ (fun e he hle hlt => ?_) ?_
  · obtain ⟨a, k, -, hk, haddr, hlen, hget⟩ := mem_drainLines h he
    rw [haddr, hline] at hle ⊢
    rw [haddr, hline, hlen] at hlt
    obtain ⟨i, hi⟩ : ∃ i, r * d.str.1 + o = a * d.str.1 + (64 * k + i) := ⟨r * d.str.1 + o - (a * d.str.1 + 64 * k), by omega⟩
    obtain ⟨rfl, hpos⟩ := row_of_line hstr hk (by omega) ho hi.symm
    rw [← hpos, ← hget i (by omega)]
    congr 1
    omega
  · obtain ⟨e, hmem, haddr⟩ := drainLines_cover (v := v) (n := n) (tile := tile) (col := col) hr (show o / 64 < rowLines d by omega)
    obtain ⟨-, -, -, -, -, hlen, -⟩ := mem_drainLines h hmem
    rw [hline] at haddr
    exact ⟨e, hmem, by omega, by omega⟩

theorem map_getD_range {l : List Byte} {c : Nat} (h : l.length = c) : ((List.range c).map fun i => l.getD i 0) = l := by
  subst h
  exact List.ext_getElem (by simp) fun i _ hi => by simp [hi]

/-- The bytes of an element of a square. -/
theorem elemBytes_of_squareGood (h : SquareGood d dest) {r j : Nat} (hj : j < 64) (hr : r < 64) :
    d.bitPos (d.index (64 * r + j)) = 8 * (r * d.str.1 + rowLines d * j) ∧
      d.elemBytes (64 * r + j) = (List.range (rowLines d)).map fun i => r * d.str.1 + (rowLines d * j + i) := by
  obtain ⟨hw, -⟩ := width_of_squareGood h
  obtain ⟨-, hl⟩ := bytes_of_squareGood h
  obtain ⟨-, hext, -⟩ := h
  have hindex : d.index (64 * r + j) = (j, r, 0, 0) := by
    simp only [TDesc.index, hext]
    refine Prod.ext (by dsimp only; omega) (Prod.ext (by dsimp only; omega) (Prod.ext (by dsimp only; omega) (by dsimp only; omega)))
  have hpos : d.bitPos (d.index (64 * r + j)) = 8 * (r * d.str.1 + rowLines d * j) := by
    simp [hindex, TDesc.bitPos, hw, Nat.mul_add, Nat.mul_assoc]
  refine ⟨hpos, ?_⟩
  simp only [TDesc.elemBytes, hpos, hw]
  have hcount : (8 * (r * d.str.1 + rowLines d * j) + 8 * rowLines d - 1) / 8 - 8 * (r * d.str.1 + rowLines d * j) / 8 + 1 = rowLines d := by
    omega
  rw [hcount, Nat.mul_div_cancel_left _ (by decide)]
  simp only [Nat.add_assoc]

/-- After a drain whose rows do not overlap, each element of the destination holds its code. -/
theorem elem_of_linesWritten (h : SquareGood d dest) (hw : LinesWritten (v.drainLines n d tile col) s t) (hlil : d.lil = 0)
    (hstr : 64 * d.w ≤ 8 * d.str.1) {r j : Nat} (hr : r < 64) (hj : j < 64) :
    t.elem n d (64 * r + j) = v.drainCode n d tile col r j % 2 ^ d.w := by
  obtain ⟨hwidth, -⟩ := width_of_squareGood h
  obtain ⟨hpos, hbytes⟩ := elemBytes_of_squareGood h hj hr
  have hstream : t.streamBytes n d (d.elemBytes (64 * r + j)) = leBytes (rowLines d) (v.drainCode n d tile col r j) := by
    rw [hbytes, State.streamBytes, List.map_map]
    refine Eq.trans (List.map_congr_left fun i hi => ?_) (map_getD_range (length_leBytes _ _))
    have hi' := List.mem_range.1 hi
    have hle : rowLines d * j + rowLines d ≤ rowLines d * 64 := by rw [← Nat.mul_succ]; exact Nat.mul_le_mul_left _ hj
    rw [Function.comp_apply, byte_of_linesWritten h hw hlil (by omega) hr (by omega), getD_drainBytes h hr hj hi']
  rw [State.elem, hpos, hstream, leNat_leBytes, Nat.mul_mod_right, Nat.pow_zero, Nat.div_one, hwidth, Nat.pow_mul 2 8, Nat.mod_mod]

end

end Sys2Proof.Machine
end

section
/-! SUPPORT. ALD, ADR and AZERO from their start to their end (R206 to R208). -/

namespace Sys2Proof.Machine

open Sys2Proof.Claims

variable {s t : State} {n : Nat} {rs ls : List Reg} {f : Flight}

/-! ### The drain of a tile -/

theorem stageEffect_cvtEvents {ev : CvtEv} (hstat : .cvtStat ∈ rs) (hcnt : .cvtClipcnt ∈ rs) :
    StageEffect n rs ls s (s.cvtEvents n ev) := by
  unfold State.cvtEvents
  dsimp only
  have hraise (m : W64) : StageEffect n rs ls s (s.raiseMask .cvtStat n 0 m) := stageEffect_wr hstat
  split
  · exact (hraise _).trans stageEffect_latch
  · exact ((hraise _).trans stageEffect_latch).trans (stageEffect_wr hcnt)

/-- The tile that a drain reads (R207). -/
def Flight.drainTile (f : Flight) : Nat := (vAt f.slots 1).toNat % 8

/-- Does a drain read the tile by columns (R207). -/
def Flight.drainCol (f : Flight) : Bool := (vAt f.slots 1).toNat / 8 == 1

/-- The lines that a drain writes, its tile as `v` shows it. -/
abbrev Flight.drainOut (f : Flight) (v : State) (n : Nat) : List (Nat × List Byte) :=
  v.drainLines n (dAt f.slots 0).t f.drainTile f.drainCol

/-- The operands of a drain are admitted, every element that it reads passes its check, and the banks of its lines are on. -/
structure DrainLegal (s : State) (n : Nat) (f : Flight) : Prop where
  core : n < 256
  ctl : (vAt f.slots 1).toNat < 16
  square : SquareGood (dAt f.slots 0).t true
  good : ∀ i j, i < 64 → j < 64 → (s.seeing f.seen).accFails n f.drainTile i j = false
  on : ∀ r k, r < 64 → k < rowLines (dAt f.slots 0).t →
    s.bankState n (bankOf (spadOff (squareLine n (dAt f.slots 0).t r k))) = 0

theorem map_zip_zipIdx_range {α β : Type} (a : Nat → α) (g : Nat → β) {N : Nat} {cc : List Nat} (h : cc.length = N) :
    (((List.range N).map a).zip cc).zipIdx.map (fun e => (e.1.1, g e.2)) = (List.range N).map fun q => (a q, g q) :=
  List.ext_getElem (by simp [h]) fun i _ _ => by simp

/-- The registers that a drain may change. -/
def drainRegs : List Reg := [.cvtStat, .cvtClipcnt] ++ opRegs

/-- A drain of legal operands writes all its lines and reports the events of their conversion. -/
theorem adrBody_of_legal (waits : Nat) (h : DrainLegal s n f) : ∃ s1 ev, StageEffect n drainRegs logRegs s s1 ∧
    ∀ u, writeLines [] (f.drainOut (s.seeing f.seen) n) s1 = (u, []) → adrBody n waits [] s f = ⟨u.cvtEvents n ev, 0, 0, 0xFF⟩ := by
  unfold adrBody
  extract_lets d ctl v s1 tile col l as c start bad stop rows outs ev bytes
  rw [if_neg (Nat.not_le.2 h.ctl), if_neg (not_not.2 (accShape_of_squareGood h.square))]
  have hbad : bad = none := List.find?_eq_none.2 fun p hp => by
    obtain ⟨hi, hj⟩ := mem_grid.1 hp
    rw [Bool.not_eq_true]
    split
    · exact h.good _ _ hj hi
    · exact h.good _ _ hi hj
  have hstop : stop = none := Option.map_eq_none_iff.2 hbad
  have hrows : rows = List.range 64 := by simp [rows, hstop]
  have hbytes : bytes = v.drainBytes n d tile col := by
    simp only [bytes, outs, hrows, List.flatMap_map]
    rfl
  have hsched := length_bankSchedule c.drainBanks (as.zipIdx.map fun a => (bankOf (spadOff a.1), start + a.2 / l + 1))
  generalize bankSchedule c.drainBanks (as.zipIdx.map fun a => (bankOf (spadOff a.1), start + a.2 / l + 1)) = sched at hsched
  obtain ⟨free, cc⟩ := sched
  have hcc : cc.length = 64 * rowLines d := by
    rw [List.length_map, List.length_zipIdx] at hsched
    exact hsched.trans (length_rowLineAddrs h.square)
  dsimp -zeta only
  extract_lets lines s2 s3
  have hlines : lines.map (fun e => (e.1.1, (bytes.drop (64 * e.2)).take 64)) = f.drainOut v n := by
    have hall : lines = (((List.range (64 * rowLines d)).map fun q =>
        squareLine n d (q / rowLines d) (q % rowLines d)).zip cc).zipIdx := by
      rw [← rowLineAddrs_eq h.square]
      simp only [lines, hstop, List.filter_true]
      rfl
    rw [hall, map_zip_zipIdx_range _ (fun q => (bytes.drop (64 * q)).take 64) hcc, hbytes]
    rfl
  have hstage : StageEffect n drainRegs logRegs s s2 :=
    (stageEffect_waited (by decide) (by decide)).trans (stageEffect_modCore rfl)
  refine ⟨s2, ev, hstage, fun u (hu : writeLines [] (f.drainOut v n) s2 = (u, [])) => ?_⟩
  have hs3 : s3 = u.cvtEvents n ev := by simp only [s3, hlines, hu]
  rw [hlines, hu, hbad, ← hs3]

theorem adrBody_completes (waits : Nat) (h : DrainLegal s n f) :
    ∃ u mem bad, adrBody n waits [] s f = ⟨u, 0, 0, 0xFF⟩ ∧ (u.core n).flights = (s.core n).flights ∧
      LinesWritten (f.drainOut (s.seeing f.seen) n) s u ∧ u.acc = s.acc ∧ u.accBad = s.accBad ∧
      OpEffect n drainRegs logRegs { s with mem := mem, bad := bad } u := by
  obtain ⟨s1, ev, hstage, hbody⟩ := adrBody_of_legal waits h
  have hbank := hstage.bankState_eq (by decide) (by decide)
  obtain ⟨mem, bad, hwrite, hlines⟩ := State.linesWritten_of_on (s := s1) (ls := f.drainOut (s.seeing f.seen) n) fun e he => by
    obtain ⟨r, k, hr, hk, haddr, hlen, -⟩ := mem_drainLines h.square he
    exact ⟨haddr ▸ lineOn_squareLine h.core h.square hr hk ((hbank _ _).trans (h.on r k hr hk)), hlen⟩
  have hev : StageEffect n drainRegs logRegs { s1 with mem := mem, bad := bad } _ := stageEffect_cvtEvents (ev := ev) (by decide) (by decide)
  obtain ⟨hacc, haccBad⟩ := hstage.acc_eq
  obtain ⟨hacc', haccBad'⟩ := hev.acc_eq
  refine ⟨_, mem, bad, hbody _ hwrite, hev.flights.trans hstage.flights, ?_, hacc'.trans hacc, haccBad'.trans haccBad, ?_⟩
  · exact hlines.congr hstage.toOpEffect.sameMem hev.toOpEffect.sameMem
  · exact (hstage.toOpEffect.withMem mem bad).trans hev.toOpEffect

/-! ### From start to end -/

theorem runOp_azero_completes (waits : Nat) (hstart : StartsNext s n 3 0x32 f) (hctl : (vAt f.slots 0).toNat < 8) :
    let t := runOp s n 3 0x32 {} (azeroBody n waits)
    EndsWith n 3 0 0 0xFF s t ∧ TileHolds n (vAt f.slots 0).toNat 64 64 (fun _ _ => 0#32) s t ∧ OpEffect n opRegs logRegs s t := by
  have hopen : StageEffect n opRegs logRegs s (s.opening n f) := stageEffect_opening (by decide) (by decide)
  obtain ⟨u, hbody, hflights, hholds, heff⟩ := azeroBody_completes (s := s.opening n f) waits hctl
  obtain ⟨hends, hacc, hbad, hdone⟩ := runOp_completes hstart hbody (hflights.trans hopen.flights)
  exact ⟨hends, tileHolds_congr (hopen.acc_eq.imp Eq.symm Eq.symm) ⟨hacc, hbad⟩ hholds,
    (hopen.toOpEffect.trans heff).trans (hdone (by decide) (by decide))⟩

theorem StageEffect.loadVal_seeing (h : StageEffect n rs ls s t) (v : Seen) (m : Nat) (d : TDesc) :
    (t.seeing v).loadVal m d = (s.seeing v).loadVal m d := by
  obtain ⟨_, _, _, _, _, rfl⟩ := h.frame
  rfl

theorem runOp_ald_completes (waits : Nat) (hstart : StartsNext s n 3 0x30 f) (h : LoadLegal (s.seeing f.seen) n f) :
    let t := runOp s n 3 0x30 {} (aldBody n waits)
    EndsWith n 3 0 0 0xFF s t ∧ TileHolds n (vAt f.slots 1).toNat 64 64 ((s.seeing f.seen).loadVal n (dAt f.slots 0).t) s t ∧
      OpEffect n opRegs logRegs s t := by
  have hopen : StageEffect n opRegs logRegs s (s.opening n f) := stageEffect_opening (by decide) (by decide)
  have hlegal : LoadLegal ((s.opening n f).seeing f.seen) n f :=
    ⟨h.ctl, h.square, fun p hp => (hopen.cellStatus_seeing (by decide) (by decide) _ _).trans (h.good p hp)⟩
  obtain ⟨u, hbody, hflights, hholds, heff⟩ := aldBody_completes waits hlegal
  rw [hopen.loadVal_seeing] at hholds
  obtain ⟨hends, hacc, hbad, hdone⟩ := runOp_completes hstart hbody (hflights.trans hopen.flights)
  exact ⟨hends, tileHolds_congr (hopen.acc_eq.imp Eq.symm Eq.symm) ⟨hacc, hbad⟩ hholds,
    (hopen.toOpEffect.trans heff).trans (hdone (by decide) (by decide))⟩

theorem StageEffect.drainOut_seeing (h : StageEffect n rs ls s t) (v : Seen) (f : Flight) (m : Nat) :
    f.drainOut (t.seeing v) m = f.drainOut (s.seeing v) m := by
  obtain ⟨_, _, _, _, _, rfl⟩ := h.frame
  rfl

theorem runOp_adr_completes (waits : Nat) (hstart : StartsNext s n 3 0x31 f) (h : DrainLegal s n f) :
    let t := runOp s n 3 0x31 {} (adrBody n waits [])
    EndsWith n 3 0 0 0xFF s t ∧ LinesWritten (f.drainOut (s.seeing f.seen) n) s t ∧ t.acc = s.acc ∧ t.accBad = s.accBad ∧
      ∃ mem bad, OpEffect n drainRegs logRegs { s with mem := mem, bad := bad } t := by
  have hopen : StageEffect n drainRegs logRegs s (s.opening n f) := stageEffect_opening (by decide) (by decide)
  obtain ⟨hfails, -⟩ := hopen.inputs_seeing f.seen
  have hlegal : DrainLegal (s.opening n f) n f := ⟨h.core, h.ctl, h.square, fun i j hi hj => (hfails _ _ _ _).trans (h.good i j hi hj),
    fun r k hr hk => (hopen.bankState_eq (by decide) (by decide) _ _).trans (h.on r k hr hk)⟩
  obtain ⟨u, mem, bad, hbody, hflights, hlines, hacc, haccBad, heff⟩ := adrBody_completes waits hlegal
  rw [hopen.drainOut_seeing] at hlines
  obtain ⟨hends, hacc', haccBad', hdone⟩ := runOp_completes hstart hbody (hflights.trans hopen.flights)
  obtain ⟨hopenAcc, hopenBad⟩ := hopen.acc_eq
  have hend : OpEffect n drainRegs logRegs u _ := hdone (by decide) (by decide)
  exact ⟨hends, hlines.congr hopen.toOpEffect.sameMem hend.sameMem, hacc'.trans (hacc.trans hopenAcc),
    haccBad'.trans (haccBad.trans hopenBad), mem, bad, ((hopen.toOpEffect.withMem mem bad).trans heff).trans hend⟩

theorem exec_ald (s : State) (n waits : Nat) (early : Early) :
    exec (.ald n waits early) s = .next (runOp s n 3 0x30 early (aldBody n waits)) := rfl

theorem exec_adr (s : State) (n waits : Nat) (early : Early) (lost : List Nat) :
    exec (.adr n waits early lost) s = .next (runOp s n 3 0x31 early (adrBody n waits lost)) := rfl

theorem exec_azero (s : State) (n waits : Nat) : exec (.azero n waits) s = .next (runOp s n 3 0x32 {} (azeroBody n waits)) := rfl

/-- The value of a load, by the format of its source (R206). -/
theorem State.loadVal_of_squareGood {d : TDesc} {dest : Bool} (h : SquareGood d dest) (v : State) (n r j : Nat) :
    v.loadVal n d r j = if d.num.fmt = 0 then BitVec.ofNat 32 (v.elem n d (64 * r + j))
      else canon32 (BitVec.ofNat 32 (v.elem n d (64 * r + j) * 2 ^ 16)) := by
  obtain ⟨hcode, hf⟩ | ⟨hcode, hf⟩ := fmt_of_squareGood h <;> simp [State.loadVal, rowLines, hcode, hf, Nat.mul_comm r 64]

/-- The code that a drain writes for an element, as the tile shows it by rows or by columns (R207). -/
theorem State.drainCode_eq (v : State) (n : Nat) (d : TDesc) (f : Flight) (r j : Nat) :
    v.drainCode n d f.drainTile f.drainCol r j = (cvtElem d.fmt (d.num.rmAt d.seed (64 * r + j)) d.num.sat 0
      (if (vAt f.slots 1).toNat / 8 = 1 then v.accGet n ((vAt f.slots 1).toNat % 8) j r
        else v.accGet n ((vAt f.slots 1).toNat % 8) r j)).1 := by
  simp only [State.drainCode, State.drainVal, Flight.drainTile, Flight.drainCol, beq_iff_eq, Nat.mul_comm r 64]

/-- Settles O17: admitted operands pass every check of ALD, ADR and AZERO; a load and a clear write the 64 × 64 elements of the
tile, and a drain writes whole lines, in which each element stands at its own place where rows do not overlap. -/
theorem accumulatorTransfersComplete : Obligations.AccumulatorTransfersComplete := by
  unfold Obligations.AccumulatorTransfersComplete
  refine ⟨fun waits lost => ⟨readsAhead_of_runOp fun s n early => exec_ald s n waits early,
    readsAhead_of_runOp fun s n early => exec_adr s n waits early lost⟩, ?_⟩
  intro s n waits f hn v d c
  refine ⟨fun hstart hctl hsq hgood => ?_, fun hstart hctl hsq hgood hon => ?_, fun hstart hctl => ?_⟩
  · obtain ⟨hends, hholds, heff⟩ := runOp_ald_completes waits hstart ⟨hctl, hsq, hgood⟩
    refine ⟨_, exec_ald s n waits {}, hends, fun r j hr hj => ?_, hholds.onlyTile, heff.sameMem, heff.sameKernelsAndLanes,
      heff.sameOutside, heff.opFrame⟩
    obtain ⟨hget, hfails⟩ := hholds n c r j hctl hr hj
    have hin : n = n ∧ c = c ∧ r < 64 ∧ j < 64 := ⟨rfl, rfl, hr, hj⟩
    exact ⟨hfails.trans (if_pos hin), (hget.trans (if_pos hin)).trans (State.loadVal_of_squareGood hsq v n r j)⟩
  · obtain ⟨hends, hlines, hacc, hbad, mem, bad, heff⟩ := runOp_adr_completes waits hstart ⟨hn, hctl, hsq, hgood, hon⟩
    refine ⟨_, exec_adr s n waits {} [], hends, fun hlil hstr r j hr hj => ?_, fun a ha => hlines.outside a fun e he => ?_, hacc, hbad,
      heff.sameKernelsAndLanes, heff.sameOutside, heff.opFrame⟩
    · rw [elem_of_linesWritten hsq hlines hlil hstr hr hj, State.drainCode_eq]
    · obtain ⟨r, k, hr, hk, haddr, hlen, -⟩ := mem_drainLines hsq he
      rw [haddr, hlen]
      exact ha r k hr hk
  · obtain ⟨hends, hholds, heff⟩ := runOp_azero_completes waits hstart hctl
    refine ⟨_, exec_azero s n waits, hends, fun i j hi hj => ?_, hholds.onlyTile, heff.sameMem, heff.sameKernelsAndLanes,
      heff.sameOutside, heff.opFrame⟩
    obtain ⟨hget, hfails⟩ := hholds n (vAt f.slots 0).toNat i j hctl hi hj
    have hin : n = n ∧ (vAt f.slots 0).toNat = (vAt f.slots 0).toNat ∧ i < 64 ∧ j < 64 := ⟨rfl, rfl, hi, hj⟩
    exact ⟨hget.trans (if_pos hin), hfails.trans (if_pos hin)⟩

end Sys2Proof.Machine
end

section
/-! SUPPORT. Halts of a core (R137, R175): what else one leaves as it was, and the record that no opcode allows. -/

namespace Sys2Proof.Machine

open Sys2Proof.Claims

variable {s t : State} {n cc : Nat} {rs ls : List Reg}

theorem State.core_modCore (s : State) (n : Nat) (f : CoreSt → CoreSt) : (s.modCore n f).core n = f (s.core n) :=
  (s.core_setCore n n _).trans (if_pos rfl)

theorem State.core_wr (s : State) (r : Reg) (m i : Nat) (v : W64) (n : Nat) : (s.wr r m i v).core n = s.core n := rfl

/-- Bringing a core's status up to date leaves the flags of CORE_STAT outside STATE and INFLT. -/
theorem flag_coreStat_updCore (s : State) (n : Nat) (f : CoreSt → CoreSt) {k : Nat}
    (hk : (~~~0x1F0007#64).getLsbD k = true) : (s.updCore n f).flag .coreStat n 0 k = s.flag .coreStat n 0 k :=
  State.flag_of_sameBits (sameBits_sync (s := s.modCore n f) (m := ~~~0x1F0007#64) (by decide)) hk

theorem flag_coreStat_trace (s : State) (n : Nat) (kind : TrKind) (op e st mk tag aux k : Nat) :
    (s.trace n kind op e st mk tag aux).flag .coreStat n 0 k = s.flag .coreStat n 0 k :=
  (stageEffect_trace (n := n) (rs := [.trcMem, .trcStat]) (ls := []) (by decide) (by decide)).toOpEffect.flag_eq
    (by decide) (by decide) n 0 k

/-- A core that halts keeps its place in the program, and shows it in CORE_STAT.HALTED. -/
theorem State.halt_keeps {tag opcode ecls status : Nat} {rep : Option Nat} {own : Bool} (h : (s.core n).halted = false) :
    let t := s.halt n tag opcode ecls status rep own
    (t.core n).pc = (s.core n).pc ∧ t.flag .coreStat n 0 4 = true := by
  unfold State.halt
  dsimp only
  rw [h, if_neg (by decide)]
  generalize hu : (State.modCore s n _).wr Reg.coreHalt n 0 _ = u
  have hpc : (u.core n).pc = (s.core n).pc := by
    rw [← hu, State.core_wr, State.core_modCore]
  obtain ⟨x, htrace⟩ := (u.raise .coreStat n 0 4).core_trace n .halt opcode ecls status 0xFF tag 0
  have hflag := flag_coreStat_trace (u.raise .coreStat n 0 4) n .halt opcode ecls status 0xFF tag 0 4
  rw [State.flag_raise_same _ _ _ _ _ (by decide)] at hflag
  generalize (u.raise .coreStat n 0 4).trace n .halt opcode ecls status 0xFF tag 0 = v at htrace hflag
  have hfrozen : OnlyRegs v (if v.flag .trcCtl n 0 1 then v.setF .trcCtl n 0 0 1 0 else v) ∧
      (if v.flag .trcCtl n 0 1 then v.setF .trcCtl n 0 0 1 0 else v).flag .coreStat n 0 4 = true := by
    split
    · exact ⟨⟨_, rfl⟩, by rw [State.flag, State.rd_setF_reg _ _ _ _ _ _ _ _ _ _ (by decide)]; exact hflag⟩
    · exact ⟨⟨_, rfl⟩, hflag⟩
  obtain ⟨honly, hset⟩ := hfrozen
  refine ⟨?_, ?_⟩
  · rw [State.core_updCore, core_of_onlyRegs honly, htrace, ← hpc, State.raise, State.setF_eq, State.core_wr]
  · rw [flag_coreStat_updCore _ _ _ (by decide), hset]

theorem StageEffect.sameMarks (h : StageEffect n rs ls s t) (hr : .mark ∉ rs) (hl : .mark ∉ ls) (m : Nat) :
    t.markCount n m = s.markCount n m := by
  rw [State.markCount, State.fd, h.regs _ _ _ hl (.inl hr), State.markCount, State.fd]

theorem State.not_halted_of_issuing (h : s.issuing n = true) : (s.core n).halted = false := by
  simp only [State.issuing, Bool.and_eq_true, Bool.not_eq_true'] at h
  exact h.1.2

/-- An opcode is a number of 8 bits (Table 6.1). -/
theorem State.opcode_nextRec_lt (s : State) (n : Nat) : (s.nextRec n).opcode < 2 ^ 8 := Nat.mod_lt _ (Nat.two_pow_pos 8)

/-- A badly formed record whose delay has passed and whose check codes are good is refused with ILL. -/
theorem exec_recordIssue_of_illegal (hissue : s.issuing n = true)
    (hgood : Sparse.get false s.imBad (n * 2048 + (s.core n).half * 1024 + (s.core n).pc) = false)
    (hdelay : (s.core n).base + max (s.nextRec n).delay 1 ≤ cc) (hbad : (s.nextRec n).wellFormed = false) :
    exec (.recordIssue n cc) s = .next (s.refuseRec n (s.nextRec n) 12) := by
  have hlook : s.look n cc = .nothing (s.refuseRec n (s.nextRec n) 12) := by
    unfold State.look
    dsimp only
    rw [hissue, hgood, hbad, if_neg (by decide), if_neg (by simp [Nat.not_lt.2 hdelay]), if_neg (by decide), if_pos (by decide)]
  show execRecordIssue n cc s = _
  unfold execRecordIssue
  dsimp only
  rw [hissue, hlook, hbad, if_neg (by decide), if_neg (by simp)]
  rfl

/-- Settles O13: the record is refused where it stands, and a refusal is a halt. -/
theorem illegalRecordsHalt : Obligations.IllegalRecordsHalt := by
  unfold Obligations.IllegalRecordsHalt
  intro s n cc hissue hgood hdelay hbad
  have hrun := State.not_halted_of_issuing hissue
  refine ⟨_, exec_recordIssue_of_illegal hissue hgood hdelay hbad, ?_⟩
  rw [State.refuseRec]
  obtain ⟨hhalt, hword, heff⟩ := State.halt_spec (tag := (s.nextRec n).fullTag (s.rplIdx n)) (opcode := (s.nextRec n).opcode)
    (ecls := (s.nextRec n).ecls) (status := 12) (rep := some (s.core n).cur) (own := true) hrun
  obtain ⟨hpc, hflag⟩ := State.halt_keeps (tag := (s.nextRec n).fullTag (s.rplIdx n)) (opcode := (s.nextRec n).opcode)
    (ecls := (s.nextRec n).ecls) (status := 12) (rep := some (s.core n).cur) (own := true) hrun
  refine ⟨hhalt, hpc, heff.flights, ?_, ?_, hflag, heff.sameMarks (by decide) (by decide), heff.toOpEffect.sameMem,
    heff.toOpEffect.sameUnits heff.acc_eq.1 heff.acc_eq.2, heff.toOpEffect.sameOutside⟩
  · rw [State.fd, hword, fld_haltWord_status]
  · rw [State.fd, hword, fld_haltWord_opcode]
    exact Nat.mod_eq_of_lt (s.opcode_nextRec_lt n)

end Sys2Proof.Machine
end

section
/-! SUPPORT. Control records on marks, counters, comparators, parameters and descriptors (Table 6.6): one lemma for a record that
changes registers in its issue cc, and each opcode by what it changes. -/

namespace Sys2Proof.Machine

open Sys2Proof.Claims

variable {s t : State} {n cc : Nat} {r : Rec}

theorem onlyRegs_refl (s : State) : OnlyRegs s s := ⟨s.regs, rfl⟩

/-- A ready control record of opcode `op` whose operands lie inside its masks, and which does not stand at record 1,023. -/
structure CtlReady (s : State) (n cc : Nat) (r : Rec) (op : Nat) (masks : List Nat) : Prop where
  ready : RecordReady s n cc r
  opcode : r.opcode = op
  control : r.ecls = 0
  within : (s.core n).pc < 1023
  inside : ∀ e ∈ ((List.range 4).map (opnd s n r)).zip masks, e.1 &&& ~~~(BitVec.ofNat 64 e.2) = 0#64

/-- Such a record issues and takes effect, if its effect is on registers. -/
theorem ctlRow_of_ctlReady {op : Nat} {masks : List Nat} {eff : State → List W64 → CtlOut} {ds : List (Nat × Int)}
    {f : State → State} (h : CtlReady s n cc r op masks) (heff : eff s ((List.range 4).map (opnd s n r)) = .go ds f)
    (hf : ∀ u, OnlyRegs u (f u)) : ∃ co, ctlRow s n cc op masks eff = f (s.commit n cc r co (ds ++ r.signals)) := by
  obtain ⟨hready, hop, he, hpc, hmask⟩ := h
  obtain ⟨co, hrow⟩ := ctlRow_of_ready hready hop he hmask heff
  obtain ⟨_, _, hcore⟩ := s.core_commit n cc r co (ds ++ r.signals)
  refine ⟨co, hrow.trans (State.pastHalf_of_lt ?_)⟩
  rw [core_of_onlyRegs (hf _), hcore]
  exact Nat.succ_lt_succ hpc

theorem markSumOf_of_changes {signals : Bool} {extra : Nat → Int} {ds : List (Nat × Int)}
    (hds : ∀ m, changeOf ds m = (if signals = true ∧ r.sv = true ∧ r.smark = m then 1 else 0) + extra m) (m : Nat) :
    (s.markCount n m : Int) + changeOf (s.dues n r.waits ++ ds) m = markSumOf s n r signals extra m := by
  rw [changeOf_append, changeOf_dues s n m (ms := r.waits) (waitMarks_nodup _ _), hds, markSumOf]
  split <;> omega

/-- The marks after a record that changes them beside its consumption and its signal, and then may set thresholds. -/
theorem MarksChanged.marksAfter_with {signals : Bool} {extra : Nat → Int} {ds : List (Nat × Int)} {thr : Nat → Nat}
    (h : MarksChanged n (changeOf (s.dues n r.waits ++ ds)) s t)
    (hds : ∀ m, changeOf ds m = (if signals = true ∧ r.sv = true ∧ r.smark = m then 1 else 0) + extra m) {u : State}
    (hcount : ∀ m, u.markCount n m = t.markCount n m) (hthr : ∀ m, u.markThr n m = thr m)
    (hmovf : u.flag .coreStat n 0 5 = t.flag .coreStat n 0 5) : MarksAfter s n r signals extra thr u := by
  obtain ⟨hcount', -, hmovf'⟩ := h
  simp only [markSumOf_of_changes hds] at hcount' hmovf'
  exact ⟨fun m => ⟨(hcount m).trans (hcount' m), hthr m⟩, by rw [hmovf]; exact hmovf'⟩

/-- What every control record leaves that issues and then changes registers by `f`, outside the marks it has changed. -/
theorem ctlRecord_keeps {co : Bool} {ds : List (Nat × Int)} {f : State → State} {dest : List Reg} (hready : RecordReady s n cc r)
    (honly : OnlyRegs (s.commit n cc r co ds) (f (s.commit n cc r co ds)))
    (heff : IssueEffect n (dest ++ issueRegs) (s.commit n cc r co ds) (f (s.commit n cc r co ds))) :
    let t := f (s.commit n cc r co ds)
    (t.core n).pc = (s.core n).pc + 1 ∧ (t.core n).base = cc ∧ (t.core n).running = true ∧ IssueFrame n dest s t ∧ SameMem s t := by
  obtain ⟨_, _, hcore⟩ := s.core_commit n cc r co ds
  have hrun : (s.core n).running = true := by
    have h := hready.issuing
    simp only [State.issuing, Bool.and_eq_true] at h
    exact h.1.1
  have hall := (issueEffect_commit (s := s) (n := n) (cc := cc) (r := r) (co := co) (ds := ds)
    (List.subset_append_right dest issueRegs)).trans heff
  dsimp only
  rw [core_of_onlyRegs honly, hcore]
  exact ⟨rfl, rfl, hrun, hall.issueFrame, hall.effect.sameMem⟩

/-- A control record that writes one word of a register: which word and what, as the operands and the state at its issue say. -/
theorem ctlRuns_of_write {c : Nat → Nat → Instr} {op : Nat} {masks : List Nat} {eff : Nat → State → List W64 → CtlOut} {dest : Reg}
    {word : (Nat → W64) → Nat} {val : State → Nat → (Nat → W64) → W64} {names : List W64}
    (hexec : ∀ s n cc, exec (c n cc) s = .next (ctlRow s n cc op masks (eff n)))
    (heff : ∀ s n v, eff n s ((List.range 4).map v) = .go [] fun u => u.wr dest n (word v) (val u n v))
    (hmasks : ∀ v : Nat → W64, (∀ k, k < 4 → v k &&& ~~~(names.getD k 0#64) = 0#64) →
      ∀ e ∈ ((List.range 4).map v).zip masks, e.1 &&& ~~~(BitVec.ofNat 64 e.2) = 0#64)
    (hdest : dest ∉ issueRegs)
    (hval : ∀ s u : State, (∀ q m i, q ∉ issueRegs → u.rd q m i = s.rd q m i) → ∀ n v, val u n v = val s n v) {post}
    (hpost : ∀ s n v t, (∀ k, k < 4 → v k &&& ~~~(names.getD k 0#64) = 0#64) → OneWord dest n (word v) (val s n v) s t → post s n v t) :
    CtlRuns c op names [dest] noExtra sameThr post := by
  intro s n cc r hready hop he hpc hin
  obtain ⟨co, hrow⟩ := ctlRow_of_ctlReady ⟨hready, hop, he, hpc, hmasks _ hin⟩ (heff s n (opnd s n r)) fun u => onlyRegs_wr u _ _ _ _
  obtain ⟨hregs, -⟩ := commit_sees s n cc r co r.signals
  simp only [issueRegs, List.mem_cons, List.not_mem_nil, or_false, not_or] at hdest
  obtain ⟨hmark, hstat, hdma, hmem, htrc, hcnt⟩ := hdest
  have hwr (u : State) (v : W64) : StageEffect n [dest] [] u (u.wr dest n (word (opnd s n r)) v) := stageEffect_wr (by simp)
  have hnot (q : Reg) (hq : ¬dest = q) : q ∉ [dest] := fun hmem => hq (List.mem_singleton.1 hmem).symm
  obtain ⟨hpc', hbase, hrun, hframe, hsame⟩ := ctlRecord_keeps (dest := [dest]) hready
    (f := fun u => u.wr dest n (word (opnd s n r)) (val u n (opnd s n r))) (ds := r.signals) (co := co) (onlyRegs_wr _ _ _ _ _)
    ((hwr _ _).issueEffect (by simp) (hnot _ hstat) (hnot _ hdma))
  have hmarks := (marksChanged_commit s n cc r co r.signals).kept
    ((hwr _ (val (s.commit n cc r co r.signals) n (opnd s n r))).marksKept (hnot _ hmark) (hnot _ hstat))
  refine ⟨_, (hexec s n cc).trans (congrArg _ hrow), hpost _ _ _ _ hin ⟨?_, fun j hj => ?_⟩, hpc', hbase, hrun,
    hmarks.marksAfter fun m => by simpa using changeOf_signals r m, hframe, hsame⟩
  · rw [List.nil_append, State.rd_wr, hval s _ hregs]
  · rw [List.nil_append, State.rd_wr_ne _ _ _ _ _ _ _ _ fun e => hj e.2.2.symm]
    exact hregs _ _ _ (by simp [issueRegs, hmark, hstat, hdma, hmem, htrc, hcnt])

/-- The operands of a control record, one by one. -/
theorem inside_masks {v : Nat → W64} {a b c d : Nat} (h0 : v 0 &&& ~~~(BitVec.ofNat 64 a) = 0#64)
    (h1 : v 1 &&& ~~~(BitVec.ofNat 64 b) = 0#64) (h2 : v 2 &&& ~~~(BitVec.ofNat 64 c) = 0#64)
    (h3 : v 3 &&& ~~~(BitVec.ofNat 64 d) = 0#64) :
    ∀ e ∈ ((List.range 4).map v).zip [a, b, c, d], e.1 &&& ~~~(BitVec.ofNat 64 e.2) = 0#64 :=
  List.forall_mem_cons.2 ⟨h0, List.forall_mem_cons.2 ⟨h1, List.forall_mem_cons.2 ⟨h2,
    List.forall_mem_cons.2 ⟨h3, List.forall_mem_nil _⟩⟩⟩⟩

/-- The masks of Table 6.6, as words or as numbers. -/
theorem inside_names {names : List W64} {v : Nat → W64} {a b c d : Nat} (ha : names.getD 0 0#64 = BitVec.ofNat 64 a)
    (hb : names.getD 1 0#64 = BitVec.ofNat 64 b) (hc : names.getD 2 0#64 = BitVec.ofNat 64 c)
    (hd : names.getD 3 0#64 = BitVec.ofNat 64 d) (h : ∀ k, k < 4 → v k &&& ~~~(names.getD k 0#64) = 0#64) :
    ∀ e ∈ ((List.range 4).map v).zip [a, b, c, d], e.1 &&& ~~~(BitVec.ofNat 64 e.2) = 0#64 :=
  inside_masks (ha ▸ h 0 (by decide)) (hb ▸ h 1 (by decide)) (hc ▸ h 2 (by decide)) (hd ▸ h 3 (by decide))

/-- CSET, CMPS and PSET: the word that the first operand names takes the second. -/
theorem ctlRuns_of_put {c : Nat → Nat → Instr} {op a b : Nat} {dest : Reg} {names : List W64}
    (hexec : ∀ s n cc, exec (c n cc) s = .next (ctlRow s n cc op [a, b, 0, 0] fun _ v =>
      .go [] (fun s => s.wr dest n (v.getD 0 0).toNat (v.getD 1 0))))
    (ha : names.getD 0 0#64 = BitVec.ofNat 64 a) (hb : names.getD 1 0#64 = BitVec.ofNat 64 b) (hc : names.getD 2 0#64 = 0#64)
    (hd : names.getD 3 0#64 = 0#64) (hdest : dest ∉ issueRegs) :
    CtlRuns c op names [dest] noExtra sameThr (fun s n v t => OneWord dest n (v 0).toNat (v 1) s t) :=
  ctlRuns_of_write (word := fun v => (v 0).toNat) (val := fun _ _ v => v 1) hexec (fun _ _ _ => rfl)
    (fun _ => inside_names ha hb hc hd) hdest (fun _ _ _ _ _ => rfl) fun _ _ _ _ _ h => h

/-- A value inside a mask is at most the mask. -/
theorem toNat_le_of_inside {v m : W64} (h : v &&& ~~~m = 0#64) : v.toNat ≤ m.toNat := by
  have hm : v &&& m = v := by
    refine BitVec.eq_of_getLsbD_eq fun i hi => ?_
    have := congrArg (BitVec.getLsbD · i) h
    simp only [BitVec.getLsbD_and, BitVec.getLsbD_not, hi, decide_true, Bool.true_and, BitVec.getLsbD_zero] at this ⊢
    generalize v.getLsbD i = x at this ⊢
    cases x
    · rfl
    · simpa using this
  rw [← hm, BitVec.toNat_and]
  exact Nat.and_le_right

/-- The low bits of a word as a number. -/
theorem ofNat_fld_low (v : W64) {k : Nat} (hk : k ≤ 64) : BitVec.ofNat 64 (fld v 0 k) = v &&& BitVec.ofNat 64 (2 ^ k - 1) := by
  refine BitVec.eq_of_toNat_eq ?_
  have hpow : 2 ^ k ≤ 2 ^ 64 := Nat.pow_le_pow_right (by decide) hk
  have hpos : 0 < 2 ^ k := Nat.two_pow_pos k
  rw [BitVec.toNat_ofNat, BitVec.toNat_and, BitVec.toNat_ofNat, Nat.mod_eq_of_lt (by omega : 2 ^ k - 1 < 2 ^ 64), Nat.and_two_pow_sub_one_eq_mod,
    fld, Nat.pow_zero, Nat.div_one]
  exact Nat.mod_eq_of_lt ((Nat.mod_lt _ hpos).trans_le hpow)

/-- The two's complement of a word's low 16 bits. -/
theorem toSigned_eq_toInt (v : W64) : toSigned 16 v.toNat = (v.setWidth 16).toInt := by
  rw [toSigned, BitVec.toInt_eq_toNat_cond, BitVec.toNat_setWidth]
  by_cases h : v.toNat % 2 ^ 16 < 2 ^ (16 - 1)
  · rw [if_pos h, if_pos (by omega)]
  · rw [if_neg h, if_neg (by omega)]
    rfl

/-! ### MTHR and MADD -/

theorem exec_mthr (h : CtlReady s n cc r 0x05 [0x3F, 0xFF, 0, 0]) : ∃ co, exec (.mthr n cc) s =
    .next ((s.commit n cc r co r.signals).setF .mark n (opnd s n r 0).toNat 16 8 (opnd s n r 1).toNat) := by
  obtain ⟨co, hrow⟩ := ctlRow_of_ctlReady (ds := []) (f := fun u => u.setF .mark n (opnd s n r 0).toNat 16 8 (opnd s n r 1).toNat)
    (eff := fun _ v => .go [] fun s => s.setF .mark n (v.getD 0 0).toNat 16 8 (v.getD 1 0).toNat) h rfl fun u => onlyRegs_wr u _ _ _ _
  exact ⟨co, congrArg Host.Outcome.next hrow⟩

theorem exec_madd (h : CtlReady s n cc r 0x06 [0x3F, 0xFFFF, 0, 0]) : ∃ co, exec (.madd n cc) s =
    .next (s.commit n cc r co ([((opnd s n r 0).toNat, toSigned 16 (opnd s n r 1).toNat)] ++ r.signals)) := by
  obtain ⟨co, hrow⟩ := ctlRow_of_ctlReady (f := id) (ds := [((opnd s n r 0).toNat, toSigned 16 (opnd s n r 1).toNat)])
    (eff := fun _ v => .go [((v.getD 0 0).toNat, toSigned 16 (v.getD 1 0).toNat)] id) h rfl onlyRegs_refl
  exact ⟨co, congrArg Host.Outcome.next hrow⟩

/-- A threshold that is set changes no count and no other threshold. -/
theorem markThr_setF (s : State) (n k m x : Nat) (hx : x < 2 ^ 8) :
    (s.setF .mark n k 16 8 x).markThr n m = (if m = k then x else s.markThr n m) ∧
      (s.setF .mark n k 16 8 x).markCount n m = s.markCount n m := by
  by_cases h : m = k
  · subst h
    rw [if_pos rfl, State.markThr, s.fd_setF_same _ _ _ _ _ _ (by decide), State.markCount,
      s.fd_setF_of_disjoint _ _ _ _ _ _ _ _ (by decide)]
    exact ⟨Nat.mod_eq_of_lt hx, rfl⟩
  · rw [if_neg h, State.markThr, State.fd, s.rd_setF_word _ _ _ _ _ _ _ h, State.markCount, State.fd,
      s.rd_setF_word _ _ _ _ _ _ _ h]
    exact ⟨rfl, rfl⟩

theorem ctlRuns_mthr : CtlRuns .mthr 0x05 [0x3F#64, 0xFF#64] [] noExtra
    (fun s n v m => if m = (v 0).toNat then (v 1).toNat else s.markThr n m) (fun _ _ _ _ => True) := by
  intro s n cc r hready hop he hpc hin
  have hthr : (opnd s n r 1).toNat < 2 ^ 8 := Nat.lt_succ_of_le (toNat_le_of_inside (hin 1 (by decide)))
  obtain ⟨co, hexec⟩ := exec_mthr
    ⟨hready, hop, he, hpc, inside_names rfl rfl rfl rfl hin⟩
  have hset (u : State) : StageEffect n [.mark] [] u (u.setF .mark n (opnd s n r 0).toNat 16 8 (opnd s n r 1).toNat) :=
    stageEffect_wr (by decide)
  obtain ⟨hpc', hbase, hrun, hframe, hsame⟩ := ctlRecord_keeps (dest := []) hready
    (f := fun u => u.setF .mark n (opnd s n r 0).toNat 16 8 (opnd s n r 1).toNat) (ds := r.signals) (co := co)
    (onlyRegs_wr _ _ _ _ _) ((hset _).issueEffect (by decide) (by decide) (by decide))
  have hmarks := marksChanged_commit s n cc r co r.signals
  refine ⟨_, hexec, trivial, hpc', hbase, hrun,
    hmarks.marksAfter_with (fun m => ?_) (fun m => (markThr_setF _ n _ m _ hthr).2) (fun m => ?_) ?_, hframe, hsame⟩
  · simpa [noExtra] using changeOf_signals r m
  · rw [(markThr_setF _ n _ m _ hthr).1, hmarks.thr]
  · exact (hset _).toOpEffect.flag_eq (by decide) (by decide) n 0 5

theorem changeOf_singleton (k m : Nat) (d : Int) : changeOf [(k, d)] m = if m = k then d else 0 := by
  by_cases hm : m = k
  · simp [changeOf, hm]
  · simp [changeOf, hm, Ne.symm hm]

theorem ctlRuns_madd : CtlRuns .madd 0x06 [0x3F#64, 0xFFFF#64] []
    (fun _ v m => if m = (v 0).toNat then ((v 1).setWidth 16).toInt else 0) sameThr (fun _ _ _ _ => True) := by
  intro s n cc r hready hop he hpc hin
  obtain ⟨co, hexec⟩ := exec_madd
    ⟨hready, hop, he, hpc, inside_names rfl rfl rfl rfl hin⟩
  obtain ⟨hpc', hbase, hrun, hframe, hsame⟩ := ctlRecord_keeps (dest := []) hready (f := fun u => u) (co := co)
    (ds := [((opnd s n r 0).toNat, toSigned 16 (opnd s n r 1).toNat)] ++ r.signals) (onlyRegs_refl _) (.refl _ _ _)
  have hmarks := marksChanged_commit s n cc r co ([((opnd s n r 0).toNat, toSigned 16 (opnd s n r 1).toNat)] ++ r.signals)
  refine ⟨_, hexec, trivial, hpc', hbase, hrun,
    hmarks.marksAfter_with (fun m => ?_) (fun _ => rfl) hmarks.thr rfl, hframe, hsame⟩
  rw [changeOf_append, changeOf_signals, changeOf_singleton, toSigned_eq_toInt, Int.add_comm]
  simp only [true_and]

/-- Settles O9: MTHR and MADD change marks; each of the others writes the one word that its operands name. -/
theorem registerRecordsComplete : Obligations.RegisterRecordsComplete := by
  unfold Obligations.RegisterRecordsComplete
  refine ⟨ctlRuns_mthr, ctlRuns_madd, ?_, ?_, ?_, ?_, ?_, ?_, ?_, ?_⟩
  · exact ctlRuns_of_put (fun _ _ _ => rfl) rfl rfl rfl rfl (by decide)
  · exact ctlRuns_of_write (word := fun v => (v 0).toNat)
      (val := fun s n v => BitVec.ofNat 64 (((s.rd .coreCtr n (v 0).toNat).toNat + (v 1).toNat) % 2 ^ 32)) (fun _ _ _ => rfl)
      (fun _ _ _ => rfl) (fun _ => inside_names rfl rfl rfl rfl) (by decide) (fun _ _ h _ _ => by rw [h _ _ _ (by decide)]) fun _ _ _ _ _ h => h
  · exact ctlRuns_of_put (fun _ _ _ => rfl) rfl rfl rfl rfl (by decide)
  · exact ctlRuns_of_put (fun _ _ _ => rfl) rfl rfl rfl rfl (by decide)
  · exact ctlRuns_of_write (word := fun v => (v 0).toNat) (val := fun s n v => s.rd .coreParam n (v 0).toNat + v 1)
      (fun _ _ _ => rfl) (fun _ _ _ => rfl) (fun _ => inside_names rfl rfl rfl rfl) (by decide)
      (fun _ _ h _ _ => by rw [h _ _ _ (by decide)]) fun _ _ _ _ _ h => h
  · exact ctlRuns_of_write (word := fun v => (v 0).toNat) (val := fun s n _ => BitVec.ofNat 64 (s.fd .coreStep n 0 0 48))
      (fun _ _ _ => rfl) (fun _ _ _ => rfl) (fun _ => inside_names rfl rfl rfl rfl) (by decide)
      (fun _ _ h _ _ => by rw [State.fd, h _ _ _ (by decide), State.fd]) fun s n _ _ _ h => by
        rwa [State.fd, ofNat_fld_low _ (by decide)] at h
  · exact ctlRuns_of_write (word := fun v => (v 0).toNat)
      (val := fun s n v => v 1 + BitVec.ofNat 64 (s.fd .coreCtr n (v 2).toNat 0 32) * v 3)
      (fun _ _ _ => rfl) (fun _ _ _ => rfl) (fun _ => inside_names rfl rfl rfl rfl) (by decide)
      (fun _ _ h _ _ => by rw [State.fd, h _ _ _ (by decide), State.fd]) fun s n v _ _ h => by
        rwa [State.fd, ofNat_fld_low _ (by decide)] at h
  · exact ctlRuns_of_write (word := fun v => 8 * fld (v 0) 0 8 + fld (v 0) 8 3) (val := fun _ _ v => v 1) (fun _ _ _ => rfl)
      (fun _ _ _ => rfl) (fun _ => inside_names rfl rfl rfl rfl) (by decide) (fun _ _ _ _ _ => rfl) fun _ _ v _ hv h => by
        have hslot : (v 0).toNat ≤ 0x7FF := toNat_le_of_inside (hv 0 (by decide))
        have hword : 8 * fld (v 0) 0 8 + fld (v 0) 8 3 = 8 * ((v 0).toNat % 256) + (v 0).toNat / 256 := by
          simp only [fld]; omega
        rwa [hword] at h

end Sys2Proof.Machine
end

section
/-! SUPPORT. Completion of an operation (R139, R158, R175), and the wait watchdog (R178). -/

namespace Sys2Proof.Machine

open Sys2Proof.Claims

variable {s t u : State} {n : Nat} {rs ls : List Reg}

/-! ### Signals -/

/-- The signal of an operation that has one. -/
def State.signalOf (s : State) (n : Nat) (mark : Option Nat) : State :=
  match mark with
  | some m => s.signal n m
  | none => s

theorem issueEffect_signalOf {mark : Option Nat} (hmark : .mark ∈ rs) (hstat : .coreStat ∈ rs) :
    IssueEffect n rs s (s.signalOf n mark) := by
  cases mark with
  | none => exact .refl n rs s
  | some m => exact issueEffect_markChange hmark hstat

theorem onlyRegs_signalOf (s : State) (n : Nat) (mark : Option Nat) : OnlyRegs s (s.signalOf n mark) := by
  cases mark with
  | none => exact onlyRegs_refl s
  | some m => exact onlyRegs_markChange s n m 1

/-- A signal adds 1 to its mark, which holds at 0xFFFF (R158, R161). -/
theorem State.markCount_signalOf (s : State) (n : Nat) (mark : Option Nat) (m : Nat) :
    (s.signalOf n mark).markCount n m = if mark = some m then min (s.markCount n m + 1) 0xFFFF else s.markCount n m := by
  cases mark with
  | none => rfl
  | some k =>
    rw [State.signalOf, State.signal, s.markCount_markChange]
    refine if_congr (by simp [eq_comm]) ?_ rfl
    congr 1

/-! ### An operation leaves its engine -/

/-- An operation leaves its engine, signals and is traced (R139, R158). -/
def State.leaves (s : State) (n : Nat) (f : Flight) : State :=
  ((s.updCore n fun c => { c with flights := c.flights.erase f }).signalOf n f.mark).trace n .complete f.opcode f.ecls f.status
    (f.mark.getD 0xFF) f.tag 0

theorem State.leaves_spec (s : State) (n : Nat) (f : Flight) :
    let t := s.leaves n f
    (t.core n).flights = (s.core n).flights.erase f ∧ (t.core n).halted = (s.core n).halted ∧
      (∀ m, t.markCount n m = if f.mark = some m then min (s.markCount n m + 1) 0xFFFF else s.markCount n m) ∧
      IssueEffect n issueRegs s t := by
  unfold State.leaves
  dsimp only
  generalize hu : (s.updCore n fun c => { c with flights := c.flights.erase f }) = u
  have hcore : u.core n = { s.core n with flights := (s.core n).flights.erase f } := by rw [← hu, State.core_updCore]
  have hkept : MarksKept n s u := hu ▸ marksKept_updCore
  have hupd : IssueEffect n issueRegs s u := hu ▸ issueEffect_updCore (by decide) (by decide)
  have hcount := u.markCount_signalOf n f.mark
  have hsig : IssueEffect n issueRegs u (u.signalOf n f.mark) := issueEffect_signalOf (by decide) (by decide)
  have hcore' := core_of_onlyRegs (onlyRegs_signalOf u n f.mark) n
  generalize u.signalOf n f.mark = v at *
  have htrace : StageEffect n [.trcMem, .trcStat] [] v (v.trace n .complete f.opcode f.ecls f.status (f.mark.getD 0xFF) f.tag 0) :=
    stageEffect_trace (by decide) (by decide)
  obtain ⟨x, hx⟩ := v.core_trace n .complete f.opcode f.ecls f.status (f.mark.getD 0xFF) f.tag 0
  refine ⟨?_, ?_, fun m => ?_, (hupd.trans hsig).trans (htrace.issueEffect (by decide) (by decide) (by decide))⟩
  · rw [hx, hcore', hcore]
  · rw [hx, hcore', hcore]
  · rw [htrace.sameMarks (by decide) (by decide), hcount, State.markCount, State.fd, hkept.1, State.markCount, State.fd]

/-! ### An operation that failed -/

/-- The record of an operation that failed, and the flag of its status; a hazard has written its own record (R172). -/
def State.noteFailure (s : State) (n : Nat) (f : Flight) : State :=
  if f.status = 9 then s else (s.fault (statusRecord n f.tag f.opcode f.ecls f.status f.addr f.dslot)).statusFlags n f

/-- The flag that a status sets changes DMA_STAT or SPD_STAT alone. -/
theorem statusFlags_spec (s : State) (n : Nat) (f : Flight) :
    StageEffect n [.dmaStat, .spdStat] [] s (s.statusFlags n f) ∧ (s.statusFlags n f).cores = s.cores := by
  have hraise (r : Reg) (i k : Nat) (hr : r ∈ [Reg.dmaStat, .spdStat]) :
      StageEffect n [.dmaStat, .spdStat] [] s (s.raise r n i k) ∧ (s.raise r n i k).cores = s.cores := ⟨stageEffect_wr hr, rfl⟩
  have hsame : StageEffect n [.dmaStat, .spdStat] [] s s ∧ s.cores = s.cores := ⟨.refl _ _ _ s, rfl⟩
  unfold State.statusFlags
  dsimp only
  split
  · split
    · exact hraise _ _ _ (by decide)
    · exact hraise _ _ _ (by decide)
    · split
      · exact hraise _ _ _ (by decide)
      · exact hsame
    · exact hraise _ _ _ (by decide)
    · exact hraise _ _ _ (by decide)
    · exact hsame
  · split
    · exact hraise _ _ _ (by decide)
    · exact hsame

theorem StageEffect.weaken {rs' ls' : List Reg} (h : StageEffect n rs ls s t) (hrs : rs ⊆ rs') (hls : ls ⊆ ls') :
    StageEffect n rs' ls' s t :=
  ⟨fun r m i hl hr => h.regs r m i (fun hmem => hl (hls hmem)) (hr.imp_left fun hn hmem => hn (hrs hmem)), h.cores, h.flights, h.frame⟩

/-- Noting a failure changes DMA_STAT or SPD_STAT of the core, and the fault log. -/
theorem noteFailure_spec (s : State) (n : Nat) (f : Flight) :
    StageEffect n [.dmaStat, .spdStat] logRegs s (s.noteFailure n f) ∧ (s.noteFailure n f).cores = s.cores := by
  unfold State.noteFailure
  split
  · exact ⟨.refl _ _ _ s, rfl⟩
  · generalize statusRecord n f.tag f.opcode f.ecls f.status f.addr f.dslot = r
    obtain ⟨heff, hcores⟩ := statusFlags_spec (s.fault r) n f
    obtain ⟨⟨_, _, _, _, hfault⟩, -⟩ := s.fault_spec r
    refine ⟨(stageEffect_fault (List.Subset.refl _)).trans (heff.weaken (List.Subset.refl _) (by decide)), hcores.trans ?_⟩
    rw [hfault]

/-- What a failure does to the self-test changes registers of the self-test alone (R540). -/
theorem testNote_spec (s : State) (n : Nat) : OnlyRegs s (s.testNote n) ∧ SameRegs [.tstFailcore, .tstStat] s (s.testNote n) := by
  have hcore : SameRegs [.tstFailcore, .tstStat] s (s.raise .tstFailcore 0 (n / 64) (n % 64)) :=
    sameRegs_mono (sameRegs_wr s _ _ _ _) (by simp)
  unfold State.testNote
  dsimp only
  split
  · exact ⟨⟨_, rfl⟩, sameRegs_trans hcore (sameRegs_mono (sameRegs_wr _ .tstStat 0 0 _) (by simp))⟩
  · exact ⟨onlyRegs_refl s, sameRegs_refl s _⟩

/-- The stages of a completion: the operation leaves, and one that failed is noted and halts the core. -/
theorem State.retire_eq (s : State) (n : Nat) (f : Flight) : s.retire n f =
    if f.status = 0 then s.leaves n f
    else (((s.leaves n f).noteFailure n f).testNote n).halt n f.tag f.opcode f.ecls f.status (some f.replay) true := rfl

/-- The oldest operation of an engine, once done, completes. -/
theorem exec_macroOpComplete {eng cc : Nat} {f : Flight} (h : DoneOn s n eng f) (hcc : f.issued ≤ cc) :
    exec (.macroOpComplete n eng cc) s = .next (s.retire n f) := by
  show execMacroOpComplete n eng cc s = _
  rw [execMacroOpComplete, h.1]
  exact if_pos ⟨h.2, hcc⟩

theorem sameMem_trans (h : SameMem s t) (h' : SameMem t u) : SameMem s u :=
  ⟨fun a => (h'.1 a).trans (h.1 a), fun g => (h'.2 g).trans (h.2 g)⟩

/-- What noting a failure leaves of the core, its marks and memory. -/
theorem State.noted_spec (s : State) (n : Nat) (f : Flight) :
    let t := (s.noteFailure n f).testNote n
    t.cores = s.cores ∧ (∀ m, t.markCount n m = s.markCount n m) ∧ SameMem s t := by
  obtain ⟨heff, hcores⟩ := noteFailure_spec s n f
  have hmarks := heff.sameMarks (by decide) (by decide)
  have hmem := heff.toOpEffect.sameMem
  dsimp only
  generalize s.noteFailure n f = u at *
  obtain ⟨honly, hregs⟩ := testNote_spec u n
  obtain ⟨hmem', -, -, hcores'⟩ := frame_of_onlyRegs honly
  refine ⟨hcores'.trans hcores, fun m => ?_, sameMem_trans hmem hmem'⟩
  rw [State.markCount, State.fd, hregs _ _ _ (by decide)]
  exact hmarks m

/-- A failing operation halts the core, after it has left its engine and signalled (R158, R175). -/
theorem retire_of_failed {f : Flight} (hst : f.status ≠ 0) (h : (s.core n).halted = false) :
    let t := s.retire n f
    (t.core n).flights = (s.core n).flights.erase f ∧
      (∀ m, t.markCount n m = if f.mark = some m then min (s.markCount n m + 1) 0xFFFF else s.markCount n m) ∧
      (t.core n).halted = true ∧ t.flag .coreStat n 0 4 = true ∧
      t.rd .coreHalt n 0 = haltWord f.tag f.opcode f.ecls f.status ∧ SameMem s t := by
  rw [State.retire_eq, if_neg hst]
  obtain ⟨hflights, hrun, hmarks, heff⟩ := s.leaves_spec n f
  have hmem := heff.effect.sameMem
  generalize s.leaves n f = u at *
  obtain ⟨hcores', hmarks', hmem'⟩ := u.noted_spec n f
  generalize (u.noteFailure n f).testNote n = v at *
  have hcore : v.core n = u.core n := by rw [State.core, hcores', State.core]
  have hrun' : (v.core n).halted = false := by rw [hcore, hrun, h]
  obtain ⟨hhalt, hword, heff''⟩ := State.halt_spec (tag := f.tag) (opcode := f.opcode) (ecls := f.ecls) (status := f.status)
    (rep := some f.replay) (own := true) hrun'
  obtain ⟨-, hflag⟩ := State.halt_keeps (tag := f.tag) (opcode := f.opcode) (ecls := f.ecls) (status := f.status)
    (rep := some f.replay) (own := true) hrun'
  refine ⟨?_, fun m => ?_, hhalt, hflag, hword, sameMem_trans (sameMem_trans hmem hmem') heff''.toOpEffect.sameMem⟩
  · rw [heff''.flights, hcore, hflights]
  · rw [heff''.sameMarks (by decide) (by decide), hmarks', hmarks]

/-! ### The wait watchdog -/

/-- A record that waits beyond the limit is flagged, recorded and traced, and its core notes that it has been (R178). -/
def State.waitedTooLong (s : State) (n : Nat) : State :=
  let r := s.nextRec n
  let tag := r.fullTag (s.rplIdx n)
  let f : FaultRec := { cls := 8, evt := 0, src := n, tag := tag, opcode := r.opcode, ecls := r.ecls,
                        detail := r.wwin * 2 ^ 32 + r.wmask * 2 ^ 40 }
  ((((s.raise .coreStat n 0 6).fault f).trace n .waitTo r.opcode r.ecls 0 r.wwin tag r.wmask).updCore n fun c =>
    { c with waitReported := true })

theorem exec_waitTimeout_of_overdue {held : Nat} (hissue : s.issuing n = true) (hwait : (s.core n).waiting = true)
    (hnew : (s.core n).waitReported = false) (hlim : s.fd .coreWaitwd n 0 0 32 ≠ 0) (hover : s.fd .coreWaitwd n 0 0 32 * 1024 < held) :
    exec (.waitTimeout n held) s = .next (s.waitedTooLong n) :=
  if_pos ⟨hissue, hwait, by rw [hnew]; rfl, hlim, hover⟩

theorem exec_waitTimeout_of_reported {held : Nat} (h : (s.core n).waitReported = true) : exec (.waitTimeout n held) s = .next s :=
  if_neg fun ⟨_, _, hnew, _⟩ => by rw [h] at hnew; exact absurd hnew (by decide)

/-- What the watchdog's report leaves. -/
theorem State.waitedTooLong_spec (s : State) (n : Nat) :
    let t := s.waitedTooLong n
    t.flag .coreStat n 0 6 = true ∧ (∃ x, t.core n = { s.core n with waitReported := true, trcCount := x }) ∧ Recorded s t ∧
      StageEffect n [.coreStat, .dmaStat, .trcMem, .trcStat] logRegs s t := by
  unfold State.waitedTooLong
  dsimp only
  generalize s.nextRec n = r
  generalize r.fullTag (s.rplIdx n) = tag
  generalize ({ cls := 8, evt := 0, src := n, tag := tag, opcode := r.opcode, ecls := r.ecls,
                detail := r.wwin * 2 ^ 32 + r.wmask * 2 ^ 40 } : FaultRec) = f
  generalize hu : s.raise .coreStat n 0 6 = u
  have hset : u.flag .coreStat n 0 6 = true := hu ▸ State.flag_raise_same _ _ _ _ _ (by decide)
  have hcore : u.core n = s.core n := by rw [← hu, State.raise, State.setF_eq, State.core_wr]
  have hraise : StageEffect n [.coreStat, .dmaStat, .trcMem, .trcStat] logRegs s u := hu ▸ stageEffect_wr (by decide)
  have hfault : StageEffect n [] logRegs u (u.fault f) := stageEffect_fault (List.Subset.refl _)
  have hrec := recorded_fault u f
  have hcore' : (u.fault f).core n = u.core n := by obtain ⟨⟨_, _, _, _, hf⟩, -⟩ := u.fault_spec f; rw [hf]; rfl
  generalize u.fault f = v at *
  have htrace : StageEffect n [.trcMem, .trcStat] [] v (v.trace n .waitTo r.opcode r.ecls 0 r.wwin tag r.wmask) :=
    stageEffect_trace (by decide) (by decide)
  obtain ⟨x, hx⟩ := v.core_trace n .waitTo r.opcode r.ecls 0 r.wwin tag r.wmask
  generalize v.trace n .waitTo r.opcode r.ecls 0 r.wwin tag r.wmask = w at *
  have hupd : StageEffect n [.coreStat, .dmaStat] [] w (w.updCore n fun c => { c with waitReported := true }) :=
    stageEffect_updCore rfl (by decide) (by decide)
  have hseq : s.rd .fltSeq 0 0 = u.rd .fltSeq 0 0 := by rw [← hu, State.rd_raise_reg _ _ _ _ _ _ _ _ (by decide)]
  refine ⟨?_, ⟨x, ?_⟩, ?_, ?_⟩
  · rw [flag_coreStat_updCore _ _ _ (by decide), htrace.toOpEffect.flag_eq (by decide) (by decide),
      hfault.toOpEffect.flag_eq (by decide) (by decide), hset]
  · rw [State.core_updCore, hx, hcore', hcore]
  · rw [Recorded, State.fd, hupd.regs _ _ _ (by decide) (.inl (by decide)), htrace.regs _ _ _ (by decide) (.inl (by decide)),
      State.fd, hseq]
    exact hrec
  · exact ((hraise.trans (hfault.weaken (by decide) (List.Subset.refl _))).trans (htrace.weaken (by decide) (by decide))).trans
      (hupd.weaken (by decide) (by decide))

/-- Settles O12: a completion is the operation's leaving, and a halt if it failed; the watchdog reports a wait once. -/
theorem completionAndWatchdogs : Obligations.CompletionAndWatchdogs := by
  unfold Obligations.CompletionAndWatchdogs
  refine ⟨fun s n eng cc f hdone hcc hst => ?_, fun s n eng cc f hdone hcc hst hst16 hop he htag hrun => ?_, fun s n => rfl,
    fun s n held hissue hwait hnew hlim hover => ?_⟩
  · obtain ⟨hflights, -, hmarks, heff⟩ := s.leaves_spec n f
    refine ⟨_, (exec_macroOpComplete hdone hcc).trans (congrArg _ ((s.retire_eq n f).trans (if_pos hst))), hflights, hmarks,
      heff.issueFrame (rs := []), heff.effect.sameMem⟩
  · obtain ⟨hflights, hmarks, hhalt, hflag, hword, hmem⟩ := retire_of_failed hst hrun
    refine ⟨_, exec_macroOpComplete hdone hcc, hflights, hmarks, hhalt, hflag, ?_, hmem⟩
    rw [hword, haltWord, Nat.mod_eq_of_lt htag, Nat.mod_eq_of_lt hop, Nat.mod_eq_of_lt he, Nat.mod_eq_of_lt hst16]
  · obtain ⟨hflag, ⟨x, hcore⟩, hrec, heff⟩ := s.waitedTooLong_spec n
    refine ⟨_, exec_waitTimeout_of_overdue hissue hwait hnew hlim hover, hflag, ?_, ?_, ?_, ?_, hrec, heff.toOpEffect.sameMem,
      heff.toOpEffect.sameUnits heff.acc_eq.1 heff.acc_eq.2, heff.toOpEffect.sameOutside, heff.cores,
      exec_waitTimeout_of_reported ?_⟩ <;> rw [hcore]
    exact hwait

end Sys2Proof.Machine
end

section
/-! SUPPORT. Instruction memory (R147 to R149): writes of a half, switch requests and the exchange of halves. -/

namespace Sys2Proof.Machine

open Sys2Proof.Claims

variable {s t u : State} {n : Nat} {rs ls : List Reg}

/-! ### Steps of one core -/

theorem StageEffect.coreOnly (h : StageEffect n rs [] s t) : CoreOnly n rs s t := by
  obtain ⟨hkern, -, hhdr, hlanes, hlaneF⟩ := h.toOpEffect.sameKernelsAndLanes.2
  exact ⟨h.sameCoreRegs, h.cores, h.toOpEffect.sameMem, h.acc_eq.1, h.acc_eq.2, hkern, hhdr, hlanes, hlaneF⟩

theorem coreOnly_trans (h : CoreOnly n rs s t) (h' : CoreOnly n rs t u) : CoreOnly n rs s u := by
  obtain ⟨hregs, hcores, hmem, hacc, hbad, hkern, hhdr, hlanes, hlaneF⟩ := h
  obtain ⟨hregs', hcores', hmem', hacc', hbad', hkern', hhdr', hlanes', hlaneF'⟩ := h'
  exact ⟨fun r m i hr => (hregs' r m i hr).trans (hregs r m i hr), fun m hm => (hcores' m hm).trans (hcores m hm),
    sameMem_trans hmem hmem', hacc'.trans hacc, hbad'.trans hbad, hkern'.trans hkern, hhdr'.trans hhdr, hlanes'.trans hlanes,
    hlaneF'.trans hlaneF⟩

/-! ### Writes -/

/-- The register window of a half of instruction memory (R185). -/
abbrev imReg (half : Nat) : Reg := if half = 0 then .coreIm0 else .coreIm1

theorem exec_imWrite {a : Agent} {half : Nat} (w : Nat) (v : W64) (h : MayWrite s a (imReg half)) :
    exec (.imWrite a n half w v) s = .next (if s.imRefuses n half then
        (s.imRefused a n ((s.writerOp a).elim 0 (·.tag))).writerFails a (ctlBase + (imReg half).offset n w)
      else s.imStore n half w (BitVec.allOnes 64) v) := by
  show Host.Outcome.next (s.gated a (imReg half) n w _) = _
  rw [s.gated_of_mayWrite n w _ h]

/-- A half is refused while it is the active one or an exchange pends (R147, R148). -/
theorem State.imRefuses_iff (s : State) (n half : Nat) :
    s.imRefuses n half = true ↔ s.fd .coreImstat n 0 0 1 = half ∨ s.flag .coreImstat n 0 2 = true := by
  simp [State.imRefuses]

/-- A word of a half that is written whole holds its value, and its record passes its check. -/
theorem State.imStore_spec (s : State) (n half w : Nat) (v : W64) :
    let t := s.imStore n half w (BitVec.allOnes 64) v
    OneWord (imReg half) n w v s t ∧ Sparse.get false t.imBad (n * 2048 + half * 1024 + w / 4) = false ∧
      CoreOnly n [imReg half] s t ∧ t.cores = s.cores ∧ SameOutside s t := by
  have hword : (s.rd (imReg half) n w &&& ~~~BitVec.allOnes 64) ||| (v &&& BitVec.allOnes 64) = v := by
    rw [BitVec.not_allOnes, BitVec.and_zero, BitVec.zero_or, BitVec.and_allOnes]
  have hstore : s.imStore n half w (BitVec.allOnes 64) v =
      { s.wr (imReg half) n w v with imBad := Sparse.set false s.imBad (n * 2048 + half * 1024 + w / 4) false } := by
    rw [State.imStore, hword]
    rfl
  have hwr : StageEffect n [imReg half] [] s (s.wr (imReg half) n w v) := stageEffect_wr (by simp)
  rw [hstore]
  refine ⟨⟨s.rd_wr _ _ _ _, fun j hj => s.rd_wr_ne _ _ _ _ _ _ _ fun e => hj e.2.2.symm⟩, ?_, hwr.coreOnly, rfl,
    hwr.toOpEffect.sameOutside⟩
  simp

/-- A refused write is flagged, counted and recorded, and changes nothing else (R147). -/
theorem State.imRefused_spec (s : State) (a : Agent) (n tag : Nat) :
    let t := s.imRefused a n tag
    t.flag .coreImstat n 0 1 = true ∧ t.fd .coreImstat n 0 8 16 = min (s.fd .coreImstat n 0 8 16 + 1) 0xFFFF ∧ Recorded s t ∧
      SameRegs (.coreImstat :: logRegs) s t ∧ OnlyRegsAndReports s t ∧ t.outbox = s.outbox := by
  unfold State.imRefused
  generalize ({ cls := 8, evt := 2, src := n, tag := tag, detail := agentCode a * 2 ^ 56 } : FaultRec) = f
  dsimp only
  generalize hu : s.raise .coreImstat n 0 1 = u
  have hflag : u.flag .coreImstat n 0 1 = true := hu ▸ State.flag_raise_same _ _ _ _ _ (by decide)
  have hcnt : u.fd .coreImstat n 0 8 16 = s.fd .coreImstat n 0 8 16 := by
    rw [← hu, State.raise, s.fd_setF_of_disjoint _ _ _ _ _ _ _ _ (by decide)]
  have hregs : SameRegs [.coreImstat] s u := hu ▸ sameRegs_wr s _ _ _ _
  obtain ⟨_, hframe⟩ : OnlyRegs s u := hu ▸ onlyRegs_wr s _ _ _ _
  generalize hv : u.count .coreImstat n 0 8 16 1 = v
  have hflag' : v.flag .coreImstat n 0 1 = true := by
    rw [← hv, State.count]
    exact (State.flag_of_sameBits (m := 2#64) (sameBits_setF_of fun _ => by decide) (by decide)).trans hflag
  have hcnt' : v.fd .coreImstat n 0 8 16 = min (s.fd .coreImstat n 0 8 16 + 1) 0xFFFF := by
    rw [← hcnt, ← hv]
    exact u.fd_count_same _ _ _ _ _ _ (by decide)
  have hregs' : SameRegs [.coreImstat] u v := hv ▸ sameRegs_wr u _ _ _ _
  obtain ⟨_, hframe'⟩ : OnlyRegs u v := hv ▸ onlyRegs_wr u _ _ _ _
  have hlog := sameRegs_fault v f
  have hrec := recorded_fault v f
  obtain ⟨⟨_, _, _, _, hfault⟩, -⟩ := v.fault_spec f
  refine ⟨?_, ?_, ?_, ?_, ?_, ?_⟩
  · rw [State.flag, hlog _ _ _ (by decide)]
    exact hflag'
  · rw [State.fd, hlog _ _ _ (by decide)]
    exact hcnt'
  · have hseq : v.fd .fltSeq 0 0 0 32 = s.fd .fltSeq 0 0 0 32 := by
      rw [State.fd, (sameRegs_trans hregs hregs') _ _ _ (by decide), State.fd]
    rwa [Recorded, hseq] at hrec
  · exact sameRegs_trans (sameRegs_mono (sameRegs_trans hregs hregs') (by simp)) (sameRegs_mono hlog (by simp))
  · exact ⟨_, _, _, _, v.outbox, by rw [hfault, hframe', hframe]⟩
  · rw [hfault, hframe', hframe]

/-! ### What comes back to the writer -/

/-- What changes the element found first, and is found itself, is found in its place. -/
theorem find?_replFirst {α : Type} {p : α → Bool} {g : α → α} {a : α} {l : List α} (h : l.find? p = some a) (hg : p (g a) = true) :
    (replFirst p g l).find? p = some (g a) := by
  induction l with
  | nil => simp at h
  | cons x l ih =>
    rw [List.find?_cons] at h
    rw [replFirst]
    cases hx : p x with
    | true =>
      obtain rfl : x = a := by simpa [hx] using h
      simp [hg]
    | false => simpa [hx] using ih (by simpa [hx] using h)

/-- An operation whose write was refused keeps an earlier failure, and takes ADDR otherwise. -/
def Flight.refusedAt (addr : Nat) (f : Flight) : Flight := if f.status = 0 then { f with status := 1, addr := addr } else f

theorem Flight.refusedAt_spec (addr : Nat) (f : Flight) : (f.refusedAt addr).ecls = f.ecls ∧ (f.refusedAt addr).phase = f.phase ∧
    (f.refusedAt addr).fid = f.fid ∧ (f.refusedAt addr).status = if f.status = 0 then 1 else f.status := by
  unfold Flight.refusedAt
  split <;> exact ⟨rfl, rfl, rfl, rfl⟩

/-- The operation that a DMA engine has in progress takes the refusal. -/
theorem State.writerFails_dma (s : State) (k e addr : Nat) {g : Flight}
    (h : (s.core k).flights.find? (fun g => g.ecls == e && g.phase != .done) = some g) :
    ∃ g', (((s.writerFails (.dma k e) addr).core k).flights.find? fun g => g.ecls == e && g.phase != .done) = some g' ∧
      g'.fid = g.fid ∧ g'.status = if g.status = 0 then 1 else g.status := by
  have hp := List.find?_some h
  obtain ⟨hecls, hphase, hfid, hstatus⟩ := g.refusedAt_spec addr
  have hrun : ((s.writerFails (.dma k e) addr).core k).flights =
      replFirst (fun g => g.ecls == e && g.phase != .done) (Flight.refusedAt addr) (s.core k).flights :=
    congrArg CoreSt.flights (s.core_modCore k _)
  refine ⟨g.refusedAt addr, ?_, hfid, hstatus⟩
  rw [hrun]
  exact find?_replFirst h (by rw [hecls, hphase]; exact hp)

/-- What comes back to the writer changes the operation of a DMA engine, or what the chip has sent. -/
theorem State.writerFails_frame (s : State) (a : Agent) (addr : Nat) :
    (∃ cores outbox, s.writerFails a addr = { s with cores := cores, outbox := outbox }) ∧
      ((∀ k e, a ≠ .dma k e) → (s.writerFails a addr).cores = s.cores) := by
  cases a with
  | dma k e => exact ⟨⟨_, _, rfl⟩, fun h => absurd rfl (h k e)⟩
  | _ => exact ⟨⟨_, _, rfl⟩, fun _ => rfl⟩

/-- A mesh write that was refused is answered with ADDR. -/
theorem State.lastSent_writerFails_mesh (s : State) (k addr : Nat) :
    (s.writerFails (.mesh k) addr).outbox.getLast?.map (fun m => match m with | .memory _ st _ => st | _ => 0) = some 1 := by
  have hsent : (s.writerFails (.mesh k) addr).outbox = s.outbox ++ [Emission.memory addr 1 []] := rfl
  rw [hsent, List.getLast?_concat]
  rfl

/-! ### Switch requests and the exchange -/

theorem exec_switchHalf {a : Agent} (h : MayWrite s a .coreImctl) : exec (.switchHalf a n) s = .next (s.switchHalf n) := by
  show Host.Outcome.next (s.gated a .coreImctl n 0 _) = _
  rw [s.gated_of_mayWrite n 0 _ h]

/-- A flag that is raised is set in its word, and nothing else is. -/
theorem State.rd_raise (s : State) (r : Reg) (n i k : Nat) (h : k < 64) :
    (s.raise r n i k).rd r n i = s.rd r n i ||| BitVec.ofNat 64 (2 ^ k) := by
  rw [State.raise, State.setF_eq, State.rd_wr]
  refine BitVec.eq_of_getLsbD_eq fun j hj => ?_
  rw [getLsbD_setFld, BitVec.getLsbD_or, BitVec.getLsbD_ofNat, Nat.testBit_two_pow]
  by_cases hjk : j = k
  · subst hjk; simp [hj]
  · rw [if_neg (by omega)]; simp [hj, Ne.symm hjk]

/-- The registers of core `n` after the exchange of its halves, before the trace (R148). -/
def State.exchanged (s : State) (n : Nat) : State :=
  ((s.setF .coreImstat n 0 0 1 (1 - s.fd .coreImstat n 0 0 1)).setF .coreImstat n 0 24 8 (s.fd .coreImstat n 0 24 8 + 1)).setF
    .coreImstat n 0 2 1 0

theorem exec_halfExchange_of_pending (hpend : s.flag .coreImstat n 0 2 = true) (hrun : (s.core n).running = false) :
    exec (.halfExchange n) s = .next ((s.exchanged n).trace n .switch 0 0 0 0xFF 0 ((s.fd .coreImstat n 0 24 8 + 1) % 256)) := by
  show execHalfExchange n s = _
  rw [execHalfExchange, if_pos (by rw [hpend, hrun]; rfl)]
  rfl

theorem exec_halfExchange_of_not (h : s.flag .coreImstat n 0 2 = false ∨ (s.core n).running = true) :
    exec (.halfExchange n) s = .next s := by
  show execHalfExchange n s = _
  rw [execHalfExchange, if_neg]
  · rfl
  · obtain h | h := h <;> simp [h]

theorem State.flag_setF_clear (s : State) (r : Reg) (n i k : Nat) (h : k < 64) : (s.setF r n i k 1 0).flag r n i k = false :=
  s.flag_setF_b2n r n i k false h

/-- The halves have changed places, no exchange pends, and the count of exchanges has gone up (R148). -/
theorem State.exchanged_spec (s : State) (n : Nat) :
    let t := s.exchanged n
    t.fd .coreImstat n 0 0 1 = 1 - s.fd .coreImstat n 0 0 1 ∧ t.flag .coreImstat n 0 2 = false ∧
      t.fd .coreImstat n 0 24 8 = (s.fd .coreImstat n 0 24 8 + 1) % 256 ∧ StageEffect n [.coreImstat] [] s t := by
  unfold State.exchanged
  dsimp only
  refine ⟨?_, State.flag_setF_clear _ _ _ _ _ (by decide), ?_, ?_⟩
  · rw [State.fd_setF_of_disjoint _ _ _ _ _ _ _ _ _ (by decide), State.fd_setF_of_disjoint _ _ _ _ _ _ _ _ _ (by decide),
      State.fd_setF_same _ _ _ _ _ _ _ (by decide)]
    exact Nat.mod_eq_of_lt (by omega)
  · rw [State.fd_setF_of_disjoint _ _ _ _ _ _ _ _ _ (by decide)]
    exact State.fd_setF_same _ _ _ _ _ _ _ (by decide)
  · have hset (u : State) (lo len x : Nat) : StageEffect n [.coreImstat] [] u (u.setF .coreImstat n 0 lo len x) :=
      stageEffect_wr (by decide)
    exact ((hset _ _ _ _).trans (hset _ _ _ _)).trans (hset _ _ _ _)

/-- Settles O38: a write is stored or refused, a request pends once, and the exchange is traced. -/
theorem instructionMemoryCommandsComplete : Obligations.InstructionMemoryCommandsComplete := by
  unfold Obligations.InstructionMemoryCommandsComplete
  intro s a n half w v hhalf
  refine ⟨fun hw => ⟨fun hactive hpend hw' => ?_, fun href => ?_⟩, fun hw => ⟨fun hpend => ?_, fun hpend => ?_⟩,
    fun hpend hrun => ?_, exec_halfExchange_of_not⟩
  · have hnot : ¬s.imRefuses n half = true := by rw [s.imRefuses_iff]; simp [hactive, hpend]
    exact ⟨_, (exec_imWrite w v hw).trans (congrArg _ (if_neg hnot)), s.imStore_spec n half w v⟩
  · refine ⟨_, (exec_imWrite w v hw).trans (congrArg _ (if_pos ((s.imRefuses_iff n half).2 href))), ?_⟩
    generalize (s.writerOp a).elim 0 (·.tag) = tag
    generalize ctlBase + (imReg half).offset n w = addr
    obtain ⟨hflag, hcnt, hrec, hregs, ⟨_, _, _, _, _, hframe⟩, hout⟩ := s.imRefused_spec a n tag
    have hcores : (s.imRefused a n tag).cores = s.cores := by rw [hframe]
    have hbad : (s.imRefused a n tag).imBad = s.imBad := by rw [hframe]
    have hmem : SameMem s (s.imRefused a n tag) := by rw [hframe]; exact ⟨fun _ => rfl, fun _ => rfl⟩
    clear hframe
    generalize s.imRefused a n tag = u at *
    obtain ⟨⟨_, _, hback⟩, hkept⟩ := u.writerFails_frame a addr
    have hrd (r : Reg) (m i : Nat) : (u.writerFails a addr).rd r m i = u.rd r m i := by rw [hback]; rfl
    refine ⟨?_, ?_, ?_, fun r m i hr => (hrd r m i).trans (hregs r m i hr), ?_, ?_, ?_, fun ha => (hkept ha).trans hcores, ?_⟩
    · rw [State.flag, hrd]; exact hflag
    · rw [State.fd, hrd]; exact hcnt
    · rw [State.fd, hrd]; exact hrec
    · rw [hback]; exact hbad
    · rintro k e rfl g hg
      exact u.writerFails_dma k e addr (by rwa [State.core, hcores])
    · rintro k rfl
      exact u.lastSent_writerFails_mesh k addr
    · exact sameMem_trans hmem (by rw [hback]; exact ⟨fun _ => rfl, fun _ => rfl⟩)
  · have hswitch : s.switchHalf n = s.raise .coreImstat n 0 2 := by rw [State.switchHalf, hpend, if_neg (by decide)]
    have hraise : StageEffect n [.coreImstat] [] s (s.raise .coreImstat n 0 2) := stageEffect_wr (by decide)
    exact ⟨_, (exec_switchHalf hw).trans (congrArg _ hswitch), s.rd_raise _ _ _ _ (by decide), hraise.coreOnly, rfl,
      hraise.toOpEffect.sameOutside⟩
  · exact (exec_switchHalf hw).trans (congrArg _ (by rw [State.switchHalf, if_pos hpend]))
  · obtain ⟨hhalf', hpend', hgen, heff⟩ := s.exchanged_spec n
    have hcore : (s.exchanged n).core n = s.core n := rfl
    refine ⟨_, exec_halfExchange_of_pending hpend hrun, ?_⟩
    generalize (s.fd .coreImstat n 0 24 8 + 1) % 256 = aux at hgen ⊢
    generalize s.exchanged n = u at *
    have htrace : StageEffect n [.trcMem, .trcStat] [] u (u.trace n .switch 0 0 0 0xFF 0 aux) := stageEffect_trace (by decide) (by decide)
    obtain ⟨x, hx⟩ := u.core_trace n .switch 0 0 0 0xFF 0 aux
    have hword := htrace.regs .coreImstat n 0 List.not_mem_nil (.inl (by decide))
    have hall : StageEffect n [.coreImstat, .trcMem, .trcStat] [] s _ :=
      (heff.weaken (by decide) (List.Subset.refl _)).trans (htrace.weaken (by decide) (List.Subset.refl _))
    refine ⟨?_, ?_, ?_, hall.coreOnly, hall.toOpEffect.sameOutside, ?_⟩
    · rw [State.fd, hword]; exact hhalf'
    · rw [State.flag, hword]; exact hpend'
    · rw [State.fd, hword]; exact hgen
    · rw [hx, hcore]; exact hrun

end Sys2Proof.Machine
end

section
/-! SUPPORT. STOP and RESUME (R176, R177): the state that CORE_STAT shows, and what each command leaves. -/

namespace Sys2Proof.Machine

open Sys2Proof.Claims

variable {s t u : State} {n : Nat} {rs ls : List Reg}

/-! ### CORE_STAT.STATE -/

/-- The state that CORE_STAT shows of a core (Table 5.11). -/
def stateCode (stop : Bool) (c : CoreSt) : Nat :=
  if stop then 4 else if c.halted then 3
  else if !c.running && (c.disp.isNone || c.resumed) then 0 else if c.waiting then 2 else 1

theorem stateCode_lt (stop : Bool) (c : CoreSt) : stateCode stop c < 2 ^ 3 := by
  unfold stateCode
  split_ifs <;> decide

/-- A change of a core's execution state shows in CORE_STAT.STATE. -/
theorem State.fd_state_updCore (s : State) (n : Nat) (f : CoreSt → CoreSt) :
    (s.updCore n f).fd .coreStat n 0 0 3 = stateCode (s.flag .coreCtl n 0 0) (f (s.core n)) := by
  have hcore : (s.modCore n f).core n = f (s.core n) := s.core_modCore n f
  have hsync : ∃ inflt k b k' b', s.updCore n f =
      ((((((s.modCore n f).setF .coreStat n 0 0 3 (stateCode (s.flag .coreCtl n 0 0) ((s.modCore n f).core n))).setF .coreStat n 0 16 5
        inflt).setF .dmaStat n 0 16 5 k).setF .dmaStat n 0 8 1 b).setF .dmaStat n 1 16 5 k').setF .dmaStat n 1 8 1 b' :=
    ⟨_, _, _, _, _, rfl⟩
  obtain ⟨inflt, k, b, k', b', hsync⟩ := hsync
  rw [hsync, hcore, State.fd]
  simp only [State.rd_setF_reg _ .dmaStat .coreStat _ _ _ _ _ _ _ (by decide)]
  rw [← State.fd, State.fd_setF_of_disjoint _ _ _ _ _ _ _ _ _ (by decide), State.fd_setF_same _ _ _ _ _ _ _ (by decide)]
  exact Nat.mod_eq_of_lt (stateCode_lt _ _)

/-- A change of a core's execution state leaves CORE_CTL. -/
theorem State.rd_updCore (s : State) (n : Nat) (f : CoreSt → CoreSt) {r : Reg} (m i : Nat) (h : r ≠ .coreStat ∧ r ≠ .dmaStat) :
    (s.updCore n f).rd r m i = s.rd r m i := (State.sync_spec (s.modCore n f) n).2 r m i (by simp [h.1, h.2])

/-! ### The commands -/

theorem State.gatedLock_of_unlocked {a : Agent} {r : Reg} (n i : Nat) (changes : Bool) (act : State → State) (h : MayWrite s a r)
    (hu : Unlocked s a r) : s.gatedLock a r n i changes act = act s := by
  rw [State.gatedLock, s.gated_of_mayWrite n i _ h, hu, Bool.false_and, if_neg (by decide)]

/-- A locked field that a write would change is not changed (R589). -/
theorem State.gatedLock_of_locked {a : Agent} {r : Reg} (n i : Nat) (act : State → State) (h : MayWrite s a r) (hl : ¬Unlocked s a r) :
    s.gatedLock a r n i true act = s.refuseAccess a (r.offset n i) .lock := by
  have hlock : (agentBound a && s.locked r) = true := by simpa using hl
  rw [State.gatedLock, s.gated_of_mayWrite n i _ h, hlock, if_pos (by decide)]

/-- A replay in progress that STOP interrupts (R469). -/
def Replay.interrupted (c : CoreSt) (r : Replay) : Replay :=
  if c.running && r.ord == c.cur && !r.halted then { r with stopped := true } else r

theorem exec_stopSet {a : Agent} (h : MayWrite s a .coreCtl) (hu : Unlocked s a .coreCtl) (hclear : s.flag .coreCtl n 0 0 = false) :
    exec (.stopSet a n) s = .next ((s.raise .coreCtl n 0 0).updCore n fun c =>
      { c with waiting := false, replays := c.replays.map (Replay.interrupted c) }) := by
  show Host.Outcome.next (s.gatedLock a .coreCtl n 0 (!s.flag .coreCtl n 0 0) fun s => s.stopSet n) = _
  rw [s.gatedLock_of_unlocked n 0 _ _ h hu, State.stopSet, hclear, if_neg (by decide)]
  rfl

theorem exec_stopClear {a : Agent} (h : MayWrite s a .coreCtl) (hu : Unlocked s a .coreCtl) (hset : s.flag .coreCtl n 0 0 = true) :
    exec (.stopClear a n) s =
      .next (({ s.setF .coreCtl n 0 0 1 0 with gate := { s.gate with filter := false } } : State).abandon n false) := by
  show Host.Outcome.next (s.gatedLock a .coreCtl n 0 (s.flag .coreCtl n 0 0) fun s => s.stopClear n) = _
  rw [s.gatedLock_of_unlocked n 0 _ _ h hu, State.stopClear, if_pos hset]

theorem exec_resume {a : Agent} (h : MayWrite s a .coreCtl) : exec (.resume a n) s =
    .next (if s.fd .coreStat n 0 0 3 = 3 ∧ s.fd .coreStat n 0 16 5 = 0 then s.abandon n true else s) := by
  show Host.Outcome.next (s.gated a .coreCtl n 0 fun s => s.resume n) = _
  rw [s.gated_of_mayWrite n 0 _ h, State.resume]

/-- A core whose replay is abandoned stands at a program boundary; its HALT ends if the command says so. -/
theorem State.abandon_spec (s : State) (n : Nat) (wake : Bool) :
    let t := s.abandon n wake
    (t.core n).running = false ∧ (t.core n).halted = ((s.core n).halted && !wake) ∧ (t.core n).pc = (s.core n).pc ∧
      (t.core n).replays.length = (s.core n).replays.length ∧
      t.fd .coreStat n 0 0 3 = (if s.flag .coreCtl n 0 0 then 4 else if (s.core n).halted && !wake then 3 else 0) ∧
      StageEffect n [.coreStat, .dmaStat] [] s t := by
  unfold State.abandon
  dsimp only
  generalize (s.fd .coreHalt n 0 16 4, s.fd .coreHalt n 0 32 32) = h
  rw [State.core_updCore, State.fd_state_updCore, stateCode]
  refine ⟨rfl, rfl, rfl, List.length_map _, ?_, stageEffect_updCore rfl (by decide) (by decide)⟩
  have hrest : ((s.core n).disp.isNone || (s.core n).disp.isSome) = true := by cases (s.core n).disp <;> rfl
  simp [hrest]

/-- A refused access of the host or Shingle is counted (R579). -/
theorem State.fd_refuseAccess (s : State) {a : Agent} (off : Nat) (c : Cause) (h : a = .host ∨ a = .shingle) :
    (s.refuseAccess a off c).fd .csrRefcnt 0 0 0 32 = min (s.fd .csrRefcnt 0 0 0 32 + 1) (2 ^ 32 - 1) := by
  have hnote (w : W64) : (if (s.count .csrRefcnt 0 0 0 32 1).flag .csrRefaddr 0 0 63 then s.count .csrRefcnt 0 0 0 32 1
      else (s.count .csrRefcnt 0 0 0 32 1).wr .csrRefaddr 0 0 w).fd .csrRefcnt 0 0 0 32 =
        min (s.fd .csrRefcnt 0 0 0 32 + 1) (2 ^ 32 - 1) := by
    rw [← s.fd_count_same _ _ _ _ _ _ (by decide)]
    split
    · rfl
    · rw [State.fd, State.rd_wr_reg _ _ _ _ _ _ _ _ (by decide), State.fd]
  obtain rfl | rfl := h
  · exact hnote _
  · exact hnote _

/-- Settles O39: setting STOP marks the replay, clearing it and RESUME abandon it, and a lock turns the write away. -/
theorem stopAndResume : Obligations.StopAndResume := by
  unfold Obligations.StopAndResume
  intro s a n hw
  refine ⟨fun hu hclear => ⟨_, exec_stopSet hw hu hclear, ?_⟩, fun hu hset => ⟨_, exec_stopClear hw hu hset, ?_⟩,
    fun hhalt hidle => ⟨_, (exec_resume hw).trans (congrArg _ (if_pos ⟨hhalt, hidle⟩)), ?_⟩,
    fun hnot => (exec_resume hw).trans (congrArg _ (if_neg (not_and_or.2 hnot))), fun ha hl hclear => ?_⟩
  · generalize hv : s.raise .coreCtl n 0 0 = v
    have hflag : v.flag .coreCtl n 0 0 = true := hv ▸ State.flag_raise_same _ _ _ _ _ (by decide)
    have hcore : v.core n = s.core n := by rw [← hv, State.raise, State.setF_eq, State.core_wr]
    have hraise : StageEffect n [.coreCtl, .coreStat, .dmaStat] [] s v := hv ▸ stageEffect_wr (by decide)
    refine ⟨?_, ?_, ?_, ?_, ?_, ?_, (hraise.trans (stageEffect_updCore rfl (by decide) (by decide))).coreOnly⟩
    · rw [State.flag, State.rd_updCore _ _ _ _ _ (by decide)]; exact hflag
    · rw [State.fd_state_updCore, hflag]; rfl
    · rw [State.core_updCore, hcore]
    · rw [State.core_updCore, hcore]
    · rw [State.core_updCore, hcore]
    · rw [State.core_updCore, hcore]
      refine List.map_congr_left fun r _ => ?_
      simp [Replay.interrupted, and_assoc]
  · generalize hv : s.setF .coreCtl n 0 0 1 0 = v
    have hflag : v.flag .coreCtl n 0 0 = false := hv ▸ s.flag_setF_clear _ _ _ _ (by decide)
    have hcore : v.core n = s.core n := by rw [← hv, State.setF_eq, State.core_wr]
    have hset' : StageEffect n [.coreCtl, .coreStat, .dmaStat] [] s v := hv ▸ stageEffect_wr (by decide)
    generalize hg : ({ v with gate := { s.gate with filter := false } } : State) = w
    have hgate : CoreOnly n [.coreCtl, .coreStat, .dmaStat] v w :=
      hg ▸ ⟨fun _ _ _ _ => rfl, fun _ _ => rfl, ⟨fun _ => rfl, fun _ => rfl⟩, rfl, rfl, rfl, rfl, rfl, rfl⟩
    have hcore' : w.core n = v.core n := by rw [← hg]; rfl
    have hflag' : w.flag .coreCtl n 0 0 = false := by rw [← hg]; exact hflag
    have hfilter : w.gate.filter = false := by rw [← hg]
    obtain ⟨hrun, hhalted, hpc, -, hstate, heff⟩ := w.abandon_spec n false
    have hctl := heff.toOpEffect.flag_eq (r := .coreCtl) (by decide) (by decide) n 0 0
    obtain ⟨_, _, _, _, _, hframe⟩ := heff.frame
    refine ⟨hctl.trans hflag', hrun, ?_, ?_, ?_, ?_,
      coreOnly_trans (coreOnly_trans hset'.coreOnly hgate) (heff.weaken (by decide) (List.Subset.refl _)).coreOnly⟩
    · rw [hhalted, hcore', hcore]; simp
    · rw [hpc, hcore', hcore]
    · rw [hstate, hflag', hcore', hcore]; simp
    · rw [hframe]; exact hfilter
  · obtain ⟨hrun, hhalted, -, hlen, hstate, heff⟩ := s.abandon_spec n true
    refine ⟨hrun, hhalted.trans (by simp), fun hclear => ?_, hlen, heff.coreOnly⟩
    rw [hstate, hclear]; simp
  · have hexec : exec (.stopSet a n) s = .next (s.refuseAccess a (Reg.coreCtl.offset n 0) .lock) := by
      show Host.Outcome.next (s.gatedLock a .coreCtl n 0 (!s.flag .coreCtl n 0 0) fun s => s.stopSet n) = _
      rw [hclear, Bool.not_false, s.gatedLock_of_locked n 0 _ hw hl]
    obtain ⟨⟨_, hframe⟩, hregs⟩ := s.refuseAccess_spec a (Reg.coreCtl.offset n 0) .lock
    refine ⟨_, hexec, ?_, s.fd_refuseAccess _ _ ha, ?_, fun r m i hr => ?_⟩
    · rw [State.flag, hregs _ _ _ (by decide) (by decide)]; exact hclear
    · rw [hframe]
    · simp only [List.mem_cons, List.not_mem_nil, or_false, not_or] at hr
      exact hregs r m i hr.1 hr.2

end Sys2Proof.Machine
end

section
/-! SUPPORT. The ring engine (R143, R144, R464 to R467): a record that is taken, its patches, the start of its replay, and a slot
whose phase stays wrong. -/

namespace Sys2Proof.Machine

open Sys2Proof.Claims

variable {s t u : State} {n r : Nat} {rs : List Reg}

/-- Other cores are as they were. -/
theorem sameCores_updCore (s : State) (n : Nat) (f : CoreSt → CoreSt) : SameCores n s (s.updCore n f) := by
  intro m hm
  have hother : (s.modCore n f).core m = s.core m := (s.core_setCore n m (f (s.core n))).trans (if_neg (Ne.symm hm))
  obtain ⟨_, _, _, _, _, _, hsync⟩ := (s.modCore n f).sync_eq n
  simp only [State.updCore, hsync, State.setF_eq, State.core_wr, hother]

/-! ### What the ring engine leaves alone -/

/-- Only registers, cores, rings, the CXL port's table, what the chip has sent and the fault log's bookkeeping change. -/
def RingStep (s t : State) : Prop :=
  ∃ regs cores rings cxl out a b w,
    t = { s with regs := regs, cores := cores, rings := rings, cxl := cxl, outbox := out, fltSince := a, fltHeld := b, fltWait := w }

theorem RingStep.trans (h : RingStep s t) (h' : RingStep t u) : RingStep s u := by
  obtain ⟨_, _, _, _, _, _, _, _, rfl⟩ := h
  obtain ⟨_, _, _, _, _, _, _, _, rfl⟩ := h'
  exact ⟨_, _, _, _, _, _, _, _, rfl⟩

theorem RingStep.sameMem (h : RingStep s t) : SameMem s t := by
  obtain ⟨_, _, _, _, _, _, _, _, rfl⟩ := h
  exact ⟨fun _ => rfl, fun _ => rfl⟩

theorem RingStep.sameUnits (h : RingStep s t) : SameUnits s t := by
  obtain ⟨_, _, _, _, _, _, _, _, rfl⟩ := h
  exact ⟨rfl, rfl, rfl, rfl, rfl, rfl, rfl, rfl⟩

theorem RingStep.ringFrame (h : RingStep s t) (hregs : SameRegs rs s t) : RingFrame rs s t := by
  have hunits := h.sameUnits
  obtain ⟨_, _, _, _, _, _, _, _, rfl⟩ := h
  exact ⟨hregs, hunits, rfl, rfl, rfl, rfl, rfl, rfl, rfl, rfl, rfl⟩

theorem ringStep_updCore (s : State) (n : Nat) (f : CoreSt → CoreSt) : RingStep s (s.updCore n f) := ⟨_, _, _, _, _, _, _, _, rfl⟩

theorem ringStep_of_onlyRegs (h : OnlyRegs s t) : RingStep s t := by
  obtain ⟨_, rfl⟩ := h
  exact ⟨_, _, _, _, _, _, _, _, rfl⟩

/-! ### Accesses -/

/-- What is open to all these reads is open to some of them. -/
theorem memoryOpen_of_reads {reads reads' writes : List Nat} (h : MemoryOpen s reads writes) (hsub : ∀ a ∈ reads', a ∈ reads) :
    MemoryOpen s reads' writes := by
  obtain ⟨hclosed, hscrub, hwrite, hread⟩ := h
  refine ⟨hclosed, fun a ha => hscrub a ?_, hwrite, fun a ha => hread a (hsub a ha)⟩
  obtain hr | hw := List.mem_append.1 ha
  · exact List.mem_append_left _ (hsub a hr)
  · exact List.mem_append_right _ hw

theorem State.accessing_of_open {reads writes : List Nat} {act : State → State} (h : MemoryOpen s reads writes) :
    s.accessing reads writes act = act s := by
  rw [State.accessing, s.heldBack_of_open h]

/-! ### A record is taken -/

/-- The record at HEAD of a ring is taken for its core: it waits there, and HEAD does not move (R143, R466). -/
def State.taking (s : State) (r : Nat) (l : List (List Byte)) : State :=
  (s.setRing r { s.ring r with taken := l.length }).updCore (r / 128) fun c =>
    { c with disp := some (dispatchOf r ((s.ringHead r + l.length) % (s.ring r).size) l), resumed := false }

theorem exec_dispatchRecord {l : List (List Byte)} (hturn : RingTurn s r) (hlook : s.ringLook r = .slots l)
    (hgood : recordBad l = false) (hstep : stepRecOf l = none)
    (hopen : MemoryOpen s ((List.range (r % 128 + 1)).flatMap (fun k => s.ringReads (r / 128 * 128 + k)) ++
      (List.range l.length).map ((s.ring r).slotAddr (s.ringHead r))) []) :
    exec (.dispatchRecord r) s = .next (s.taking r l) := by
  obtain ⟨hstrand, hup, hnone, hhalt, hstop, hact, hpend, hlower⟩ := hturn
  have hready : (s.isStranded || !s.coreUp (r / 128) || (s.core (r / 128)).disp.isSome || (s.core (r / 128)).halted ||
      s.flag .coreCtl (r / 128) 0 0 || s.ringState r != 1) = false := by
    simp [hstrand, State.coreUp, hup, hnone, hhalt, hstop, State.ringState, hact]
  have hnotail : ¬s.ringTail r = s.ringHead r := hpend
  have htake : s.takeRecord r l = s.taking r l := by
    rw [State.takeRecord, hgood, hstep, if_neg (by decide)]
    rfl
  show execDispatchRecord r s = _
  unfold execDispatchRecord
  dsimp only
  rw [hready, if_neg (by decide), if_neg hnotail,
    State.accessing_of_open (memoryOpen_of_reads hopen fun a ha => List.mem_append_left _ ha), if_neg, hlook]
  · dsimp only
    rw [hstep, Option.isSome_none, Bool.false_and, if_neg (by decide),
      State.accessing_of_open (memoryOpen_of_reads hopen fun a ha => List.mem_append_right _ ha), htake]
    rfl
  · rw [Bool.not_eq_true]
    refine List.any_eq_false.2 fun k hk => ?_
    cases hq : s.ringLook (r / 128 * 128 + k) with
    | slots q => exact absurd hq (hlower k q (List.mem_range.1 hk))
    | _ => simp

theorem State.taking_spec (s : State) (r : Nat) (l : List (List Byte)) :
    let t := s.taking r l
    (t.core (r / 128)).disp = some (dispatchOf r ((s.ringHead r + l.length) % (s.ring r).size) l) ∧
      (t.ring r).taken = l.length ∧ SameRegs [.coreStat, .dmaStat] s t ∧ SameCores (r / 128) s t ∧ RingStep s t := by
  unfold State.taking
  dsimp only
  generalize hd : dispatchOf r ((s.ringHead r + l.length) % (s.ring r).size) l = d
  generalize hu : s.setRing r { s.ring r with taken := l.length } = u
  have hring : (u.ring r).taken = l.length := by rw [← hu, State.ring, State.setRing, Sparse.get_set, if_pos rfl]
  have hregs (q : Reg) (m i : Nat) : u.rd q m i = s.rd q m i := by rw [← hu]; rfl
  have hcore (m : Nat) : u.core m = s.core m := by rw [← hu]; rfl
  have hstep : RingStep s u := by rw [← hu]; exact ⟨_, _, _, _, _, _, _, _, rfl⟩
  refine ⟨?_, hring, fun q m i hq => ?_, fun m hm => ?_, hstep.trans (ringStep_updCore _ _ _)⟩
  · rw [State.core_updCore]
  · simp only [List.mem_cons, List.not_mem_nil, or_false, not_or] at hq
    rw [State.rd_updCore _ _ _ _ _ hq, hregs]
  · rw [sameCores_updCore _ _ _ m hm, hcore]

/-- A field that a mask selects whole. -/
theorem State.fd_of_sameBits {q : Reg} {i lo len : Nat} {m : W64} (h : SameBits q n i m s t)
    (hm : ∀ j, j < len → m.getLsbD (lo + j) = true) : t.fd q n i lo len = s.fd q n i lo len := by
  refine Nat.eq_of_testBit_eq fun j => ?_
  rw [State.fd, State.fd, testBit_fld, testBit_fld]
  by_cases hj : j < len
  · have hbit : (t.rd q n i).getLsbD (lo + j) = (s.rd q n i).getLsbD (lo + j) := State.flag_of_sameBits h (hm j hj)
    rw [hbit]
  · simp [hj]

/-- A change of a core's own state does not touch its replay index. -/
theorem State.fd_rplIdx_updCore (s : State) (n : Nat) (f : CoreSt → CoreSt) :
    (s.updCore n f).fd .coreStat n 0 24 8 = s.fd .coreStat n 0 24 8 := by
  have hword : (s.modCore n f).rd .coreStat n 0 = s.rd .coreStat n 0 := State.rd_congr s _ (State.modCore_regs s n f) _ _ _
  have hsync : ((s.modCore n f).sync n).fd .coreStat n 0 24 8 = (s.modCore n f).fd .coreStat n 0 24 8 :=
    State.fd_of_sameBits (sameBits_sync (m := ~~~0x1F0007#64) (by decide)) (by decide)
  rw [State.updCore, hsync, State.fd, hword, State.fd]

/-! ### Patches and the start of the replay -/

theorem State.atBoundary_of (h : AtBoundary s n) : s.atBoundary n = true := by
  obtain ⟨hup, hrun, hhalt, hstop⟩ := h
  simp [State.atBoundary, State.coreUp, hup, hrun, hhalt, hstop]

theorem exec_patchApply {d : Dispatch} {p : Nat × W64} {ps : List (Nat × W64)} (h : AtBoundary s n) (hdisp : (s.core n).disp = some d)
    (hp : d.patches = p :: ps) : exec (.patchApply n) s =
      .next ((s.wr .coreParam n p.1 p.2).updCore n fun c => { c with disp := some { d with patches := ps }, resumed := false }) := by
  show execPatchApply n s = _
  rw [execPatchApply, hdisp]
  dsimp only
  rw [hp]
  dsimp only
  rw [State.atBoundary_of h, if_pos rfl]
  rfl

/-- The replay of a record begins: its index and HEAD move on, and the core runs from the entry point (R143, R144). -/
def State.replaying (s : State) (n cc : Nat) (d : Dispatch) : State :=
  let idx := (s.rplIdx n + 1) % 256
  let u := (s.setF .coreStat n 0 24 8 idx).advanceHead d.ring (s.ring d.ring).taken
  (u.updCore n fun c =>
    { c with running := true, half := u.fd .coreImstat n 0 0 1, pc := d.entry, base := cc, prevData := false, prevCls := 0,
             prevCo := false, prevCc := cc, waiting := false, resumed := false, waitReported := false, hzw := u.flag .coreDbg n 0 0,
             disp := none, cur := c.nextOrd, nextOrd := c.nextOrd + 1,
             replays := c.replays ++ [⟨c.nextOrd, d, idx, false, false, none, false, false⟩] }).trace n .replay 0 0 0 0xFF 0 d.entry

theorem exec_replayStart {cc : Nat} {d : Dispatch} (h : AtBoundary s n) (hdisp : (s.core n).disp = some d) (hp : d.patches = []) :
    exec (.replayStart n cc) s = .next (s.replaying n cc d) := by
  show execReplayStart n cc s = _
  rw [execReplayStart, hdisp]
  dsimp only
  rw [if_pos ⟨State.atBoundary_of h, hp⟩]
  rfl

theorem State.advanceHead_spec (s : State) (r k : Nat) :
    let t := s.advanceHead r k
    t.fd .cxlRingstat 0 r 0 16 = (s.fd .cxlRingstat 0 r 0 16 + k) % 2 ^ (s.ring r).log2 % 2 ^ 16 ∧ SameRegs [.cxlRingstat] s t ∧
      (∀ m, t.core m = s.core m) ∧ RingStep s t := by
  unfold State.advanceHead
  dsimp only
  generalize hu : s.setRing r _ = u
  have hregs (q : Reg) (m i : Nat) : u.rd q m i = s.rd q m i := by rw [← hu]; rfl
  have hcore (m : Nat) : u.core m = s.core m := by rw [← hu]; rfl
  have hstep : RingStep s u := by rw [← hu]; exact ⟨_, _, _, _, _, _, _, _, rfl⟩
  refine ⟨u.fd_setF_same _ _ _ _ _ _ (by decide), fun q m i hq => (sameRegs_wr u _ _ _ _ q m i hq).trans (hregs q m i), fun m => ?_,
    hstep.trans (ringStep_of_onlyRegs (onlyRegs_wr u _ _ _ _))⟩
  rw [State.setF_eq, State.core_wr, hcore]

/-- What the start of a replay leaves. -/
theorem State.replaying_spec (s : State) (n cc : Nat) (d : Dispatch) :
    let t := s.replaying n cc d
    let idx := (s.fd .coreStat n 0 24 8 + 1) % 256
    (∃ x, t.core n = { s.core n with
        running := true, half := s.fd .coreImstat n 0 0 1, pc := d.entry, base := cc, prevData := false, prevCls := 0,
        prevCo := false, prevCc := cc, waiting := false, resumed := false, waitReported := false, hzw := s.flag .coreDbg n 0 0,
        disp := none, cur := (s.core n).nextOrd, nextOrd := (s.core n).nextOrd + 1,
        replays := (s.core n).replays ++ [⟨(s.core n).nextOrd, d, idx, false, false, none, false, false⟩], trcCount := x }) ∧
      t.fd .coreStat n 0 24 8 = idx ∧
      t.fd .cxlRingstat 0 d.ring 0 16 =
        (s.fd .cxlRingstat 0 d.ring 0 16 + (s.ring d.ring).taken) % 2 ^ (s.ring d.ring).log2 % 2 ^ 16 ∧
      SameRegs [.coreStat, .dmaStat, .cxlRingstat, .trcMem, .trcStat] s t ∧ SameCores n s t ∧ RingStep s t := by
  unfold State.replaying
  dsimp only
  rw [State.rplIdx]
  generalize hidx : (s.fd .coreStat n 0 24 8 + 1) % 256 = idx
  generalize hw : s.setF .coreStat n 0 24 8 idx = w
  have hwIdx : w.fd .coreStat n 0 24 8 = idx := by
    rw [← hw, s.fd_setF_same _ _ _ _ _ _ (by decide), ← hidx]
    exact Nat.mod_mod _ _
  have hwRegs : SameRegs [.coreStat] s w := hw ▸ sameRegs_wr s _ _ _ _
  have hwCores (m : Nat) : w.core m = s.core m := by rw [← hw, State.setF_eq, State.core_wr]
  have hwStep : RingStep s w := hw ▸ ringStep_of_onlyRegs (onlyRegs_wr s _ _ _ _)
  have hwRing : w.ring d.ring = s.ring d.ring := by rw [← hw, State.ring, State.setF_rings, State.ring]
  obtain ⟨hhead, hregs, hcores, hstep⟩ := w.advanceHead_spec d.ring (s.ring d.ring).taken
  have hpos : w.fd .cxlRingstat 0 d.ring 0 16 = s.fd .cxlRingstat 0 d.ring 0 16 := by rw [State.fd, hwRegs _ _ _ (by decide), State.fd]
  rw [hwRing, hpos] at hhead
  generalize w.advanceHead d.ring (s.ring d.ring).taken = u at *
  have hboth : SameRegs [.coreStat, .cxlRingstat] s u := sameRegs_trans (sameRegs_mono hwRegs (by simp)) (sameRegs_mono hregs (by simp))
  have hcore (m : Nat) : u.core m = s.core m := (hcores m).trans (hwCores m)
  have himst : u.fd .coreImstat n 0 0 1 = s.fd .coreImstat n 0 0 1 := by rw [State.fd, hboth _ _ _ (by decide), State.fd]
  have hdbg : u.flag .coreDbg n 0 0 = s.flag .coreDbg n 0 0 := by rw [State.flag, hboth _ _ _ (by decide), State.flag]
  rw [himst, hdbg]
  generalize hf : (fun c : CoreSt => ({ c with
    running := true, half := s.fd .coreImstat n 0 0 1, pc := d.entry, base := cc, prevData := false, prevCls := 0,
    prevCo := false, prevCc := cc, waiting := false, resumed := false, waitReported := false, hzw := s.flag .coreDbg n 0 0,
    disp := none, cur := c.nextOrd, nextOrd := c.nextOrd + 1,
    replays := c.replays ++ [⟨c.nextOrd, d, idx, false, false, none, false, false⟩] } : CoreSt)) = f
  have hidx' := u.fd_rplIdx_updCore n f
  have hkept : SameRegs [.coreStat, .dmaStat] u (u.updCore n f) := fun q m i hq => u.rd_updCore n f m i (by simpa using hq)
  have hcores' := sameCores_updCore u n f
  have hstep' := ringStep_updCore u n f
  have hv := u.core_updCore n f
  generalize u.updCore n f = v at *
  have htrace : StageEffect n [.trcMem, .trcStat] [] v (v.trace n .replay 0 0 0 0xFF 0 d.entry) :=
    stageEffect_trace (by decide) (by decide)
  obtain ⟨x, hx⟩ := v.core_trace n .replay 0 0 0 0xFF 0 d.entry
  have htr : SameRegs [.trcMem, .trcStat] v (v.trace n .replay 0 0 0 0xFF 0 d.entry) :=
    fun q m i hq => htrace.regs q m i List.not_mem_nil (.inl hq)
  obtain ⟨_, _, _, _, _, hframe⟩ := htrace.frame
  refine ⟨⟨x, ?_⟩, ?_, ?_, ?_, fun m hm => ?_, ?_⟩
  · rw [hx, hv, hcore, ← hf]
  · rw [State.fd, htr _ _ _ (by decide), ← State.fd, hidx', State.fd, hregs _ _ _ (by decide)]; exact hwIdx
  · rw [State.fd, htr _ _ _ (by decide), hkept _ _ _ (by decide)]; exact hhead
  · exact sameRegs_trans (sameRegs_mono hboth (by simp)) (sameRegs_trans (sameRegs_mono hkept (by simp)) (sameRegs_mono htr (by simp)))
  · rw [htrace.cores m hm, hcores' m hm, hcore]
  · rw [hframe]
    exact ((hwStep.trans hstep).trans hstep').trans ⟨_, _, _, _, _, _, _, _, rfl⟩

/-! ### A wrong phase -/

theorem exec_phaseRetry {waited a : Nat} (hlook : s.ringLook r = .phase a) (hs : s.isStranded = false)
    (hopen : MemoryOpen s (s.ringReads r) []) : exec (.phaseRetry r waited) s =
      .next (if s.fd .cxlRcfg 0 0 0 32 ≠ 0 ∧ s.fd .cxlRcfg 0 0 0 32 ≤ waited then
        ((s.setF .cxlRingstat 0 r 32 2 2).cxlRaise 2).cxlFault 2 r a else s) := by
  show execPhaseRetry r waited s = _
  rw [execPhaseRetry, hs, if_neg (by decide), State.accessing_of_open hopen, hlook]
  rfl

/-- A ring whose slot keeps a wrong phase is ERR, flagged and recorded (R464). -/
theorem ringError_spec (s : State) (r a : Nat) :
    let t := ((s.setF .cxlRingstat 0 r 32 2 2).cxlRaise 2).cxlFault 2 r a
    t.fd .cxlRingstat 0 r 32 2 = 2 ∧ t.flag .cxlStat 0 0 2 = true ∧ Recorded s t ∧ t.cores = s.cores ∧
      SameRegs (.cxlRingstat :: .cxlStat :: logRegs) s t ∧ RingStep s t := by
  dsimp only
  generalize hu : s.setF .cxlRingstat 0 r 32 2 2 = u
  have herr : u.fd .cxlRingstat 0 r 32 2 = 2 := hu ▸ s.fd_setF_same _ _ _ _ _ _ (by decide)
  have hregs : SameRegs [.cxlRingstat] s u := hu ▸ sameRegs_wr s _ _ _ _
  obtain ⟨_, hframe⟩ : OnlyRegs s u := hu ▸ onlyRegs_wr s _ _ _ _
  obtain ⟨hflag, hregs', _, _, _, hframe'⟩ := u.cxlRaise_spec 2 (by decide)
  generalize u.cxlRaise 2 = v at *
  rw [State.cxlFault]
  generalize ({ cls := 7, evt := 2, src := hostAgt, status := 0, detail := r % 2 ^ 16 + a % 2 ^ 48 * 2 ^ 16 } : FaultRec) = f
  have hlog := sameRegs_fault v f
  have hrec := recorded_fault v f
  obtain ⟨⟨_, _, _, _, hfault⟩, -⟩ := v.fault_spec f
  have hboth : SameRegs [.cxlRingstat, .cxlStat] s v := sameRegs_trans (sameRegs_mono hregs (by simp)) (sameRegs_mono hregs' (by simp))
  have hseq : v.fd .fltSeq 0 0 0 32 = s.fd .fltSeq 0 0 0 32 := by rw [State.fd, hboth _ _ _ (by decide), State.fd]
  refine ⟨?_, ?_, ?_, ?_, sameRegs_trans (sameRegs_mono hboth (by simp)) (sameRegs_mono hlog (by simp)), ?_⟩
  · rw [State.fd, hlog _ _ _ (by decide), hregs' _ _ _ (by decide)]; exact herr
  · rw [State.flag, hlog _ _ _ (by decide)]; exact hflag
  · rwa [Recorded, hseq] at hrec
  · rw [hfault, hframe', hframe]
  · rw [hfault, hframe', hframe]; exact ⟨_, _, _, _, _, _, _, _, rfl⟩

/-- Settles O32: the record waits at its core, its patches are applied one by one, its replay starts; a wrong phase ends the ring. -/
theorem ringEngineRunsRecords : Obligations.RingEngineRunsRecords := by
  unfold Obligations.RingEngineRunsRecords
  refine ⟨fun s r l hturn hlook hgood hstep hopen _ => ?_, fun s n d p ps hb hdisp hp => ?_, fun s n cc d hb hdisp hp => ?_,
    fun s r waited a hlook hs hopen => ⟨fun hlim hover => ?_, fun hearly => ?_⟩⟩
  · obtain ⟨hdisp, htaken, hregs, hcores, hstep'⟩ := s.taking_spec r l
    refine ⟨_, exec_dispatchRecord hturn hlook hgood hstep hopen, hdisp, htaken, ?_, hstep'.sameMem, hcores, hstep'.ringFrame hregs⟩
    rw [State.ringHead, State.fd, hregs _ _ _ (by decide), State.ringHead, State.fd]
  · have hwr : StageEffect n [.coreParam, .coreStat, .dmaStat] [] s (s.wr .coreParam n p.1 p.2) := stageEffect_wr (by decide)
    have hword (i : Nat) := ((s.wr .coreParam n p.1 p.2).rd_updCore n
      (fun c => { c with disp := some { d with patches := ps }, resumed := false }) (r := .coreParam) n i (by decide))
    have heff := hwr.trans (stageEffect_updCore (f := fun c => { c with disp := some { d with patches := ps }, resumed := false })
      rfl (by decide) (by decide))
    refine ⟨_, exec_patchApply hb hdisp hp, ⟨?_, fun j hj => ?_⟩, ?_, heff.sameCoreRegs, heff.cores, heff.toOpEffect.sameMem,
      heff.toOpEffect.sameUnits heff.acc_eq.1 heff.acc_eq.2, heff.toOpEffect.sameOutside⟩
    · rw [hword, State.rd_wr]
    · rw [hword, State.rd_wr_ne _ _ _ _ _ _ _ _ fun e => hj e.2.2.symm]
    · rw [State.core_updCore]
  · obtain ⟨⟨x, hcore⟩, hidx, hhead, hregs, hcores, hstep⟩ := s.replaying_spec n cc d
    refine ⟨_, exec_replayStart hb hdisp hp, ?_, ?_, ?_, ?_, ?_, hidx, ?_, ?_, hhead, hstep.sameMem, hstep.sameUnits, hcores, hregs⟩ <;>
      rw [hcore]
    exact ⟨_, rfl, rfl, rfl⟩
  · obtain ⟨herr, hflag, hrec, hcores, hregs, hstep⟩ := ringError_spec s r a
    exact ⟨_, (exec_phaseRetry hlook hs hopen).trans (congrArg _ (if_pos ⟨hlim, hover⟩)), herr, hflag, hrec, hstep.sameMem, hcores,
      hstep.ringFrame hregs⟩
  · exact (exec_phaseRetry hlook hs hopen).trans (congrArg _ (if_neg fun h => absurd h.2 (Nat.not_le.2 hearly)))

end Sys2Proof.Machine
end

section
/-! SUPPORT. Transfers of the fabric unit (R216, R217, R337 to R341, R350): the packets of a stream, what an injected packet leaves
alone, and how PUT, GET and RSIG start. -/

namespace Sys2Proof.Machine

open Sys2Proof.Claims

variable {s t u v : State} {n : Nat} {w : W64}

/-! ### The packets of a stream (R337, R338) -/

/-- Consecutive addresses are one run. -/
theorem runsOf_consecutive (a k : Nat) : runsOf ((List.range (k + 1)).map (a + ·)) = [(a, k + 1)] := by
  induction k generalizing a with
  | zero => rfl
  | succ k ih =>
    have hshift : (List.range (k + 1 + 1)).map (a + ·) = a :: (List.range (k + 1)).map (a + 1 + ·) := by
      rw [List.range_succ_eq_map, List.map_cons, List.map_map]
      exact congrArg (a :: ·) (List.map_congr_left fun i _ => by simp only [Function.comp_apply]; omega)
    rw [hshift, runsOf, ih]
    simp

/-- Pieces between 4 KiB boundaries are no longer than 4 KiB. -/
theorem length_le_of_mem_cut4k {k a len : Nat} {p : Nat × Nat} (h : p ∈ cut4k k a len) : p.2 ≤ 4096 := by
  induction k generalizing a len with
  | zero => simp [cut4k] at h
  | succ k ih =>
    rw [cut4k] at h
    split at h
    · simp at h
    · obtain rfl | h := List.mem_cons.1 h
      · simp only
        omega
      · exact ih h

/-- The pieces hold the whole range, where their number allows it. -/
theorem sum_cut4k {k a len : Nat} (h : len = 0 ∨ a % 4096 + len ≤ 4096 * k) : ((cut4k k a len).map Prod.snd).sum = len := by
  induction k generalizing a len with
  | zero => simp only [cut4k, List.map_nil, List.sum_nil]; omega
  | succ k ih =>
    rw [cut4k]
    split
    · simp_all
    · have hrest : len - min len (4096 - a % 4096) = 0 ∨
          (a + min len (4096 - a % 4096)) % 4096 + (len - min len (4096 - a % 4096)) ≤ 4096 * k := by
        obtain hin | hout := Nat.le_total len (4096 - a % 4096)
        · exact .inl (by omega)
        · right
          rw [Nat.min_eq_right hout]
          omega
      rw [List.map_cons, List.sum_cons, ih hrest]
      omega

/-- A packet of a stream: the template's, with its own address, bytes and LAST. -/
def Carries (t k : Packet) : Prop :=
  ∃ a l d, k = { t with addr := a, plen := d.length, last := l, data := d } ∧ d.length ≤ 4096

/-- One packet after another takes its bytes from the stream's rest. -/
theorem carries_foldl (t : Packet) (ps : List (Nat × Nat)) (acc : List Packet) (bs : List (Nat × Byte))
    (hlen : ∀ p ∈ ps, p.2 ≤ 4096) (hsum : (ps.map Prod.snd).sum = bs.length) :
    let r := ps.foldl (fun (r : List Packet × List (Nat × Byte)) p =>
      (r.1 ++ [{ t with addr := p.1, plen := p.2, last := false, data := (r.2.take p.2).map Prod.snd }], r.2.drop p.2)) (acc, bs)
    r.1.flatMap (·.data) = acc.flatMap (·.data) ++ bs.map Prod.snd ∧ ∀ k ∈ r.1, k ∈ acc ∨ Carries t k := by
  induction ps generalizing acc bs with
  | nil =>
    obtain rfl := List.length_eq_zero_iff.1 hsum.symm
    exact ⟨by simp, fun k hk => .inl hk⟩
  | cons p ps ih =>
    rw [List.map_cons, List.sum_cons] at hsum
    obtain ⟨hdata, hmem⟩ := ih (acc ++ [{ t with addr := p.1, plen := p.2, last := false, data := (bs.take p.2).map Prod.snd }])
      (bs.drop p.2) (fun q hq => hlen q (List.mem_cons_of_mem _ hq)) (by rw [List.length_drop]; omega)
    refine ⟨hdata.trans ?_, fun k hk => ?_⟩
    · rw [List.flatMap_append, List.append_assoc]
      simp
    · obtain hacc | hc := hmem k hk
      · obtain h | h := List.mem_append.1 hacc
        · exact .inl h
        · have htake : ((bs.take p.2).map Prod.snd).length = p.2 := by
            rw [List.length_map, List.length_take, Nat.min_eq_left (by omega)]
          exact .inr ⟨p.1, false, (bs.take p.2).map Prod.snd, by rw [List.mem_singleton.1 h, htake],
            htake.le.trans (hlen p List.mem_cons_self)⟩
      · exact .inr hc

/-- The packets of a stream that rises from an address carry its bytes in order, at most 4 KiB each (R337, R338). -/
theorem dataPackets_spec (t : Packet) (a k : Nat) (g : Nat → Byte) (hk : k ≠ 0) :
    let ps := dataPackets t ((List.range k).map fun p => (a + p, g p))
    ps.flatMap (·.data) = (List.range k).map g ∧ ∀ q ∈ ps, Carries t q := by
  obtain ⟨m, rfl⟩ := Nat.exists_eq_succ_of_ne_zero hk
  have hruns : runsOf (((List.range (m + 1)).map fun p => (a + p, g p)).map Prod.fst) = [(a, m + 1)] := by
    rw [List.map_map]
    exact runsOf_consecutive a m
  unfold dataPackets
  rw [hruns, List.flatMap_singleton]
  dsimp only
  obtain ⟨hdata, hmem⟩ := carries_foldl t (cut4k ((m + 1) / 4096 + 2) a (m + 1)) [] ((List.range (m + 1)).map fun p => (a + p, g p))
    (fun p hp => length_le_of_mem_cut4k hp) (by rw [sum_cut4k (by omega)]; simp)
  generalize List.foldl _ _ _ = r at *
  refine ⟨?_, fun q hq => ?_⟩
  · rw [List.flatMap_map, ← List.flatMap_map (f := Prod.fst) (g := fun q : Packet => q.data), List.zipIdx_map_fst, hdata]
    simp
  · obtain ⟨e, he, rfl⟩ := List.mem_map.1 hq
    obtain hnil | ⟨b, l, d, hd, hlen⟩ := hmem e.1 (List.fst_mem_of_mem_zipIdx he)
    · exact absurd hnil List.not_mem_nil
    · exact ⟨b, _, d, by rw [hd], hlen⟩

/-! ### What an injected packet leaves alone -/

/-- A packet enters the fabric: ports, what the chip has received and sent, drop counts, the state of a port whose keys are spent
and the fault log change, and nothing else. -/
structure Injects (s t : State) : Prop where
  regs : SameRegs ([.lnkDrop, .lnkStat] ++ logRegs) s t
  link : ∀ p, SameBits .lnkStat p 0 (~~~7#64) s t
  frame : ∃ regs fc ports out inb a b w,
    t = { s with regs := regs, freeCtr := fc, ports := ports, outbox := out, inbox := inb, fltSince := a, fltHeld := b, fltWait := w }

theorem Injects.refl (s : State) : Injects s s := ⟨fun _ _ _ _ => rfl, fun _ => rfl, _, _, _, _, _, _, _, _, rfl⟩

theorem Injects.trans (h : Injects s t) (h' : Injects t u) : Injects s u where
  regs := sameRegs_trans h.regs h'.regs
  link p := sameBits_trans (h.link p) (h'.link p)
  frame := by
    obtain ⟨_, _, _, _, _, _, _, _, rfl⟩ := h.frame
    obtain ⟨_, _, _, _, _, _, _, _, rfl⟩ := h'.frame
    exact ⟨_, _, _, _, _, _, _, _, rfl⟩

theorem Injects.ite (p : Prop) [Decidable p] (h : Injects s t) (h' : Injects s u) : Injects s (if p then t else u) := by
  split
  · exact h
  · exact h'

/-- One change after another. -/
theorem injects_foldl {α : Type} {f : State → α → State} (h : ∀ s a, Injects s (f s a)) (l : List α) (s : State) :
    Injects s (l.foldl f s) := by
  induction l generalizing s with
  | nil => exact .refl s
  | cons a l ih => exact (h s a).trans (ih _)

theorem injects_modPort (s : State) (p : Nat) (f : PortSt → PortSt) : Injects s (s.modPort p f) :=
  ⟨fun _ _ _ _ => rfl, fun _ => rfl, _, _, _, _, _, _, _, _, rfl⟩

theorem injects_sendFlit (s : State) (p : Nat) (bs : List Byte) : Injects s (s.sendFlit p bs) :=
  ⟨fun _ _ _ _ => rfl, fun _ => rfl, _, _, _, _, _, _, _, _, rfl⟩

theorem injects_deliver (s : State) (k : Packet) : Injects s (s.deliver k) :=
  ⟨fun _ _ _ _ => rfl, fun _ => rfl, _, _, _, _, _, _, _, _, rfl⟩

theorem injects_free (s : State) : Injects s s.free.2 := ⟨fun _ _ _ _ => rfl, fun _ => rfl, _, _, _, _, _, _, _, _, rfl⟩

/-- A port that goes to KEYX keeps the other fields of its status (R369). -/
theorem injects_keyx (s : State) (p : Nat) : Injects s (s.setF .lnkStat p 0 0 3 3) where
  regs := sameRegs_mono (sameRegs_wr s _ _ _ _) (by simp)
  link _ := sameBits_setF_of fun _ => by decide
  frame := by
    obtain ⟨_, h⟩ := onlyRegs_wr s .lnkStat p 0 (setFld (s.rd .lnkStat p 0) 0 3 3)
    exact ⟨_, _, _, _, _, _, _, _, h⟩

theorem injects_fault (s : State) (f : FaultRec) : Injects s (s.fault f) where
  regs := sameRegs_mono (sameRegs_fault s f) (by simp)
  link p := by rw [SameBits, sameRegs_fault s f _ _ _ (by decide)]
  frame := by
    obtain ⟨⟨_, _, _, _, h⟩, -⟩ := s.fault_spec f
    exact ⟨_, _, _, _, _, _, _, _, h⟩

theorem injects_dropPacket (s : State) (p : Nat) (k : Packet) : Injects s (s.dropPacket p k) := by
  have hcount : Injects s (s.count .lnkDrop p 0 0 32 1) := by
    refine ⟨sameRegs_mono (sameRegs_wr s _ _ _ _) (by simp), fun q => ?_, ?_⟩
    · rw [SameBits, State.rd_count_reg _ _ _ _ _ _ _ _ _ _ (by decide)]
    · obtain ⟨_, h⟩ := onlyRegs_wr s .lnkDrop p 0
        (setFld (s.rd .lnkDrop p 0) 0 32 (min (s.fd .lnkDrop p 0 0 32 + 1) (2 ^ 32 - 1)))
      exact ⟨_, _, _, _, _, _, _, _, h⟩
  exact hcount.trans (injects_fault _ _)

theorem injects_pump (s : State) (p : Nat) : Injects s (s.pump p) := by
  unfold State.pump
  refine .ite _ (.refl s) ?_
  dsimp only
  have hsent := (injects_modPort s p fun _ => ((s.port p).pump (max 1 (s.fd .lnkCfg p 0 8 4)) (s.port p).wait.length).1).trans
    (injects_foldl (fun s f => injects_sendFlit s p (TFlit.wire f))
      ((s.port p).pump (max 1 (s.fd .lnkCfg p 0 8 4)) (s.port p).wait.length).2 _)
  exact .ite _ (hsent.trans (injects_keyx _ p)) hsent

theorem injects_sendPacket (s : State) (p vc : Nat) (k : Packet) : Injects s (s.sendPacket p vc k) :=
  (injects_modPort s p _).trans (injects_pump _ p)

theorem injects_sendHop (s : State) (k : Packet) (g : Seg) : Injects s (s.sendHop k g) := by
  refine (injects_free s).trans ?_
  unfold State.sendHop
  generalize s.free = r
  obtain ⟨w, u⟩ := r
  exact .ite _ (injects_sendPacket _ _ _ _) (.ite _ (injects_sendPacket _ _ _ _) (injects_dropPacket _ _ _))

theorem injects_inject (s : State) (k : Packet) : Injects s (s.inject k) :=
  .ite _ (.refl s) (.ite _ (injects_deliver s _) (injects_sendHop s _ _))

/-- A transfer that opens is the last of the chip's, and its packets enter the fabric. -/
theorem openSource_spec (s : State) (x : Source) : Injects { s with sources := s.sources ++ [x] } (s.openSource x) :=
  injects_foldl injects_inject _ _

/-! ### The start of an operation of the fabric unit -/

theorem StageEffect.routeFor_eq (h : StageEffect n opRegs logRegs s t) (w : W64) (kind addr : Nat) :
    t.routeFor w kind addr = s.routeFor w kind addr := by
  have htable (i : Nat) : t.rd .rteTable 0 i = s.rd .rteTable 0 i := h.regs _ _ _ (by decide) (.inl (by decide))
  have hring : t.rd .rteRing 0 0 = s.rd .rteRing 0 0 := h.regs _ _ _ (by decide) (.inl (by decide))
  have hdom : t.rd .rteDomain 0 0 = s.rd .rteDomain 0 0 := h.regs _ _ _ (by decide) (.inl (by decide))
  have hresolve : t.resolve w = s.resolve w := by
    unfold State.resolve
    simp only [htable]
  have hlegal (r : W64) : t.legal r kind addr false = s.legal r kind addr false := by
    unfold State.legal State.ringLen State.domain State.fd
    simp only [hring, hdom]
  simp only [State.routeFor, hresolve, hlegal]

theorem StageEffect.genNow_eq (h : StageEffect n opRegs logRegs s t) : t.genNow = s.fd .rteGen 0 0 0 2 := by
  rw [State.genNow, State.fd, h.regs _ _ _ (by decide) (.inl (by decide)), State.fd]

theorem StageEffect.domain_eq (h : StageEffect n opRegs logRegs s t) : t.domain = s.domain := by
  rw [State.domain, State.fd, h.regs _ _ _ (by decide) (.inl (by decide)), State.domain, State.fd]

/-- The next number of a transfer stays until one takes it. -/
theorem nextXid_opening (s : State) (n : Nat) (f : Flight) : ((s.opening n f).core n).nextXid = (s.core n).nextXid := by
  unfold State.opening
  split
  · rfl
  · obtain ⟨x, hx⟩ := s.core_trace n .start f.opcode f.ecls 0 0xFF f.tag 0
    rw [hx]

theorem State.updCore_eq (s : State) (n : Nat) (f : CoreSt → CoreSt) :
    ∃ regs cores, s.updCore n f = { s with regs := regs, cores := cores } := ⟨_, _, rfl⟩

/-- What has been done when an operation has opened its transfer and is marked as started. -/
theorem fabricFrame_of {x : Source} {f : CoreSt → CoreSt} (hu : StageEffect n opRegs logRegs s u)
    (hin : Injects { u with sources := u.sources ++ [x] } v) :
    (v.updCore n f).sources = s.sources ++ [x] ∧ FabricFrame n [] s (v.updCore n f) := by
  have hregs : SameRegs ([.lnkDrop, .lnkStat] ++ logRegs) u v := hin.regs
  have hlink (p : Nat) : SameBits .lnkStat p 0 (~~~7#64) u v := hin.link p
  have hcores := sameCores_updCore v n f
  have hreg (r : Reg) (m i : Nat) (hr : r ∉ [.coreStat, .dmaStat]) := v.rd_updCore n f (r := r) m i (by simpa using hr)
  obtain ⟨_, _, ht⟩ := v.updCore_eq n f
  generalize v.updCore n f = t at *
  obtain ⟨_, _, _, _, _, hu'⟩ := hu.frame
  obtain ⟨_, _, _, _, _, _, _, _, hv⟩ := hin.frame
  have hcore (m : Nat) : v.core m = u.core m := by rw [hv]; rfl
  refine ⟨by rw [ht, hv, hu'], fun r m i hr => ?_, fun p => ?_, ?_, ?_, ?_, ?_, fun m hm => ?_, ?_⟩
  · simp only [List.nil_append, List.mem_append, not_or] at hr
    obtain ⟨hops, hlog⟩ := hr
    have hlnk : r ∉ [Reg.lnkDrop, .lnkStat] := fun h => hops (by simp only [List.mem_cons, List.not_mem_nil, or_false] at h ⊢; tauto)
    have hop : r ∉ opRegs := fun h => hops (by simp only [opRegs, List.mem_cons, List.not_mem_nil, or_false] at h ⊢; tauto)
    have hst : r ∉ [Reg.coreStat, .dmaStat] := fun h => hops (by simp only [List.mem_cons, List.not_mem_nil, or_false] at h ⊢; tauto)
    rw [hreg r m i hst, hregs r m i (by simp only [List.mem_append, not_or]; exact ⟨hlnk, hlog⟩), hu.regs r m i hlog (.inl hop)]
  · have hs : u.rd .lnkStat p 0 = s.rd .lnkStat p 0 := hu.regs _ _ _ (by decide) (.inl (by decide))
    have ht' : t.rd .lnkStat p 0 = v.rd .lnkStat p 0 := hreg _ _ _ (by decide)
    rw [SameBits, ht', ← hs]
    exact hlink p
  · rw [ht, hv, hu']; exact ⟨fun _ => rfl, fun _ => rfl⟩
  · rw [ht, hv, hu']
  · rw [ht, hv, hu']
  · rw [ht, hv, hu']; exact ⟨rfl, rfl, rfl, rfl, rfl, rfl, rfl, rfl⟩
  · rw [hcores m hm, hcore, hu.cores m hm]
  · rw [ht, hv, hu']; exact ⟨rfl, rfl, rfl, rfl, rfl, rfl, rfl, rfl, rfl⟩

/-- An operation whose body opens one transfer has started, and the transfer is the last of the chip's. -/
theorem fabStart_opens {op : Nat} {f : Flight} {body : State → Flight → State × Option OpRes} {x : Source}
    {o : State} (h : StartsNext s n 8 op f) (ho : s.opening n f = o) (hbody : body o f = (u.openSource x, none))
    (hu : StageEffect n opRegs logRegs s u)
    (hcore : x.core = n) (hfid : x.fid = f.fid) :
    let t := fabStart s n op {} body
    Started n s t ∧ t.sources = s.sources ++ [x] ∧ FabricFrame n [] s t := by
  have hin := openSource_spec u x
  dsimp only
  generalize u.openSource x = v at *
  obtain ⟨_, _, _, _, _, hu'⟩ := hu.frame
  obtain ⟨_, _, _, _, _, _, _, _, hv⟩ := hin.frame
  have hown : (v.sources.any fun y => y.core == n && y.fid == f.fid) = true := by
    have hsrc : v.sources = s.sources ++ [x] := by rw [hv, hu']
    rw [hsrc, List.any_append]
    simp [hcore, hfid]
  have hrun : fabStart s n op {} body = v.updFlight n 8 .queued fun g => { g with phase := .started, begun := true, seen := {} } := by
    rw [fabStart, if_neg (by simp), startOp, beginOp_of_startsNext h, ho, hbody]
    dsimp only
    rw [if_pos hown]
  have hcoreV : v.core n = u.core n := by rw [hv]; rfl
  rw [hrun]
  refine ⟨?_, fabricFrame_of hu hin⟩
  rw [Started, flights_updFlight, hcoreV, hu.flights]

/-- An operation of the fabric unit reads ahead as those of the data engines do (R171). -/
theorem readsAhead_of_peekOp {e op : Nat} {c : Nat → Early → Instr}
    (h : ∀ s n early, early ≠ {} → exec (c n early) s = .next (peekOp s n e op early)) : ReadsAhead c e op := by
  intro s n f early hstart hne
  have hopen : StageEffect n opRegs logRegs s (s.opening n f) := stageEffect_opening (by decide) (by decide)
  have hrun : peekOp s n e op early = (s.opening n f).updFlight n e .queued fun g =>
      { g with begun := true, seen := s.readAhead n early f.seen } := by
    rw [peekOp, beginOp_of_startsNext hstart, hopen.readAhead_eq (by decide) (by decide)]
  have heff : OpEffect n opRegs logRegs s (peekOp s n e op early) :=
    hrun ▸ hopen.toOpEffect.trans (opEffect_updFlight (by decide) (by decide))
  obtain ⟨hacc, hbad⟩ := hopen.acc_eq
  refine ⟨_, h s n early hne, ?_, heff.sameMem, heff.sameUnits ?_ ?_, heff.sameOutside, heff.opFrame (rs := [])⟩ <;> rw [hrun]
  · rw [flights_updFlight, hopen.flights]
  · exact hacc
  · exact hbad

/-! ### PUT, GET and RSIG -/

theorem badFabCtl_of_ctlGood {c : W64} (h : CtlGood c) : badFabCtl c = false := by
  rw [badFabCtl, h]
  rfl

theorem Fmt.width_pos (f : Fmt) : 0 < f.width := by
  cases f with
  | int8 sgn | int4 sgn => cases sgn <;> decide
  | _ => decide

/-- An admitted descriptor names at least one byte. -/
theorem streamSize_ne_zero {d : TDesc} {use : TDesc.Use} (h : d.check use = 0) : d.streamSize ≠ 0 := by
  have hext : d.ext.1 ≠ 0 := by
    intro h0
    rw [TDesc.check, if_pos (.inl h0)] at h
    cases h
  have hrow : 0 < d.rowBytes := by
    have := Nat.mul_pos d.fmt.width_pos (Nat.pos_of_ne_zero hext)
    rw [TDesc.rowBytes, TDesc.w, cdiv]
    omega
  have hsize : 0 < d.size := by rw [TDesc.size]; omega
  rw [TDesc.streamSize, up64, cdiv]
  split <;> omega

/-- A core whose transfer takes its number. -/
def State.numbered (s : State) (n : Nat) : State := s.modCore n fun c => { c with nextXid := ((s.core n).nextXid + 1) % 2 ^ 16 }

theorem stageEffect_numbered {rs ls : List Reg} : StageEffect n rs ls s (s.numbered n) := stageEffect_modCore rfl

/-- The transfer that RSIG opens. -/
def signalSource (s : State) (n : Nat) (f : Flight) (w : W64) : Source :=
  { core := n, xid := (s.core n).nextXid, fid := f.fid,
    sent := [withMark (s.blank n 4 (s.core n).nextXid 0 0 w) (vAt f.slots 3)], data := false, want := wantedBy w, got := 0,
    base := 0, dst := [], gen := s.genNow, busy := [] }

theorem rsigBody_of_route {f : Flight} (hctl : CtlGood (vAt f.slots 3)) (hroute : s.routeFor (vAt f.slots 2) 4 0 = some w) :
    rsigBody n s f = ((s.numbered n).openSource (signalSource s n f w), none) := by
  unfold rsigBody
  dsimp only
  rw [badFabCtl_of_ctlGood hctl, if_neg (by decide), hroute]
  rfl

/-- The transfer that GET opens. -/
def askSource (s : State) (n : Nat) (f : Flight) (w : W64) : Source :=
  let d := (dAt f.slots 0).t
  let far := fld (vAt f.slots 1) 0 44
  { core := n, xid := (s.core n).nextXid, fid := f.fid, sent := [s.blank n 1 (s.core n).nextXid far d.streamSize w], data := true,
    want := d.streamSize, got := 0, base := far,
    dst := (List.range d.streamSize).map fun p => if d.positions.contains p then some (d.addr n p) else none,
    gen := s.genNow, busy := [] }

theorem getBody_of_route {f : Flight} (hctl : CtlGood (vAt f.slots 3)) (hmark : (vAt f.slots 3).getLsbD 6 = false)
    (hcheck : (dAt f.slots 0).t.check ⟨[0], true⟩ = 0)
    (hroute : s.routeFor (vAt f.slots 2) 1 (fld (vAt f.slots 1) 0 44) = some w) :
    getBody n s f = ((s.numbered n).openSource (askSource s n f w), none) := by
  unfold getBody
  dsimp only
  rw [badFabCtl_of_ctlGood hctl, bit, hmark, Bool.false_or, if_neg (by decide), if_neg (not_not.2 hcheck), hroute]
  dsimp only
  unfold State.askTransfer askSource
  simp only [List.length_map, List.length_range]
  rfl

/-- The transfer that PUT opens with these bytes. -/
def putSource (s : State) (n : Nat) (f : Flight) (w : W64) (g : Nat → Byte) : Source :=
  let len := (dAt f.slots 0).t.streamSize
  let far := fld (vAt f.slots 1) 0 44
  { core := n, xid := (s.core n).nextXid, fid := f.fid,
    sent := dataPackets (withMark (s.blank n 0 (s.core n).nextXid far len w) (vAt f.slots 3)) ((List.range len).map fun p => (far + p, g p)),
    data := false, want := wantedBy w, got := 0, base := 0, dst := [], gen := s.genNow, busy := [] }

theorem putBody_of_route {waits : Nat} {f : Flight} (hctl : CtlGood (vAt f.slots 3))
    (hcheck : (dAt f.slots 0).t.check ⟨[0], false⟩ = 0)
    (hroute : s.routeFor (vAt f.slots 2) 0 (fld (vAt f.slots 1) 0 44) = some w)
    (hgood : ∀ p, p < (dAt f.slots 0).t.streamSize → (s.seeing f.seen).cellStatus ((dAt f.slots 0).t.addr n p) = 0) :
    putBody n waits s f = ((((s.waited n 8 waits).numbered n).perf n 10 ((dAt f.slots 0).t.streamSize / 64)).openSource
      (putSource (s.waited n 8 waits) n f w fun p => (s.seeing f.seen).byte ((dAt f.slots 0).t.addr n p)), none) := by
  have hfails : (s.seeing f.seen).failsAt ((List.range (dAt f.slots 0).t.streamSize).map ((dAt f.slots 0).t.addr n)) = [] :=
    State.failsAt_of_cellStatus fun a ha => by
      obtain ⟨p, hp, rfl⟩ := List.mem_map.1 ha
      exact hgood p (List.mem_range.1 hp)
  have hfst (dst : Nat) : ((List.range (dAt f.slots 0).t.streamSize).map fun p => ((dAt f.slots 0).t.addr n p, dst + p)).map Prod.fst =
      (List.range (dAt f.slots 0).t.streamSize).map ((dAt f.slots 0).t.addr n) := by rw [List.map_map]; rfl
  have hgen : (((s.waited n 8 waits).numbered n).perf n 10 ((dAt f.slots 0).t.streamSize / 64)).genNow =
      (s.waited n 8 waits).genNow :=
    (StageEffect.genNow_eq (n := n) (stageEffect_numbered.trans (stageEffect_perf (by decide)))).trans rfl
  unfold putBody
  dsimp only
  rw [badFabCtl_of_ctlGood hctl, if_neg (by decide), if_neg (not_not.2 hcheck), hroute]
  dsimp only
  rw [hfst, hfails]
  generalize s.waited n 8 waits = u at *
  have hall : ∀ p ∈ (List.range (dAt f.slots 0).t.streamSize).map fun p => ((dAt f.slots 0).t.addr n p, fld (vAt f.slots 1) 0 44 + p),
      (!badAt [] p.1) = true := fun _ _ => rfl
  rw [List.filter_eq_self.2 hall, List.map_map]
  have hne : (((List.range (dAt f.slots 0).t.streamSize).map
      ((fun p : Nat × Nat => (p.2, (s.seeing f.seen).byte p.1)) ∘
        fun p => ((dAt f.slots 0).t.addr n p, fld (vAt f.slots 1) 0 44 + p))).isEmpty) = false := by
    rw [List.isEmpty_eq_false_iff, ne_eq, List.map_eq_nil_iff, List.range_eq_nil]
    exact streamSize_ne_zero hcheck
  rw [hne, if_neg (by decide)]
  unfold putSource
  simp only [List.length_map, List.length_range, Function.comp_def]
  rw [← hgen]
  rfl

/-- Settles O26: each opens one transfer, whose packets enter the fabric; PUT's are the source stream's bytes cut at 4 KiB. -/
theorem fabricTransfersStart : Obligations.FabricTransfersStart := by
  unfold Obligations.FabricTransfersStart
  refine ⟨fun waits => readsAhead_of_peekOp fun s n early hne => congrArg Host.Outcome.next (if_pos hne), fun s n waits f w => ?_⟩
  have hfar : fld (vAt f.slots 1) 0 44 = (vAt f.slots 1).toNat % 2 ^ 44 := by simp [fld]
  have hopen : StageEffect n opRegs logRegs s (s.opening n f) := stageEffect_opening (by decide) (by decide)
  have hxid := nextXid_opening s n f
  dsimp only
  rw [← hfar]
  generalize hu : s.opening n f = u at *
  refine fun hctl => ⟨fun h hcheck hroute hgood => ?_, fun h hmark hcheck hroute => ?_, fun h hroute => ?_⟩
  · have hseen (a : Nat) := hopen.cellStatus_seeing (by decide) (by decide) f.seen a
    have hbyte (a : Nat) : (u.seeing f.seen).byte a = (s.seeing f.seen).byte a := by
      obtain ⟨_, _, _, _, _, hf⟩ := hopen.frame
      rw [hf]
      rfl
    have hbody := putBody_of_route (n := n) (waits := waits) hctl hcheck ((hopen.routeFor_eq _ _ _).trans hroute)
      fun p hp => (hseen _).trans (hgood p hp)
    have hwait : StageEffect n opRegs logRegs s (u.waited n 8 waits) := hopen.trans (stageEffect_waited (by decide) (by decide))
    have hxid' : ((u.waited n 8 waits).core n).nextXid = (s.core n).nextXid := by
      rw [← hxid]
      exact congrArg CoreSt.nextXid (core_of_onlyRegs (onlyRegs_trans (onlyRegs_wr _ _ _ _ _) (onlyRegs_perf _ _ _ _)) n)
    simp only [hbyte] at hbody
    generalize u.waited n 8 waits = v at *
    obtain ⟨hstart, hsrc, hframe⟩ := fabStart_opens h hu hbody
      ((hwait.trans stageEffect_numbered).trans (stageEffect_perf (by decide))) rfl rfl
    obtain ⟨hdata, hpackets⟩ := dataPackets_spec
      (withMark (v.blank n 0 (v.core n).nextXid (fld (vAt f.slots 1) 0 44) (dAt f.slots 0).t.streamSize w) (vAt f.slots 3))
      (fld (vAt f.slots 1) 0 44) (dAt f.slots 0).t.streamSize (fun p => (s.seeing f.seen).byte ((dAt f.slots 0).t.addr n p))
      (streamSize_ne_zero hcheck)
    refine ⟨_, _, rfl, hstart, hsrc, ⟨rfl, rfl, rfl, rfl, hwait.genNow_eq⟩, hxid', rfl, rfl, hdata, fun k hk => ?_, hframe⟩
    obtain ⟨a, l, d, rfl, hlen⟩ := hpackets k hk
    exact ⟨rfl, rfl, rfl, rfl, rfl, hlen, rfl, rfl, rfl, rfl, hwait.domain_eq⟩
  · have hbody := getBody_of_route (n := n) hctl hmark hcheck ((hopen.routeFor_eq _ _ _).trans hroute)
    obtain ⟨hstart, hsrc, hframe⟩ := fabStart_opens h hu hbody (hopen.trans stageEffect_numbered) rfl rfl
    refine ⟨_, _, _, rfl, hstart, hsrc, ⟨rfl, rfl, rfl, rfl, hopen.genNow_eq⟩, hxid, rfl, rfl, rfl, rfl, rfl, rfl, rfl, rfl, rfl,
      fun p hp => ?_, hframe⟩
    simp [askSource, hp]
  · have hbody := rsigBody_of_route (n := n) hctl ((hopen.routeFor_eq _ _ _).trans hroute)
    obtain ⟨hstart, hsrc, hframe⟩ := fabStart_opens h hu hbody (hopen.trans stageEffect_numbered) rfl rfl
    exact ⟨_, _, _, rfl, hstart, hsrc, ⟨rfl, rfl, rfl, rfl, hopen.genNow_eq⟩, rfl, rfl, rfl, rfl, rfl, rfl, rfl, rfl, hframe⟩

end Sys2Proof.Machine
end

section
/-! SUPPORT. A beat of a Skipper operation (R222 to R228, R241, R247, R248): what it sees of memory, the lanes that the kernel leaves,
and the end of an operation with no output. -/

namespace Sys2Proof.Machine

open Sys2Proof.Claims

variable {s t u : State} {n : Nat}

/-! ### States that hold the same data -/

/-- Memory, accumulators, their check state and the banks are the same. -/
structure SameStore (s t : State) : Prop where
  mem : t.mem = s.mem
  bad : t.bad = s.bad
  acc : t.acc = s.acc
  accBad : t.accBad = s.accBad
  banks : ∀ m b, t.bankState m b = s.bankState m b

theorem StageEffect.sameStore {rs ls : List Reg} (h : StageEffect n rs ls s t) (hr : .spdBankst ∉ rs) (hl : .spdBankst ∉ ls) :
    SameStore s t := by
  have hbank := h.bankState_eq hr hl
  obtain ⟨_, _, _, _, _, rfl⟩ := h.frame
  exact ⟨rfl, rfl, rfl, rfl, hbank⟩

/-- One check unit of an access, with the list of those that failed. -/
def writeStep (r : State × List (Nat × Nat)) (g : Nat × List MWrite) : State × List (Nat × Nat) :=
  ((r.1.writeUnit g.1 g.2).1, if (r.1.writeUnit g.1 g.2).2 = 0 then r.2 else r.2 ++ [(g.1, (r.1.writeUnit g.1 g.2).2)])

theorem State.writeAll_foldl (s : State) (ws : List MWrite) :
    s.writeAll ws = (groupRuns (fun w => granule w.addr) ws).foldl writeStep (s, []) := rfl

namespace SameStore

variable (h : SameStore s t)
include h

theorem byte_eq (a : Nat) : t.byte a = s.byte a := by rw [State.byte, h.mem, State.byte]

theorem isBad_eq (g : Nat) : t.isBad g = s.isBad g := by rw [State.isBad, h.bad, State.isBad]

theorem cellStatus_eq (a : Nat) : t.cellStatus a = s.cellStatus a := by
  rw [State.cellStatus, h.banks, h.isBad_eq, State.cellStatus]

theorem putByte (w : MWrite) : SameStore (s.putByte w) (t.putByte w) where
  mem := by rw [State.putByte, State.putByte, h.byte_eq, State.setByte, State.setByte, h.mem]
  bad := h.bad
  acc := h.acc
  accBad := h.accBad
  banks := h.banks

theorem putBytes (ws : List MWrite) : SameStore (ws.foldl State.putByte s) (ws.foldl State.putByte t) := by
  induction ws generalizing s t with
  | nil => exact h
  | cons w ws ih => exact ih (h.putByte w)

theorem setBad (g : Nat) (b : Bool) : SameStore (s.setBad g b) (t.setBad g b) where
  mem := h.mem
  bad := by rw [State.setBad, State.setBad, h.bad]
  acc := h.acc
  accBad := h.accBad
  banks := h.banks

theorem writeUnit (g : Nat) (ws : List MWrite) : SameStore (s.writeUnit g ws).1 (t.writeUnit g ws).1 := by
  unfold State.writeUnit
  dsimp only
  rw [h.cellStatus_eq]
  split
  · exact h
  · split
    · exact (h.putBytes ws).setBad g false
    · split
      · exact h
      · exact h.putBytes ws

theorem writeAll (ws : List MWrite) : SameStore (s.writeAll ws).1 (t.writeAll ws).1 := by
  rw [State.writeAll_foldl, State.writeAll_foldl]
  generalize groupRuns _ ws = gs
  suffices H : ∀ p q : State × List (Nat × Nat), SameStore p.1 q.1 → SameStore (gs.foldl writeStep p).1 (gs.foldl writeStep q).1 from
    H _ _ h
  induction gs with
  | nil => exact fun _ _ hpq => hpq
  | cons g gs ih => exact fun p q hpq => ih _ _ (hpq.writeUnit g.1 g.2)

theorem readAhead_eq (m : Nat) (e : Early) (v : Seen) : t.readAhead m e v = s.readAhead m e v := by
  simp only [State.readAhead, h.banks, h.byte_eq, h.isBad_eq, h.acc, h.accBad]

theorem seeing (v : Seen) : SameStore (s.seeing v) (t.seeing v) where
  mem := by rw [State.seeing, State.seeing, h.mem]
  bad := by rw [State.seeing, State.seeing, h.bad]
  acc := by rw [State.seeing, State.seeing, h.acc]
  accBad := by rw [State.seeing, State.seeing, h.accBad]
  banks := h.banks

theorem elem_eq (m : Nat) (d : TDesc) (k : Nat) : t.elem m d k = s.elem m d k := by
  simp only [State.elem, State.streamBytes, h.byte_eq]

theorem failsAt_eq (as : List Nat) : t.failsAt as = s.failsAt as := by
  simp only [State.failsAt, h.cellStatus_eq]

theorem laneIn_eq (m : Nat) (d : TDesc) (raw : Bool) (k : Nat) : t.laneIn m d raw k = s.laneIn m d raw k := by
  simp only [State.laneIn, h.elem_eq, State.scaleOf, h.byte_eq, State.accGet, h.acc]

theorem accFails_eq (m tl i j : Nat) : t.accFails m tl i j = s.accFails m tl i j := by rw [State.accFails, h.accBad, State.accFails]

theorem readFails_eq (m : Nat) (d : TDesc) (raw : Bool) (c : Nat) (ks : List Nat) : t.readFails m d raw c ks = s.readFails m d raw c ks := by
  simp only [State.readFails, h.failsAt_eq, h.accFails_eq]

/-! ### What the streams of a beat see -/

theorem keptLines_eq (m c : Nat) (lines : List Nat) (queue : List (Nat × List MWrite)) (seen : Seen) :
    t.keptLines m c lines queue seen = s.keptLines m c lines queue seen := by
  unfold State.keptLines
  induction queue generalizing s t seen with
  | nil => rfl
  | cons e queue ih =>
    rw [List.foldl_cons, List.foldl_cons]
    dsimp only
    split
    · exact ih h seen
    · rw [h.readAhead_eq]
      exact ih (h.writeAll e.2) _

theorem beatView (m c : Nat) (lines : List Nat) (queue : List (Nat × List MWrite)) (seen : Seen) :
    SameStore (s.beatView m c lines queue seen) (t.beatView m c lines queue seen) := by
  rw [State.beatView, State.beatView, h.keptLines_eq]
  generalize queue.takeWhile _ = due
  refine SameStore.seeing ?_ _
  induction due generalizing s t with
  | nil => exact h
  | cons e due ih => exact ih (h.writeAll e.2)

theorem maskSel_eq (m : Nat) (o : SkipOp) (b : BeatAt) (seen : Seen) : t.maskSel m o b seen = s.maskSel m o b seen := by
  unfold State.maskSel State.maskView
  cases o.mask with
  | none => rfl
  | some d => exact List.map_congr_left fun l _ => by simp only [(h.beatView m b.cc (beatLines m d.t b.elems) o.queue seen).elem_eq]

theorem usedElems_eq (m : Nat) (o : SkipOp) (b : BeatAt) (seen : Seen) : t.usedElems m o b seen = s.usedElems m o b seen := by
  rw [State.usedElems, h.maskSel_eq, State.usedElems]

end SameStore

/-- What is read of each input through its own view does not depend on the views' other parts. -/
theorem map_zip_views_congr {α : Type} {g : (Desc × State) × Nat → α} {view view' : Desc → State}
    (h : ∀ d i, g ((d, view d), i) = g ((d, view' d), i)) (ins : List Desc) (k : Nat) :
    ((ins.zip (ins.map view)).zipIdx k).map g = ((ins.zip (ins.map view')).zipIdx k).map g := by
  induction ins generalizing k with
  | nil => rfl
  | cons d ins ih => simp only [List.map_cons, List.zip_cons_cons, List.zipIdx_cons, h, ih]

theorem SameStore.beatFails_eq (h : SameStore s t) (m : Nat) (o : SkipOp) (b : BeatAt) (seen : Seen) :
    t.beatFails m o b seen = s.beatFails m o b seen := by
  have hmask : (match o.mask with
      | none => []
      | some d => (t.maskView m o b seen).readFails m d.t true b.cc b.elems) =
      match o.mask with
      | none => []
      | some d => (s.maskView m o b seen).readFails m d.t true b.cc b.elems := by
    unfold State.maskView
    cases o.mask with
    | none => rfl
    | some d => exact (h.beatView m b.cc (beatLines m d.t b.elems) o.queue seen).readFails_eq m d.t true b.cc b.elems
  have hins := map_zip_views_congr
    (g := fun d : (Desc × State) × Nat => d.1.2.readFails m d.1.1.t (o.inRaw.testBit d.2) b.cc (s.usedElems m o b seen))
    (view := fun d => t.beatView m b.cc (beatLines m d.t (s.usedElems m o b seen)) o.queue seen)
    (view' := fun d => s.beatView m b.cc (beatLines m d.t (s.usedElems m o b seen)) o.queue seen)
    (fun d i => (h.beatView m b.cc (beatLines m d.t (s.usedElems m o b seen)) o.queue seen).readFails_eq m d.t (o.inRaw.testBit i) b.cc
      (s.usedElems m o b seen)) o.ins 0
  unfold State.beatFails State.inViews
  simp only [h.usedElems_eq, List.flatMap_def]
  rw [hins]
  exact congrArg (fun l => l ++ _ ++ _) hmask

/-- The lanes of a beat depend on the lanes as they stand and on the data that the streams see. -/
theorem SameStore.beatLanes_eq (h : SameStore s t) (o : SkipOp) (b : BeatAt) (seen : Seen) (hl : u.lanes = s.lanes) (hf : u.laneF = s.laneF) :
    u.beatLanes n o b (t.inViews n o b seen) = s.beatLanes n o b (s.inViews n o b seen) := by
  have hlane (l : Nat) : u.lane n l = s.lane n l := funext fun r => by rw [State.lane, hl, State.lane]
  have hflag (l : Nat) : u.laneFlag n l = s.laneFlag n l := by rw [State.laneFlag, hf, State.laneFlag]
  have hins (l : Nat) := map_zip_views_congr
    (g := fun d : (Desc × State) × Nat =>
      if l < b.active then d.1.2.laneIn n d.1.1.t (o.inRaw.testBit d.2) (b.pos + l) else (0#32, {}))
    (view := fun d => t.beatView n b.cc (beatLines n d.t (s.usedElems n o b seen)) o.queue seen)
    (view' := fun d => s.beatView n b.cc (beatLines n d.t (s.usedElems n o b seen)) o.queue seen)
    (fun d i => by simp only [(h.beatView n b.cc (beatLines n d.t (s.usedElems n o b seen)) o.queue seen).laneIn_eq]) o.ins 0
  unfold State.beatLanes State.inViews
  simp only [h.usedElems_eq, hlane, hflag]
  exact List.map_congr_left fun l _ => by rw [hins l]

/-! ### Lanes -/

theorem lane_setLane {l l' r r' : Nat} (hr : r < 32) (hr' : r' < 32) (v : W32) :
    (s.setLane n l r v).lane n l' r' = if l = l' ∧ r = r' then v else s.lane n l' r' := by
  have hkey : laneKey n l r = laneKey n l' r' ↔ l = l' ∧ r = r' := by unfold laneKey; omega
  rw [State.lane, State.setLane, Sparse.get_set]
  exact if_congr hkey rfl rfl

/-- The registers of a lane written one after another. -/
theorem lane_setRegs (s : State) (n l : Nat) (regs : List W32) (k : Nat) (hk : k + regs.length ≤ 32) {l' r' : Nat} (hr : r' < 32) :
    (((regs.zipIdx k).foldl (fun s r => s.setLane n l r.2 r.1) s).lane n l' r') =
      if l = l' ∧ k ≤ r' ∧ r' < k + regs.length then regs.getD (r' - k) 0#32 else s.lane n l' r' := by
  induction regs generalizing s k with
  | nil => rw [if_neg (by simp only [List.length_nil]; omega)]; rfl
  | cons v regs ih =>
    rw [List.length_cons] at hk
    rw [List.zipIdx_cons, List.foldl_cons, ih _ _ (by omega), lane_setLane (by omega) hr]
    obtain rfl | hne := eq_or_ne k r'
    · simp
    · obtain hlt | hge := Nat.lt_or_ge r' k
      · rw [if_neg (by omega), if_neg (by omega), if_neg (by omega)]
      · have hidx : r' - k = r' - (k + 1) + 1 := by omega
        rw [hidx, List.getD_cons_succ, if_neg (c := l = l' ∧ k = r') (by omega)]
        exact if_congr (by rw [List.length_cons]; omega) rfl rfl

/-- Store one lane. -/
def State.storeLane (s : State) (n l : Nat) (x : LaneRun) : State :=
  (x.regs.zipIdx.foldl (fun s r => s.setLane n l r.2 r.1) s).setLaneFlag n l x.f

theorem State.storeLanes_foldl (s : State) (n : Nat) (ls : List LaneRun) :
    s.storeLanes n ls = ls.zipIdx.foldl (fun s l => s.storeLane n l.2 l.1) s := rfl

theorem lane_storeLane (s : State) {l l' r : Nat} {x : LaneRun} (hlen : x.regs.length = 32) (hr : r < 32) :
    (s.storeLane n l x).lane n l' r = if l = l' then x.reg r else s.lane n l' r := by
  have hregs := lane_setRegs s n l x.regs 0 (by omega) (l' := l') hr
  rw [hlen] at hregs
  refine hregs.trans (if_congr (by omega) (by rw [LaneRun.reg, Nat.sub_zero]) rfl)

theorem State.storeLane_eq (s : State) (n l : Nat) (x : LaneRun) :
    ∃ lanes laneF, s.storeLane n l x = { s with lanes := lanes, laneF := laneF } := by
  have hregs (t : State) (regs : List (W32 × Nat)) :
      ∃ lanes, regs.foldl (fun s r => s.setLane n l r.2 r.1) t = { t with lanes := lanes } := by
    induction regs generalizing t with
    | nil => exact ⟨_, rfl⟩
    | cons r regs ih =>
      obtain ⟨lanes, h⟩ := ih (t.setLane n l r.2 r.1)
      exact ⟨lanes, h⟩
  obtain ⟨lanes, h⟩ := hregs s x.regs.zipIdx
  exact ⟨lanes, _, by rw [State.storeLane, h, State.setLaneFlag]⟩

/-- Only lanes change where lanes are stored. -/
theorem State.storeLanes_eq (s : State) (n : Nat) (ls : List LaneRun) :
    ∃ lanes laneF, s.storeLanes n ls = { s with lanes := lanes, laneF := laneF } := by
  rw [State.storeLanes_foldl]
  generalize ls.zipIdx = is
  induction is generalizing s with
  | nil => exact ⟨_, _, rfl⟩
  | cons i is ih =>
    obtain ⟨lanes, laneF, h⟩ := ih (s.storeLane n i.2 i.1)
    obtain ⟨_, _, h'⟩ := s.storeLane_eq n i.2 i.1
    exact ⟨lanes, laneF, by rw [List.foldl_cons, h, h']⟩

theorem lane_storeLanes {ls : List LaneRun} (hlen : ∀ x ∈ ls, x.regs.length = 32) {l r : Nat} (hl : l < ls.length) (hr : r < 32)
    (d : LaneRun) : (s.storeLanes n ls).lane n l r = (ls.getD l d).reg r := by
  suffices H : ∀ k l, ((ls.zipIdx k).foldl (fun s l => s.storeLane n l.2 l.1) s).lane n l r =
      if k ≤ l ∧ l < k + ls.length then (ls.getD (l - k) d).reg r else s.lane n l r by
    rw [State.storeLanes_foldl, H, if_pos (by omega), Nat.sub_zero]
  clear hl l
  induction ls generalizing s with
  | nil =>
    intro k l
    rw [if_neg (by simp only [List.length_nil]; omega)]
    rfl
  | cons x ls ih =>
    intro k l
    rw [List.zipIdx_cons, List.foldl_cons, ih (fun y hy => hlen y (List.mem_cons_of_mem _ hy)),
      lane_storeLane s (hlen x List.mem_cons_self) hr, List.length_cons]
    obtain rfl | hne := eq_or_ne k l
    · simp
    · obtain hlt | hge := Nat.lt_or_ge l k
      · rw [if_neg (by omega), if_neg (by omega), if_neg (by omega)]
      · have hidx : l - k = l - (k + 1) + 1 := by omega
        rw [hidx, List.getD_cons_succ, if_neg hne]
        exact if_congr (by omega) rfl rfl

theorem length_regs_step (first last : Bool) (w : LaneWord) (x : LaneRun) : (x.step first last w).regs.length = x.regs.length := by
  unfold LaneRun.step
  split
  · rfl
  · split
    · split <;> rfl
    · split
      · exact List.length_set
      · rfl

/-- A kernel leaves a lane its 32 registers. -/
theorem length_regs_runKernel (first last : Bool) (ws : List W32) (x : LaneRun) :
    (runKernel first last ws x).regs.length = x.regs.length := by
  induction ws, x using runKernel.induct first last with
  | case1 x => rfl
  | case2 w x => exact length_regs_step first last _ x
  | case3 w v t x lw hldi ih =>
    rw [runKernel, if_pos hldi, ih]
    split
    · exact List.length_set
    · rfl
  | case4 w v t x lw hldi ih => rw [runKernel, if_neg hldi, ih, length_regs_step]

theorem length_beatLanes (s : State) (n : Nat) (o : SkipOp) (b : BeatAt) (views : List State) : (s.beatLanes n o b views).length = 64 := by
  rw [State.beatLanes, List.length_map, List.length_range]

theorem length_regs_beatLanes {o : SkipOp} {b : BeatAt} {views : List State} {x : LaneRun × CvtEv} (hx : x ∈ s.beatLanes n o b views) :
    x.1.regs.length = 32 := by
  obtain ⟨l, -, rfl⟩ := List.mem_map.1 hx
  simp

/-! ### What a beat may change -/

/-- Of the registers only `rs` of core `n` and the fault log's change, of the cores only `n`; beside them only lanes and the bookkeeping of
the fault log do. -/
structure BeatEffect (n : Nat) (rs : List Reg) (s t : State) : Prop where
  regs : ∀ r m i, r ∉ logRegs → r ∉ rs ∨ m ≠ n → t.rd r m i = s.rd r m i
  cores : SameCores n s t
  frame : ∃ regs cores lanes laneF a b w,
    t = { s with regs := regs, cores := cores, lanes := lanes, laneF := laneF, fltSince := a, fltHeld := b, fltWait := w }

section
variable {rs : List Reg}

theorem BeatEffect.trans (h : BeatEffect n rs s t) (h' : BeatEffect n rs t u) : BeatEffect n rs s u where
  regs r m i hl hr := (h'.regs r m i hl hr).trans (h.regs r m i hl hr)
  cores m hm := (h'.cores m hm).trans (h.cores m hm)
  frame := by
    obtain ⟨_, _, _, _, _, _, _, rfl⟩ := h.frame
    obtain ⟨_, _, _, _, _, _, _, rfl⟩ := h'.frame
    exact ⟨_, _, _, _, _, _, _, rfl⟩

theorem BeatEffect.weaken {rs' : List Reg} (h : BeatEffect n rs s t) (hrs : rs ⊆ rs') : BeatEffect n rs' s t :=
  ⟨fun r m i hl hr => h.regs r m i hl (hr.imp_left fun hn hmem => hn (hrs hmem)), h.cores, h.frame⟩

theorem StageEffect.beatEffect (h : StageEffect n rs logRegs s t) : BeatEffect n rs s t where
  regs := h.regs
  cores := h.cores
  frame := by
    obtain ⟨_, _, _, _, _, rfl⟩ := h.frame
    exact ⟨_, _, _, _, _, _, _, rfl⟩

theorem beatEffect_updFlight {e : Nat} {ph : Phase} {g : Flight → Flight} (hcore : .coreStat ∈ rs) (hdma : .dmaStat ∈ rs) :
    BeatEffect n rs s (s.updFlight n e ph g) where
  regs := (opEffect_updFlight (ls := logRegs) hcore hdma).regs
  cores := (opEffect_updFlight (ls := logRegs) hcore hdma).cores
  frame := by
    obtain ⟨_, _, h⟩ := s.updCore_eq n fun c => { c with flights := replFirst (fun f => f.ecls == e && f.phase == ph) g c.flights }
    exact ⟨_, _, _, _, _, _, _, h⟩

theorem beatEffect_storeLanes (ls : List LaneRun) : BeatEffect n rs s (s.storeLanes n ls) := by
  obtain ⟨_, _, h⟩ := s.storeLanes_eq n ls
  rw [h]
  exact ⟨fun _ _ _ _ _ => rfl, fun _ _ => rfl, _, _, _, _, _, _, _, rfl⟩

theorem BeatEffect.sameMem (h : BeatEffect n rs s t) : SameMem s t := by
  obtain ⟨_, _, _, _, _, _, _, rfl⟩ := h.frame
  exact ⟨fun _ => rfl, fun _ => rfl⟩

theorem BeatEffect.sameOutside (h : BeatEffect n rs s t) : SameOutside s t := by
  obtain ⟨_, _, _, _, _, _, _, rfl⟩ := h.frame
  exact ⟨rfl, rfl, rfl, rfl, rfl, rfl, rfl, rfl, rfl, rfl, rfl, rfl, rfl, rfl⟩

theorem BeatEffect.acc_eq (h : BeatEffect n rs s t) : t.acc = s.acc := by
  obtain ⟨_, _, _, _, _, _, _, rfl⟩ := h.frame
  rfl

theorem BeatEffect.kern_eq (h : BeatEffect n rs s t) : t.kern = s.kern := by
  obtain ⟨_, _, _, _, _, _, _, rfl⟩ := h.frame
  rfl

theorem BeatEffect.opFrame (h : BeatEffect n (rs ++ opRegs) s t) : OpFrame n rs s t := ⟨h.regs, h.cores⟩

theorem stageEffect_laneEvents {ls : List Reg} {ev : Ev} (hstat : .skpStat ∈ rs) : StageEffect n rs ls s (s.laneEvents n ev) := by
  have hraise (m : W64) : StageEffect n rs ls s (s.raiseMask .skpStat n 0 m) := stageEffect_wr hstat
  exact (hraise _).trans stageEffect_latch

theorem StageEffect.lanes_eq {ls : List Reg} (h : StageEffect n rs ls s t) : t.lanes = s.lanes ∧ t.laneF = s.laneF := by
  obtain ⟨_, _, _, _, _, rfl⟩ := h.frame
  exact ⟨rfl, rfl⟩

end

/-! ### The course of a beat -/

/-- The state in which a beat reaches its lanes, its reads done (R248). -/
def State.beatStarted (s : State) (n : Nat) : State :=
  (s.perf n 8 1).updFlight n 4 .started fun f => { f with seen := {} }

/-- The end of a beat: of the operation after its last, else the next beat follows. -/
def State.closeBeat (s : State) (n : Nat) (c : Ctx) (o : SkipOp) : State :=
  if o.beat + 1 = o.beats then skipEnd n c [] s { o with beat := o.beat + 1 }
  else s.modCore n fun k => { k with skp := some { o with beat := o.beat + 1 } }

/-- Nothing is due in a queue whose writes all come later. -/
theorem drainQueue_of_later {c : Ctx} {master lim : Nat} {lost : List Nat} {q : List (Nat × List MWrite)} (h : ∀ e ∈ q, lim ≤ e.1) :
    drainQueue c master lost lim q s = ⟨s, q, none, false⟩ := by
  cases q with
  | nil => rfl
  | cons e q => rw [drainQueue, if_pos (h e List.mem_cons_self)]

section
variable {o : SkipOp} {f : Flight} (hst : o.status = 0) (hlater : ∀ e ∈ o.queue, o.at.cc ≤ e.1)
include hst hlater

theorem SkipOp.drain_of_later (c : Ctx) (lost : List Nat) :
    o.drain c lost o.at.cc s = ({ o with addr := 0 }, ⟨s, o.queue, none, false⟩) := by
  rw [SkipOp.drain, drainQueue_of_later hlater, if_neg (not_not.2 hst)]
  obtain ⟨_, _, _, _, _, _, _, _, _, _, _, _, _, _, _, _, _⟩ := o
  obtain rfl : _ = 0 := hst
  rfl

variable (hfails : s.beatFails n o o.at f.seen = [])
include hfails

theorem beatBody_of_kernel (hmask : hasMask o.op = false) : beatBody n [] s f o =
    let r := kernelBeat (s.beatStarted n) n { o with addr := 0 } o.at (s.inViews n { o with addr := 0 } o.at f.seen)
    (r.1.cvtEvents n r.2.2).closeBeat n (f.ctx n) r.2.1 := by
  have hfails' : s.beatFails n { o with addr := 0 } o.at f.seen = [] := hfails
  unfold beatBody
  dsimp only
  rw [SkipOp.drain_of_later hst hlater]
  dsimp only
  rw [if_neg (by decide), hfails']
  dsimp only [earliest, List.foldl_nil]
  rw [hmask]
  rfl

theorem beatBody_of_mask (hmask : hasMask o.op = true) : beatBody n [] s f o =
    let r := maskBeat n { o with addr := 0 } o.at (s.maskSel n o o.at f.seen) (s.inViews n o o.at f.seen)
    ((s.beatStarted n).cvtEvents n r.2).closeBeat n (f.ctx n) r.1 := by
  have hfails' : s.beatFails n { o with addr := 0 } o.at f.seen = [] := hfails
  unfold beatBody
  dsimp only
  rw [SkipOp.drain_of_later hst hlater]
  dsimp only
  rw [if_neg (by decide), hfails']
  dsimp only [earliest, List.foldl_nil]
  rw [hmask]
  rfl

end

/-! ### From the event to the beat -/

theorem exec_skipperBeat {rw ww : Nat} {o : SkipOp} {f : Flight} (h : BeatClear s n o f) :
    exec (.skipperBeat n rw ww {} []) s = .next (beatBody n [] ((s.waited n 3 rw).waited n 4 ww) f o) := by
  obtain ⟨hskp, hflight, -⟩ := h
  show execSkipperBeat n rw ww s {} [] = _
  rw [execSkipperBeat, hskp, hflight]
  rfl

theorem core_waited (s : State) (n master k m : Nat) : (s.waited n master k).core m = s.core m :=
  core_of_onlyRegs (onlyRegs_trans (onlyRegs_wr _ _ _ _ _) (onlyRegs_perf _ _ _ _)) m

/-- What stands when a beat reaches its lanes. -/
theorem beatStarted_spec (hu : StageEffect n opRegs logRegs s u) :
    BeatEffect n opRegs s (u.beatStarted n) ∧ (u.beatStarted n).lanes = s.lanes ∧ (u.beatStarted n).laneF = s.laneF ∧
      ((u.beatStarted n).core n).flights = replFirst (fun g => g.ecls == 4 && g.phase == .started) (fun g => { g with seen := {} })
        (s.core n).flights := by
  have hperf : StageEffect n opRegs logRegs s (u.perf n 8 1) := hu.trans (stageEffect_perf (by decide))
  have hflights : ((u.perf n 8 1).core n).flights = (s.core n).flights := hperf.flights
  obtain ⟨hlanes, hflags⟩ := hperf.lanes_eq
  unfold State.beatStarted
  generalize u.perf n 8 1 = v at *
  refine ⟨hperf.beatEffect.trans (beatEffect_updFlight (by decide) (by decide)), ?_, ?_, ?_⟩
  · exact hlanes
  · exact hflags
  · rw [flights_updFlight, hflights]

/-- A kernel beat leaves its lanes what the kernel makes of them, reports their events, and changes of the operation only its outputs and
their queue. -/
theorem kernelBeat_spec (h : SameStore s t) (hl : u.lanes = s.lanes) (hf : u.laneF = s.laneF) (o : SkipOp) (b : BeatAt) (seen : Seen) :
    ∃ v ev outs queue cv, kernelBeat u n o b (t.inViews n o b seen) = (v.laneEvents n ev, { o with outs := outs, queue := queue }, cv) ∧
      BeatEffect n opRegs u v ∧ (∀ m, v.core m = u.core m) ∧ (o.outs = [] → outs = [] ∧ queue = o.queue) ∧
      ∀ l r, l < 64 → r < 32 → v.lane n l r =
        (runKernel b.first b.last o.kernel ((s.beatLanes n o b (s.inViews n o b seen)).getD l (⟨[], false, false, false, {}⟩, {})).1).reg r := by
  refine ⟨_, _, _, _, _, rfl, beatEffect_storeLanes _, fun m => ?_, fun houts => ?_, fun l r hlt hr => ?_⟩
  · obtain ⟨_, _, hv⟩ := u.storeLanes_eq n ((u.beatLanes n o b (t.inViews n o b seen)).map fun l => runKernel b.first b.last o.kernel l.1)
    rw [hv]
    rfl
  · rw [houts]
    exact ⟨rfl, rfl⟩
  · have hlen : ∀ x ∈ (s.beatLanes n o b (s.inViews n o b seen)).map fun l => runKernel b.first b.last o.kernel l.1, x.regs.length = 32 := by
      intro x hx
      obtain ⟨y, hy, rfl⟩ := List.mem_map.1 hx
      rw [length_regs_runKernel, length_regs_beatLanes hy]
    have hcount : l < ((s.beatLanes n o b (s.inViews n o b seen)).map fun l => runKernel b.first b.last o.kernel l.1).length := by
      rw [List.length_map, length_beatLanes]
      exact hlt
    rw [h.beatLanes_eq o b seen hl hf, lane_storeLanes hlen hcount hr (runKernel b.first b.last o.kernel ⟨[], false, false, false, {}⟩)]
    exact congrArg (LaneRun.reg · r) (List.getD_map _ ((⟨[], false, false, false, {}⟩, {}) : LaneRun × CvtEv) fun l =>
      runKernel b.first b.last o.kernel l.1)

/-- A beat of SKCMP or SKEXP counts what its mask selects. -/
theorem maskBeat_eq (n : Nat) (o : SkipOp) (b : BeatAt) (sel : List Bool) (views : List State) : ∃ outs queue cv,
    maskBeat n o b sel views = ({ o with outs := outs, queue := queue, count := o.count + (sel.filter id).length }, cv) := by
  unfold maskBeat
  dsimp only
  split
  · exact ⟨_, _, _, rfl⟩
  · exact ⟨_, _, _, rfl⟩

/-- With no output and no write left, the operation is done with status OK. -/
theorem skipEnd_of_noOutput {o : SkipOp} {c : Ctx} {lost : List Nat} (houts : o.outs = []) (hqueue : o.queue = []) (hst : o.status = 0)
    (hmask : hasMask o.op = false) : skipEnd n c lost s o = (s.cvtEvents n {}).skipDone n 0 0 := by
  have hend : recEnd n { o with outs := [], queue := [] } = [] := rfl
  unfold skipEnd
  rw [houts, hqueue]
  dsimp only [List.foldl_nil]
  rw [hend, hmask, if_neg (not_not.2 hst)]
  rfl

/-- Changes of the first element that leave the test true act one after the other. -/
theorem replFirst_replFirst {α : Type} {p : α → Bool} {g g' : α → α} (h : ∀ a, p a = true → p (g a) = true) (l : List α) :
    replFirst p g' (replFirst p g l) = replFirst p (fun a => g' (g a)) l := by
  induction l with
  | nil => rfl
  | cons a l ih =>
    cases hp : p a with
    | true => simp [replFirst, hp, h a hp]
    | false => simp [replFirst, hp, ih]

/-- Settles O22: the lanes are those that the kernel leaves on what the streams see; the mask's selection counts; an operation with no
output ends. -/
theorem skipperBeatRunsTheKernel : Obligations.SkipperBeatRunsTheKernel := by
  unfold Obligations.SkipperBeatRunsTheKernel
  intro s n rw ww o f hclear
  have hexec := exec_skipperBeat (rw := rw) (ww := ww) hclear
  obtain ⟨hskp, hflight, hst, hfails, hlater⟩ := hclear
  have hu : StageEffect n opRegs logRegs s ((s.waited n 3 rw).waited n 4 ww) :=
    (stageEffect_waited (by decide) (by decide)).trans (stageEffect_waited (by decide) (by decide))
  have hcore : ((s.waited n 3 rw).waited n 4 ww).core n = s.core n := by rw [core_waited, core_waited]
  generalize (s.waited n 3 rw).waited n 4 ww = u at *
  have hstore : SameStore s u := hu.sameStore (by decide) (by decide)
  have hfails' : u.beatFails n o o.at f.seen = [] := by rw [hstore.beatFails_eq, hfails]
  obtain ⟨hstart, hlanes, hflags, hflights⟩ := beatStarted_spec hu
  refine ⟨fun early lost hne => ?_, fun hmask hnext => ?_, fun hmask hnext => ?_, fun hmask hlast houts hqueue => ?_⟩
  · have hrun : exec (.skipperBeat n rw ww early lost) s =
        .next (s.updFlight n 4 .started fun g => { g with seen := s.readAhead n early g.seen }) := by
      show execSkipperBeat n rw ww s early lost = _
      rw [execSkipperBeat, hskp, hflight]
      exact if_neg hne
    have heff : OpEffect n opRegs logRegs s (s.updFlight n 4 .started fun g => { g with seen := s.readAhead n early g.seen }) :=
      opEffect_updFlight (by decide) (by decide)
    refine ⟨_, hrun, ?_, (flights_updFlight _ _ _ _ _).trans (replFirst_congr hflight rfl), heff.sameMem, heff.sameUnits rfl rfl,
      heff.sameOutside, heff.opFrame (rs := [])⟩
    rw [State.updFlight, State.core_updCore]
    exact hskp
  · obtain ⟨v, ev, outs, queue, cv, hbeat, heff, -, -, hreg⟩ := kernelBeat_spec (n := n) hstore hlanes hflags { o with addr := 0 } o.at f.seen
    rw [beatBody_of_kernel hst hlater hfails' hmask, hbeat] at hexec
    dsimp only [State.closeBeat] at hexec
    rw [if_neg (Nat.ne_of_lt hnext)] at hexec
    have hev : StageEffect n ([.skpStat, .cvtStat, .cvtClipcnt] ++ opRegs) logRegs v ((v.laneEvents n ev).cvtEvents n cv) :=
      (stageEffect_laneEvents (by decide)).trans (stageEffect_cvtEvents (by decide) (by decide))
    generalize (v.laneEvents n ev).cvtEvents n cv = x at *
    have hlane (l r : Nat) : x.lane n l r = v.lane n l r := by rw [State.lane, hev.lanes_eq.1, State.lane]
    have hall : BeatEffect n ([.skpStat, .cvtStat, .cvtClipcnt] ++ opRegs) s x :=
      ((hstart.trans heff).weaken (by decide)).trans hev.beatEffect
    have hgo (o' : SkipOp) : StageEffect n ([.skpStat, .cvtStat, .cvtClipcnt] ++ opRegs) logRegs x
        (x.modCore n fun k => { k with skp := some o' }) := stageEffect_modCore rfl
    have hend := fun o' => hall.trans (hgo o').beatEffect
    refine ⟨_, _, hexec, congrArg CoreSt.skp (x.core_modCore n _), rfl, fun l r hl hr => ?_, (hend _).sameMem, (hend _).acc_eq,
      (hend _).kern_eq, (hend _).sameOutside, (hend _).opFrame⟩
    rw [State.lane, (hgo _).lanes_eq.1, ← State.lane, hlane, hreg l r hl hr]
    rfl
  · obtain ⟨outs, queue, cv, hbeat⟩ := maskBeat_eq n { o with addr := 0 } o.at (u.maskSel n o o.at f.seen) (u.inViews n o o.at f.seen)
    rw [beatBody_of_mask hst hlater hfails' hmask, hbeat, hstore.maskSel_eq] at hexec
    dsimp only [State.closeBeat] at hexec
    rw [if_neg (Nat.ne_of_lt hnext)] at hexec
    have hev : StageEffect n ([.cvtStat, .cvtClipcnt] ++ opRegs) logRegs (u.beatStarted n) ((u.beatStarted n).cvtEvents n cv) :=
      stageEffect_cvtEvents (by decide) (by decide)
    generalize (u.beatStarted n).cvtEvents n cv = x at *
    have hgo (o' : SkipOp) : StageEffect n ([.cvtStat, .cvtClipcnt] ++ opRegs) logRegs x
        (x.modCore n fun k => { k with skp := some o' }) := stageEffect_modCore rfl
    have hend := fun o' => (hstart.weaken (by decide)).trans (hev.trans (hgo o')).beatEffect
    have hkeep := fun o' => (hev.trans (hgo o')).lanes_eq
    exact ⟨_, _, hexec, congrArg CoreSt.skp (x.core_modCore n _), rfl, rfl, (hkeep _).1.trans hlanes, (hkeep _).2.trans hflags,
      (hend _).sameMem, (hend _).acc_eq, (hend _).kern_eq, (hend _).sameOutside, (hend _).opFrame⟩
  · obtain ⟨v, ev, outs, queue, cv, hbeat, heff, hcores, hnone, -⟩ :=
      kernelBeat_spec (n := n) hstore hlanes hflags { o with addr := 0 } o.at f.seen
    obtain ⟨rfl, rfl⟩ := hnone houts
    rw [beatBody_of_kernel hst hlater hfails' hmask, hbeat] at hexec
    dsimp only [State.closeBeat] at hexec
    rw [if_pos hlast] at hexec
    rw [skipEnd_of_noOutput (o := { o with outs := [], addr := 0, beat := o.beat + 1 }) rfl hqueue hst hmask] at hexec
    have hev : StageEffect n ([.skpStat, .cvtStat, .cvtClipcnt] ++ opRegs) logRegs v
        (((v.laneEvents n ev).cvtEvents n cv).cvtEvents n {}) :=
      ((stageEffect_laneEvents (by decide)).trans (stageEffect_cvtEvents (by decide) (by decide))).trans
        (stageEffect_cvtEvents (by decide) (by decide))
    generalize ((v.laneEvents n ev).cvtEvents n cv).cvtEvents n {} = x at *
    have hidle : StageEffect n ([.skpStat, .cvtStat, .cvtClipcnt] ++ opRegs) logRegs x (x.modCore n fun k => { k with skp := none }) :=
      stageEffect_modCore rfl
    have hall : BeatEffect n ([.skpStat, .cvtStat, .cvtClipcnt] ++ opRegs) s (x.skipDone n 0 0) :=
      (((hstart.trans heff).weaken (by decide)).trans (hev.trans hidle).beatEffect).trans
        (beatEffect_updFlight (by decide) (by decide))
    refine ⟨_, hexec, ?_, ?_, hall.sameMem, hall.acc_eq, hall.sameOutside⟩
    · rw [State.skipDone, State.updFlight, State.core_updCore, State.core_modCore]
    · rw [State.skipDone, flights_updFlight, hidle.flights, hev.flights, hcores, hflights]
      exact replFirst_replFirst (p := fun g : Flight => g.ecls == 4 && g.phase == .started) (g := fun g => { g with seen := {} })
        (fun _ hg => hg) _

end Sys2Proof.Machine
end

section
/-! SUPPORT. The gate's collector (R397 to R399, R402, R407, R558): what a core's step of it changes, and what remains when it is
emptied. -/

namespace Sys2Proof.Machine

open Sys2Proof.Claims

variable {s t u : State} {n : Nat}

/-! ### One core after another -/

/-- Where each step changes its own core alone, a core is as its own step left it, and that step found it as it was. -/
theorem core_foldl_range {F : State → Nat → State} (hF : ∀ s n m, m ≠ n → (F s n).core m = s.core m) (s : State) (k : Nat) :
    (∀ m, k ≤ m → ((List.range k).foldl F s).core m = s.core m) ∧
      ∀ m, m < k → ((List.range k).foldl F s).core m = (F ((List.range m).foldl F s) m).core m := by
  induction k with
  | zero => exact ⟨fun _ _ => rfl, fun m hm => absurd hm (Nat.not_lt_zero m)⟩
  | succ k ih =>
    obtain ⟨hafter, hbefore⟩ := ih
    rw [List.range_succ, List.foldl_append, List.foldl_cons, List.foldl_nil]
    refine ⟨fun m hm => ?_, fun m hm => ?_⟩
    · rw [hF _ _ _ (by omega), hafter m (by omega)]
    · obtain rfl | hlt := Nat.eq_or_lt_of_le (Nat.le_of_lt_succ hm)
      · rfl
      · rw [hF _ _ _ (Nat.ne_of_lt hlt), hbefore m hlt]

/-- A relation that each step keeps is kept by all of them. -/
theorem foldl_induction {α : Type} {R : State → State → Prop} (hrefl : ∀ s, R s s) (htrans : ∀ s t u, R s t → R t u → R s u)
    {F : State → α → State} (hF : ∀ s a, R s (F s a)) (l : List α) (s : State) : R s (l.foldl F s) := by
  induction l generalizing s with
  | nil => exact hrefl s
  | cons a l ih => exact htrans _ _ _ (hF s a) (ih _)

/-- Of the registers only CORE_STAT and DMA_STAT change, and beside them only cores do. -/
structure CoresOnly (s t : State) : Prop where
  regs : SameRegs [.coreStat, .dmaStat] s t
  frame : ∃ regs cores, t = { s with regs := regs, cores := cores }

theorem CoresOnly.refl (s : State) : CoresOnly s s := ⟨fun _ _ _ _ => rfl, _, _, rfl⟩

theorem CoresOnly.trans (h : CoresOnly s t) (h' : CoresOnly t u) : CoresOnly s u where
  regs := sameRegs_trans h.regs h'.regs
  frame := by
    obtain ⟨_, _, rfl⟩ := h.frame
    obtain ⟨_, _, rfl⟩ := h'.frame
    exact ⟨_, _, rfl⟩

theorem coresOnly_modCore (s : State) (n : Nat) (f : CoreSt → CoreSt) : CoresOnly s (s.modCore n f) := ⟨fun _ _ _ _ => rfl, _, _, rfl⟩

theorem coresOnly_updCore (s : State) (n : Nat) (f : CoreSt → CoreSt) : CoresOnly s (s.updCore n f) :=
  ⟨fun _ m i hr => s.rd_updCore n f m i (by simpa using hr), s.updCore_eq n f⟩

theorem coresOnly_doneFlight (s : State) (n fid : Nat) : CoresOnly s (s.doneFlight n fid) := coresOnly_updCore s n _

/-! ### A GCONT that waits is done -/

theorem gcontWaiting_congr (h : t.core n = s.core n) : t.gcontWaiting n = s.gcontWaiting n := by
  rw [State.gcontWaiting, h, State.gcontWaiting]

/-- An operation that a core has is the first of its number to be found there. -/
theorem exists_find?_fid {f : Flight} (h : s.gcontWaiting n = some f) : ∃ g, (s.core n).flights.find? (fun h => h.fid == f.fid) = some g := by
  have hmem : f ∈ (s.core n).flights := List.mem_of_find?_eq_some h
  exact Option.isSome_iff_exists.1 (List.find?_isSome.2 ⟨f, hmem, by simp⟩)

theorem flightDone_doneFlight {fid : Nat} {g : Flight} (h : (s.core n).flights.find? (fun h => h.fid == fid) = some g) :
    FlightDone (s.doneFlight n fid) n fid := by
  refine ⟨{ g with phase := .done }, ?_, rfl⟩
  rw [State.doneFlight, State.core_updCore]
  exact find?_replFirst h (by simpa using List.find?_some h)

/-- The collector drops what a core has with it (R399): its latch, and the GCONT that waits. -/
def State.gateDrop (s : State) (n : Nat) : State :=
  let u := s.modCore n fun c => { c with gateLat := 0#64 }
  match u.gcontWaiting n with
  | some f => (u.noteFlight n f.fid 1 0).doneFlight n f.fid
  | none => u

theorem gateDrop_spec (s : State) (n : Nat) :
    CoresOnly s (s.gateDrop n) ∧ SameCores n s (s.gateDrop n) ∧ ((s.gateDrop n).core n).gateLat = 0#64 ∧
      ∀ f, s.gcontWaiting n = some f → FlightDone (s.gateDrop n) n f.fid := by
  unfold State.gateDrop
  have hmod := coresOnly_modCore s n fun c => { c with gateLat := 0#64 }
  have hcores : SameCores n s (s.modCore n fun c => { c with gateLat := 0#64 }) :=
    fun m hm => (s.core_setCore n m _).trans (if_neg (Ne.symm hm))
  have hcore := s.core_modCore n fun c => { c with gateLat := 0#64 }
  have hwait : (s.modCore n fun c => { c with gateLat := 0#64 }).gcontWaiting n = s.gcontWaiting n := by
    rw [State.gcontWaiting, hcore, State.gcontWaiting]
  dsimp only
  generalize (s.modCore n fun c => { c with gateLat := 0#64 }) = u at *
  rw [← hwait]
  cases hf : u.gcontWaiting n with
  | none => exact ⟨hmod, hcores, by rw [hcore], fun _ h => absurd h (by simp)⟩
  | some f =>
    obtain ⟨g, hg⟩ := exists_find?_fid hf
    dsimp only
    have hnote : ((u.noteFlight n f.fid 1 0).core n).flights.find? (fun h => h.fid == f.fid) =
        some (if g.status = 0 then { g with status := 1, addr := 0 } else g) := by
      rw [State.noteFlight, State.core_updCore]
      refine find?_replFirst hg ?_
      have hfid := List.find?_some hg
      split
      · exact hfid
      · exact hfid
    refine ⟨(hmod.trans (coresOnly_updCore _ _ _)).trans (coresOnly_updCore _ _ _), fun m hm => ?_, ?_, fun f' h => ?_⟩
    · rw [State.doneFlight, sameCores_updCore _ _ _ m hm, State.noteFlight, sameCores_updCore _ _ _ m hm, hcores m hm]
    · rw [State.doneFlight, State.core_updCore, State.noteFlight, State.core_updCore, hcore]
    · obtain rfl := Option.some.inj h
      exact flightDone_doneFlight hnote

/-! ### The collector emptied -/

theorem State.bore_modBore (s : State) (a b : Nat) (f : BoreSt → BoreSt) :
    (s.modBore a f).bore b = if a = b then f (s.bore a) else s.bore b := Sparse.get_set _ _ _ _ _

/-- A Bore without the gate messages that wait for a credit. -/
def BoreSt.unsent (b : BoreSt) : BoreSt := { b with held := b.held.filter fun e => e.2.kind != 8 }

theorem bore_foldl_unsent (s : State) (k : Nat) :
    (∃ bores, (List.range k).foldl (fun s a => s.modBore a BoreSt.unsent) s = { s with bores := bores }) ∧
      ∀ a, ((List.range k).foldl (fun s a => s.modBore a BoreSt.unsent) s).bore a = if a < k then (s.bore a).unsent else s.bore a := by
  induction k with
  | zero => exact ⟨⟨_, rfl⟩, fun a => rfl⟩
  | succ k ih =>
    obtain ⟨⟨bores, h⟩, hbore⟩ := ih
    rw [List.range_succ, List.foldl_append, List.foldl_cons, List.foldl_nil]
    refine ⟨⟨_, by rw [h]; rfl⟩, fun a => ?_⟩
    rw [State.bore_modBore, hbore, hbore]
    obtain rfl | hne := eq_or_ne k a
    · simp
    · rw [if_neg hne]
      exact if_congr (by omega) rfl rfl

theorem State.gateReset_eq (s : State) : s.gateReset =
    let u := (List.range 4).foldl (fun s a => s.modBore a BoreSt.unsent) s
    (List.range 256).foldl State.gateDrop (State.gateClear
      { u with gate := { u.gate with hlink := false, hthr := u.throttled, msgs := [] } } 0) := rfl

theorem throttled_congr (h : ∀ k, t.rd .hbmTemp k 0 = s.rd .hbmTemp k 0) : t.throttled = s.throttled := by
  simp only [State.throttled, State.fd, h]

/-- The collector as a new step finds it: what contributed to the last is gone, the messages of the new one stand. -/
theorem gateClear_spec (s : State) (step : Nat) :
    let t := s.gateClear step
    t.gate = { s.gate with words := [], ebb := [], input := 0#64, complete := false, reported := false,
                           msgs := s.gate.msgs.filter fun g => g.step == step } ∧
      t.fd .gateStat 0 0 0 4 = 0 ∧ t.fd .gateStat 0 0 14 11 = 0 ∧ SameRegs [.gateStat] s t ∧
      ∃ regs gate, t = { s with regs := regs, gate := gate } := by
  have hregs (q : Reg) (m i : Nat) (g : GateSt) : State.rd { s with gate := g } q m i = s.rd q m i := rfl
  unfold State.gateClear
  dsimp only
  generalize hg : ({ s.gate with words := [], ebb := [], input := 0#64, complete := false, reported := false,
                                 msgs := s.gate.msgs.filter fun g => g.step == step } : GateSt) = g
  generalize hu : ({ s with gate := g } : State) = u
  have hgate : u.gate = g := by rw [← hu]
  have hrd (q : Reg) (m i : Nat) : u.rd q m i = s.rd q m i := by rw [← hu]; exact hregs q m i g
  generalize hv : u.setF .gateStat 0 0 0 4 0 = v
  have hclear : v.fd .gateStat 0 0 0 4 = 0 := hv ▸ u.fd_setF_same .gateStat 0 0 0 4 0 (by decide)
  have hsame : SameRegs [.gateStat] u v := hv ▸ sameRegs_wr u _ _ _ _
  obtain ⟨_, hvframe⟩ : OnlyRegs u v := hv ▸ onlyRegs_wr u _ _ _ _
  obtain ⟨_, htframe⟩ : OnlyRegs v (v.setF .gateStat 0 0 14 11 0) := onlyRegs_wr v _ _ _ _
  refine ⟨?_, ?_, v.fd_setF_same _ _ _ _ _ _ (by decide), fun q m i hq => ?_, ?_⟩
  · rw [htframe, hvframe, hgate]
  · exact (v.fd_setF_of_disjoint .gateStat 0 0 14 11 0 0 4 (by decide)).trans hclear
  · rw [State.rd_setF_reg _ _ _ _ _ _ _ _ _ _ (by simpa [eq_comm] using hq), hsame q m i hq, hrd]
  · rw [htframe, hvframe, ← hu]; exact ⟨_, _, rfl⟩

theorem gateDrop_foldl (s : State) : CoresOnly s ((List.range 256).foldl State.gateDrop s) ∧
    (∀ n, n < 256 → (((List.range 256).foldl State.gateDrop s).core n).gateLat = 0#64) ∧
    ∀ n f, n < 256 → s.gcontWaiting n = some f → FlightDone ((List.range 256).foldl State.gateDrop s) n f.fid := by
  obtain ⟨-, hstep⟩ := core_foldl_range (F := State.gateDrop) (fun s n m hm => (gateDrop_spec s n).2.1 m hm) s 256
  refine ⟨foldl_induction CoresOnly.refl (fun _ _ _ => CoresOnly.trans) (fun s n => (gateDrop_spec s n).1) _ s, fun n hn => ?_,
    fun n f hn hf => ?_⟩
  · rw [hstep n hn]
    exact (gateDrop_spec _ n).2.2.1
  · have hbefore : ((List.range n).foldl State.gateDrop s).core n = s.core n :=
      (core_foldl_range (F := State.gateDrop) (fun s n m hm => (gateDrop_spec s n).2.1 m hm) s n).1 n (Nat.le_refl n)
    have hdone := (gateDrop_spec ((List.range n).foldl State.gateDrop s) n).2.2.2 f ((gcontWaiting_congr hbefore).trans hf)
    rw [FlightDone, hstep n hn]
    exact hdone

/-- The collector once it has been reset (R399, R558). -/
theorem gateReset_spec (s : State) :
    let t := s.gateReset
    GateEmptied s t ∧ t.gate.filter = s.gate.filter ∧ GateUnsent s t ∧ t.ports = s.ports ∧ t.outbox = s.outbox ∧
      GateFrame [.coreStat, .dmaStat] s t := by
  rw [State.gateReset_eq]
  dsimp only
  obtain ⟨⟨bores, hframe⟩, hbore⟩ := bore_foldl_unsent s 4
  generalize (List.range 4).foldl (fun s a => s.modBore a BoreSt.unsent) s = u at *
  have hthr : u.throttled = s.throttled := throttled_congr fun k => by rw [hframe]; rfl
  rw [hthr]
  generalize hv : ({ u with gate := { u.gate with hlink := false, hthr := s.throttled, msgs := [] } } : State) = v
  have hvcore (n : Nat) : v.core n = s.core n := by rw [← hv, hframe]; rfl
  have hvrd (q : Reg) (m i : Nat) : v.rd q m i = s.rd q m i := by rw [← hv, hframe]; rfl
  have hvgate : v.gate = { s.gate with hlink := false, hthr := s.throttled, msgs := [] } := by rw [← hv, hframe]
  have hvframe : ∃ bores gate, v = { s with bores := bores, gate := gate } := by rw [← hv, hframe]; exact ⟨_, _, rfl⟩
  have hvbore (a : Nat) : v.bore a = u.bore a := by rw [← hv]; rfl
  obtain ⟨hgate, hstate, hcount, hregs, _, _, hwframe⟩ := gateClear_spec v 0
  generalize v.gateClear 0 = w at *
  have hwcore (n : Nat) : w.core n = s.core n := by rw [hwframe]; exact hvcore n
  obtain ⟨hdrop, hlat, hdone⟩ := gateDrop_foldl w
  generalize (List.range 256).foldl State.gateDrop w = t at *
  obtain ⟨_, _, htframe⟩ := hdrop.frame
  obtain ⟨_, _, hvframe⟩ := hvframe
  have hgate' : t.gate = w.gate := by rw [htframe]
  have hall : SameRegs [.gateStat, .coreStat, .dmaStat] s t := fun q m i hq => by
    simp only [List.mem_cons, List.not_mem_nil, or_false, not_or] at hq
    rw [hdrop.regs q m i (by simp [hq]), hregs q m i (by simp [hq]), hvrd]
  rw [hgate] at hgate'
  refine ⟨⟨?_, ?_, ?_, ?_, ?_, ?_, ?_, ?_, hlat, fun n f hn hf => hdone n f hn ((gcontWaiting_congr (hwcore n)).trans hf)⟩, ?_,
    fun a => ?_, ?_, ?_, hall, ?_, ?_, ?_⟩
  · rw [hgate']
  · rw [hgate']
  · rw [hgate', hvgate]; rfl
  · rw [hgate', hvgate]
  · rw [hgate', hvgate]
  · rw [hgate']
  · rw [State.fd, hdrop.regs _ _ _ (by decide)]; exact hstate
  · rw [State.fd, hdrop.regs _ _ _ (by decide)]; exact hcount
  · rw [hgate', hvgate]
  · have htbore : t.bore a = u.bore a := by
      rw [← hvbore, htframe, hwframe]; rfl
    rw [htbore, hbore]
    rfl
  · rw [htframe, hwframe, hvframe]
  · rw [htframe, hwframe, hvframe]
  · rw [htframe, hwframe, hvframe]; exact ⟨fun _ => rfl, fun _ => rfl⟩
  · rw [htframe, hwframe, hvframe]; exact ⟨rfl, rfl, rfl, rfl, rfl, rfl, rfl, rfl⟩
  · rw [htframe, hwframe, hvframe]; exact ⟨rfl, rfl, rfl, rfl, rfl, rfl⟩

/-! ### Watchdog, disabling and abort -/

/-- A word that is overdue: the flag, the record, and the report to management (R407). -/
theorem gateOverdue_spec (s : State) (f : FaultRec) (e : Emission) :
    let t := ((State.raise { s with gate := { s.gate with reported := true } } .gateStat 0 0 8).fault f).emit e
    t.flag .gateStat 0 0 8 = true ∧ t.gate = { s.gate with reported := true } ∧ t.outbox = s.outbox ++ [e] ∧ Recorded s t ∧
      t.cores = s.cores ∧ t.bores = s.bores ∧ GateFrame logRegs s t := by
  dsimp only
  generalize hv : State.raise { s with gate := { s.gate with reported := true } } .gateStat 0 0 8 = v
  have hflag : v.flag .gateStat 0 0 8 = true := hv ▸ State.flag_raise_same _ .gateStat 0 0 8 (by decide)
  have hgate : v.gate = { s.gate with reported := true } := by rw [← hv]; rfl
  have hregs : SameRegs [.gateStat] s v := hv ▸ sameRegs_wr { s with gate := { s.gate with reported := true } } .gateStat 0 0 _
  obtain ⟨regs, gate, hframe⟩ : ∃ regs gate, v = { s with regs := regs, gate := gate } := ⟨_, _, hv.symm⟩
  have hlog := sameRegs_fault v f
  have hrec := recorded_fault (s := v) f
  obtain ⟨⟨_, _, _, _, hfault⟩, -⟩ := v.fault_spec f
  generalize v.fault f = w at *
  have hemit (q : Reg) (m i : Nat) : (w.emit e).rd q m i = w.rd q m i := rfl
  have hrd (q : Reg) (m i : Nat) (hq : q ∉ logRegs) : (w.emit e).rd q m i = v.rd q m i := (hemit q m i).trans (hlog q m i hq)
  have hseq : v.fd .fltSeq 0 0 0 32 = s.fd .fltSeq 0 0 0 32 := by rw [State.fd, hregs _ _ _ (by decide), State.fd]
  have hseq' : (w.emit e).fd .fltSeq 0 0 0 32 = w.fd .fltSeq 0 0 0 32 := by rw [State.fd, hemit, State.fd]
  have hall : SameRegs (.gateStat :: logRegs) s (w.emit e) := fun q m i hq => by
    rw [List.mem_cons, not_or] at hq
    rw [hrd q m i hq.2, hregs q m i (by simpa using hq.1)]
  have hout : (w.emit e).outbox = s.outbox ++ [e] := by rw [State.emit, hfault, hframe]
  have hkeep : ∃ regs gate a b c out,
      w.emit e = { s with regs := regs, gate := gate, outbox := out, fltSince := a, fltHeld := b, fltWait := c } := by
    rw [State.emit, hfault, hframe]
    exact ⟨_, _, _, _, _, _, rfl⟩
  have hgate' : (w.emit e).gate = v.gate := by rw [State.emit, hfault]
  generalize w.emit e = t at *
  refine ⟨?_, hgate'.trans hgate, hout, ?_, ?_, ?_, hall, ?_, ?_, ?_⟩
  · rw [State.flag, hrd _ _ _ (by decide)]; exact hflag
  · rw [Recorded, hseq', hrec, hseq]
  all_goals
    obtain ⟨_, _, _, _, _, _, rfl⟩ := hkeep
  · rfl
  · rfl
  · exact ⟨fun _ => rfl, fun _ => rfl⟩
  · exact ⟨rfl, rfl, rfl, rfl, rfl, rfl, rfl, rfl⟩
  · exact ⟨rfl, rfl, rfl, rfl, rfl, rfl⟩

/-- What is emptied after a change that neither cores, Bores nor the throttle levels show is emptied all the same. -/
theorem gateReset_after {rs : List Reg} {gate : GateSt} (hframe : ∃ regs, u = { s with regs := regs, gate := gate })
    (hregs : SameRegs rs s u) (hhbm : .hbmTemp ∉ rs) :
    let t := u.gateReset
    GateEmptied s t ∧ t.gate.filter = gate.filter ∧ GateUnsent s t ∧ t.ports = s.ports ∧ t.outbox = s.outbox ∧
      GateFrame (rs ++ [.coreStat, .dmaStat]) s t := by
  obtain ⟨⟨hwords, hebb, hmsgs, hlink, hthr, hcomplete, hstate, hcount, hlat, hdone⟩, hfilter, hunsent, hports, hout,
    hsame, hmem, hunits, hrest⟩ :=
    gateReset_spec u
  have hthr' : u.throttled = s.throttled := throttled_congr fun k => hregs _ _ _ hhbm
  dsimp only
  generalize u.gateReset = t at *
  obtain ⟨regs, rfl⟩ := hframe
  refine ⟨⟨hwords, hebb, hmsgs, hlink, hthr.trans hthr', hcomplete, hstate, hcount, hlat, hdone⟩, hfilter, hunsent, hports, hout,
    fun q m i hq => ?_, hmem, hunits, hrest⟩
  simp only [List.mem_cons, List.mem_append, List.not_mem_nil, or_false, not_or] at hq
  obtain ⟨hstat, hrs, hcore, hdma⟩ := hq
  rw [hsame q m i (by simp [hstat, hcore, hdma]), hregs q m i hrs]

theorem exec_gateDisable {a : Agent} (h : MayWrite s a .gateCfg) : exec (.gateDisable a) s = .next s.gateOff :=
  congrArg Host.Outcome.next (s.gated_of_mayWrite 0 0 (fun s => s.gateOff) h)

theorem exec_gabort {a : Agent} (h : MayWrite s a .rcvCtl) (hquiet : s.quiet = true) :
    exec (.gabort a) s = .next (State.gateReset { s with gate := { s.gate with filter := true } }) := by
  have hwrite : s.rcvWrite 4 = State.gateReset { s with gate := { s.gate with filter := true } } := by
    rw [State.rcvWrite, hquiet]
    rfl
  rw [← hwrite]
  exact congrArg Host.Outcome.next (s.gated_of_mayWrite 0 0 (fun s => s.rcvWrite 4) h)

/-! ### Contributions that waited for the new step -/

/-- The collector takes the contribution of a core that waits (R398). -/
def State.gateResume (s : State) (n : Nat) : State :=
  match s.gcontWaiting n with
  | some f => (s.gateAccept n (vAt f.slots 0)).doneFlight n f.fid
  | none => s

theorem gateResume_of_none (h : s.gcontWaiting n = none) : s.gateResume n = s := by rw [State.gateResume, h]

/-- What the collector changes when it takes a core's word: the word, its counts, and the core's latch. -/
theorem gateAccept_spec (s : State) (n : Nat) (v : W64) :
    let t := s.gateAccept n v
    (∀ m, Sparse.get 0#64 t.gate.words m = if n = m then coreWord v (s.core n).gateLat else Sparse.get 0#64 s.gate.words m) ∧
      t.core n = { s.core n with gateLat := 0#64 } ∧ SameCores n s t ∧ SameRegs [.gateStat] s t ∧
      ∃ regs cores words, t = { s with regs := regs, cores := cores, gate := { s.gate with words := words } } := by
  unfold State.gateAccept
  dsimp only
  generalize hw : coreWord v (s.core n).gateLat = w
  have hcore := s.core_modCore n fun c => { c with gateLat := 0#64 }
  have hcores : SameCores n s (s.modCore n fun c => { c with gateLat := 0#64 }) :=
    fun m hm => (s.core_setCore n m _).trans (if_neg (Ne.symm hm))
  have hmod := coresOnly_modCore s n fun c => { c with gateLat := 0#64 }
  have hrd (q : Reg) (m i : Nat) : (s.modCore n fun c => { c with gateLat := 0#64 }).rd q m i = s.rd q m i := rfl
  generalize (s.modCore n fun c => { c with gateLat := 0#64 }) = a at *
  obtain ⟨_, _, ha⟩ := hmod.frame
  generalize hb : ({ a with gate := { a.gate with words := Sparse.set 0#64 a.gate.words n w } } : State) = b
  have hbcore (m : Nat) : b.core m = a.core m := by rw [← hb]; rfl
  have hbrd (q : Reg) (m i : Nat) : b.rd q m i = a.rd q m i := by rw [← hb]; rfl
  have hbwords (m : Nat) : Sparse.get 0#64 b.gate.words m = if n = m then w else Sparse.get 0#64 s.gate.words m := by
    rw [← hb, ha]
    exact Sparse.get_set _ _ _ _ _
  have hbframe : ∃ regs cores words, b = { s with regs := regs, cores := cores, gate := { s.gate with words := words } } := by
    rw [← hb, ha]
    exact ⟨_, _, _, rfl⟩
  generalize hc : b.setF .gateStat 0 0 16 9 (b.fd .gateStat 0 0 16 9 + 1) = c
  have hcr : SameRegs [.gateStat] b c := hc ▸ sameRegs_wr b _ _ _ _
  have hco : OnlyRegs b c := hc ▸ onlyRegs_wr b _ _ _ _
  generalize ht : (if c.fd .gateStat 0 0 0 2 = 0 then c.setF .gateStat 0 0 0 2 1 else c) = t
  have htr : SameRegs [.gateStat] c t ∧ OnlyRegs c t := by
    rw [← ht]
    split
    · exact ⟨sameRegs_wr c _ _ _ _, onlyRegs_wr c _ _ _ _⟩
    · exact ⟨fun _ _ _ _ => rfl, onlyRegs_refl c⟩
  obtain ⟨htr, hto⟩ := htr
  have hall : OnlyRegs b t := onlyRegs_trans hco hto
  have htcore (m : Nat) : t.core m = b.core m := core_of_onlyRegs hall m
  obtain ⟨regs, hall⟩ := hall
  obtain ⟨_, _, _, hbframe⟩ := hbframe
  refine ⟨fun m => ?_, ?_, fun m hm => ?_, fun q m i hq => ?_, ?_⟩
  · rw [hall]; exact hbwords m
  · rw [htcore, hbcore, hcore]
  · rw [htcore, hbcore, hcores m hm]
  · rw [htr q m i hq, hcr q m i hq, hbrd, hrd]
  · rw [hall, hbframe]; exact ⟨_, _, _, rfl⟩

/-- A step of the collector changes, beside cores and its registers, only the words it has taken. -/
structure Resumes (s t : State) : Prop where
  regs : SameRegs [.gateStat, .coreStat, .dmaStat] s t
  frame : ∃ regs cores words, t = { s with regs := regs, cores := cores, gate := { s.gate with words := words } }

theorem Resumes.refl (s : State) : Resumes s s := ⟨fun _ _ _ _ => rfl, _, _, _, rfl⟩

theorem Resumes.trans (h : Resumes s t) (h' : Resumes t u) : Resumes s u where
  regs := sameRegs_trans h.regs h'.regs
  frame := by
    obtain ⟨_, _, _, rfl⟩ := h.frame
    obtain ⟨_, _, _, rfl⟩ := h'.frame
    exact ⟨_, _, _, rfl⟩

theorem gateResume_spec (s : State) (n : Nat) :
    Resumes s (s.gateResume n) ∧ SameCores n s (s.gateResume n) ∧
      (∀ m, m ≠ n → Sparse.get 0#64 (s.gateResume n).gate.words m = Sparse.get 0#64 s.gate.words m) ∧
      ∀ f, s.gcontWaiting n = some f → Sparse.get 0#64 (s.gateResume n).gate.words n = coreWord (vAt f.slots 0) (s.core n).gateLat ∧
        FlightDone (s.gateResume n) n f.fid ∧ ((s.gateResume n).core n).gateLat = 0#64 := by
  unfold State.gateResume
  cases hf : s.gcontWaiting n with
  | none => exact ⟨.refl s, fun _ _ => rfl, fun _ _ => rfl, fun _ h => absurd h (by simp)⟩
  | some f =>
    dsimp only
    obtain ⟨g, hg⟩ := exists_find?_fid hf
    obtain ⟨hwords, hcore, hcores, hregs, hframe⟩ := gateAccept_spec s n (vAt f.slots 0)
    generalize s.gateAccept n (vAt f.slots 0) = u at *
    have hend := coresOnly_doneFlight u n f.fid
    have hg' : (u.core n).flights.find? (fun h => h.fid == f.fid) = some g := by rw [hcore]; exact hg
    have hdone := flightDone_doneFlight hg'
    have hlat : ((u.doneFlight n f.fid).core n).gateLat = (u.core n).gateLat := by rw [State.doneFlight, State.core_updCore]
    have hcores' : SameCores n u (u.doneFlight n f.fid) := sameCores_updCore u n _
    generalize u.doneFlight n f.fid = t at *
    obtain ⟨_, _, _, hframe⟩ := hframe
    obtain ⟨_, _, ht⟩ := hend.frame
    have hgate : t.gate = u.gate := by rw [ht]
    refine ⟨⟨fun q m i hq => ?_, ?_⟩, fun m hm => ?_, fun m hm => ?_, fun f' h => ?_⟩
    · simp only [List.mem_cons, List.not_mem_nil, or_false, not_or] at hq
      rw [hend.regs q m i (by simp [hq]), hregs q m i (by simp [hq])]
    · rw [ht, hframe]; exact ⟨_, _, _, rfl⟩
    · rw [hcores' m hm, hcores m hm]
    · rw [hgate, hwords, if_neg (Ne.symm hm)]
    · obtain rfl := Option.some.inj h
      exact ⟨by rw [hgate, hwords, if_pos rfl], hdone, by rw [hlat, hcore]⟩

/-- The collector of a new step with the contributions that waited. -/
theorem gateResume_foldl (s : State) (k : Nat) :
    let t := (List.range k).foldl State.gateResume s
    Resumes s t ∧ (∀ m, k ≤ m → Sparse.get 0#64 t.gate.words m = Sparse.get 0#64 s.gate.words m) ∧
      (∀ m, m < k → Sparse.get 0#64 t.gate.words m = match s.gcontWaiting m with
        | some f => coreWord (vAt f.slots 0) (s.core m).gateLat
        | none => Sparse.get 0#64 s.gate.words m) ∧
      (∀ m f, m < k → s.gcontWaiting m = some f → FlightDone t m f.fid ∧ (t.core m).gateLat = 0#64) ∧
      ((∀ m, m < k → s.gcontWaiting m = none) → t = s) := by
  induction k with
  | zero => exact ⟨.refl s, fun _ _ => rfl, fun m hm => absurd hm (Nat.not_lt_zero m), fun m _ hm => absurd hm (Nat.not_lt_zero m), fun _ => rfl⟩
  | succ k ih =>
    obtain ⟨hres, hafter, hbefore, hdone, hnone⟩ := ih
    have hcore : ((List.range k).foldl State.gateResume s).core k = s.core k :=
      (core_foldl_range (F := State.gateResume) (fun s n m hm => (gateResume_spec s n).2.1 m hm) s k).1 k (Nat.le_refl k)
    dsimp only
    rw [List.range_succ, List.foldl_append, List.foldl_cons, List.foldl_nil]
    generalize (List.range k).foldl State.gateResume s = u at *
    have hwait := gcontWaiting_congr hcore
    obtain ⟨hstep, hcores, hwords, hown⟩ := gateResume_spec u k
    refine ⟨hres.trans hstep, fun m hm => ?_, fun m hm => ?_, fun m f hm hf => ?_, fun hall => ?_⟩
    · rw [hwords m (by omega), hafter m (by omega)]
    · obtain rfl | hlt := Nat.eq_or_lt_of_le (Nat.le_of_lt_succ hm)
      · cases hf : s.gcontWaiting m with
        | none =>
          dsimp only
          rw [gateResume_of_none (hwait.trans hf), hafter m (Nat.le_refl m)]
        | some f =>
          dsimp only
          rw [(hown f (hwait.trans hf)).1, hcore]
      · rw [hwords m (Nat.ne_of_lt hlt), hbefore m hlt]
    · obtain rfl | hlt := Nat.eq_or_lt_of_le (Nat.le_of_lt_succ hm)
      · exact (hown f (hwait.trans hf)).2
      · rw [FlightDone, hcores m (Nat.ne_of_lt hlt)]
        exact hdone m f hlt hf
    · rw [gateResume_of_none (hwait.trans (hall k (Nat.lt_succ_self k))), hnone fun m hm => hall m (Nat.lt_succ_of_lt hm)]

end Sys2Proof.Machine
end

section
/-! SUPPORT. The job-wide word at the Ebb dies (R168, R271, R300, R303): registers that record what happens beside, and what a die makes of
the word. -/

namespace Sys2Proof.Machine

open Sys2Proof.Claims

variable {s t u : State}

/-! ### What is only recorded -/

/-- Registers that reports, tide values and counts of refused accesses stand in. -/
def sideRegs : List Reg :=
  [.spdStat, .sltChkcnt, .sltStat, .sltChkaddr, .hbmChkcnt, .hbmStat, .hbmChkaddr, .secSwdrop, .boreStat, .ebbSnapstat, .tideLscale, .tideLsstat,
    .tideLsevt, .tideBcp, .tidePos, .tideStepval] ++ logRegs

/-- Only registers of `sideRegs`, what the chip has sent and asked of the host, and the fault log's bookkeeping change. -/
structure Side (s t : State) : Prop where
  regs : SameRegs sideRegs s t
  frame : ∃ regs outbox biOut a b w, t = { s with regs := regs, outbox := outbox, biOut := biOut, fltSince := a, fltHeld := b, fltWait := w }

theorem Side.refl (s : State) : Side s s := ⟨fun _ _ _ _ => rfl, _, _, _, _, _, _, rfl⟩

theorem Side.trans (h : Side s t) (h' : Side t u) : Side s u where
  regs := sameRegs_trans h.regs h'.regs
  frame := by
    obtain ⟨_, _, _, _, _, _, rfl⟩ := h.frame
    obtain ⟨_, _, _, _, _, _, rfl⟩ := h'.frame
    exact ⟨_, _, _, _, _, _, rfl⟩

theorem Side.ite (p : Prop) [Decidable p] (h : Side s t) (h' : Side s u) : Side s (if p then t else u) := by
  split
  · exact h
  · exact h'

theorem Side.ebb_eq (h : Side s t) (e : Nat) : t.ebb e = s.ebb e := by
  obtain ⟨_, _, _, _, _, _, rfl⟩ := h.frame
  rfl

theorem side_wr {r : Reg} {n i : Nat} {v : W64} (h : r ∈ sideRegs) : Side s (s.wr r n i v) where
  regs := sameRegs_mono (sameRegs_wr s _ _ _ _) (by simpa using h)
  frame := by
    obtain ⟨_, hw⟩ := onlyRegs_wr s r n i v
    exact ⟨_, _, _, _, _, _, hw⟩

theorem side_setF {r : Reg} {n i lo len x : Nat} (h : r ∈ sideRegs) : Side s (s.setF r n i lo len x) := side_wr h

theorem side_raise {r : Reg} {n i k : Nat} (h : r ∈ sideRegs) : Side s (s.raise r n i k) := side_wr h

theorem side_count {r : Reg} {n i lo len k : Nat} (h : r ∈ sideRegs) : Side s (s.count r n i lo len k) := side_wr h

theorem side_fault {f : FaultRec} : Side s (s.fault f) where
  regs := sameRegs_mono (sameRegs_fault s f) (by decide)
  frame := by
    obtain ⟨⟨_, _, _, _, h⟩, -⟩ := s.fault_spec f
    exact ⟨_, _, _, _, _, _, h⟩

theorem side_reportUnit {c : Ctx} {f : Nat × Nat} : Side s (s.reportUnit c f) := by
  unfold State.reportUnit
  dsimp only
  split
  · split
    · exact side_raise (by decide)
    · split
      · exact .refl s
      · exact (side_raise (by decide)).trans side_fault
  · refine .trans ((side_count (by decide)).trans (side_raise (by decide))) (.trans (.ite _ (.refl _) (side_wr (by decide))) side_fault)
  · refine .trans ((side_count (by decide)).trans (side_raise (by decide))) (.trans (.ite _ (.refl _) (side_wr (by decide))) side_fault)
  · refine .trans ((side_count (by decide)).trans (side_raise (by decide))) (.trans (.ite _ (.refl _) (side_wr (by decide))) side_fault)
  · exact .refl s

theorem side_reportUnits {c : Ctx} {fs : List (Nat × Nat)} : Side s (s.reportUnits c fs) :=
  foldl_induction Side.refl (fun _ _ _ => Side.trans) (fun _ _ => side_reportUnit) fs s

theorem side_snoopUnit (s : State) (kind unit : Nat) : Side s (s.snoopUnit kind unit) :=
  .ite _ (.refl s) ⟨fun _ _ _ _ => rfl, _, _, _, _, _, _, rfl⟩

/-- An access that waits leaves what it asks of the host, or its count as discarded (R457, R523). -/
theorem side_heldBack {reads writes : List Nat} (h : s.heldBack reads writes = some t) : Side s t := by
  rw [State.heldBack] at h
  split at h
  · obtain rfl := Option.some.inj h
    exact side_count (by decide)
  · split at h
    · obtain rfl := Option.some.inj h
      exact .refl s
    · dsimp only at h
      split at h
      · cases h
      · obtain rfl := Option.some.inj h
        exact (foldl_induction Side.refl (fun _ _ _ => Side.trans) (fun s u => side_snoopUnit s 1 u) _ s).trans
          (foldl_induction Side.refl (fun _ _ _ => Side.trans) (fun s u => side_snoopUnit s 2 u) _ _)

/-! ### The tide of a die (R271, R300) -/

theorem side_tideGate (s : State) (e : Nat) (skip : Bool) (step : Nat) : Side s (s.tideGate e skip step) := by
  have hput (u : State) (x y z : Nat) :
      Side u (((u.setF .tideLscale e 0 0 8 x).setF .tideLscale e 0 32 32 y).setF .tideLsstat e 0 0 16 z) :=
    ((side_setF (by decide)).trans (side_setF (by decide))).trans (side_setF (by decide))
  unfold State.tideGate
  dsimp only
  have hbefore : Side s ((s.setF .tideLscale e 0 24 8 (s.fd .tideLscale e 0 0 8)).setF .tideLsstat e 0 16 48 step) :=
    (side_setF (by decide)).trans (side_setF (by decide))
  refine hbefore.trans ?_
  generalize (s.setF .tideLscale e 0 24 8 (s.fd .tideLscale e 0 0 8)).setF .tideLsstat e 0 16 48 step = u
  split
  · refine .trans (side_count (by decide)) (.ite _ (hput _ _ _ _) ?_)
    exact .trans (side_raise (by decide)) (hput _ _ _ _)
  · split
    · exact .ite _ (hput _ _ _ _) (.trans (side_raise (by decide)) (hput _ _ _ _))
    · exact hput _ _ _ _

theorem side_tideCommit (s : State) (e : Nat) : Side s (s.tideCommit e) :=
  (((side_wr (by decide)).trans (side_setF (by decide))).trans (side_wr (by decide))).trans (side_wr (by decide))

/-! ### A die at the word -/

theorem State.ebb_modEbb (s : State) (e d : Nat) (f : EbbSt → EbbSt) :
    (s.modEbb e f).ebb d = if e = d then f (s.ebb e) else s.ebb d := Sparse.get_set _ _ _ _ _

/-- As `Side`, with die `e` changed too. -/
structure DieSide (e : Nat) (s t : State) : Prop where
  regs : SameRegs sideRegs s t
  others : ∀ d, d ≠ e → t.ebb d = s.ebb d
  frame : ∃ regs outbox biOut ebbs a b w,
    t = { s with regs := regs, outbox := outbox, biOut := biOut, ebbs := ebbs, fltSince := a, fltHeld := b, fltWait := w }

section
variable {e : Nat}

theorem DieSide.trans (h : DieSide e s t) (h' : DieSide e t u) : DieSide e s u where
  regs := sameRegs_trans h.regs h'.regs
  others d hd := (h'.others d hd).trans (h.others d hd)
  frame := by
    obtain ⟨_, _, _, _, _, _, _, rfl⟩ := h.frame
    obtain ⟨_, _, _, _, _, _, _, rfl⟩ := h'.frame
    exact ⟨_, _, _, _, _, _, _, rfl⟩

theorem Side.dieSide (h : Side s t) (e : Nat) : DieSide e s t where
  regs := h.regs
  others d _ := h.ebb_eq d
  frame := by
    obtain ⟨_, _, _, _, _, _, rfl⟩ := h.frame
    exact ⟨_, _, _, _, _, _, _, rfl⟩

theorem dieSide_modEbb (s : State) (e : Nat) (f : EbbSt → EbbSt) : DieSide e s (s.modEbb e f) where
  regs _ _ _ _ := rfl
  others d hd := (s.ebb_modEbb e d f).trans (if_neg (Ne.symm hd))
  frame := ⟨_, _, _, _, _, _, _, rfl⟩

end

/-- Die 0 keeps its entry, whether it reads the step record now or waits for it. -/
theorem takeSrec_spec (s : State) : DieSide 0 s s.takeSrec ∧ ((s.ebb 0).entry.isSome = true → (s.takeSrec.ebb 0).entry.isSome = true) := by
  unfold State.takeSrec
  split
  · exact ⟨(Side.refl s).dieSide 0, id⟩
  · dsimp only
    split
    · next hheld =>
      have hside := side_heldBack hheld
      exact ⟨(hside.dieSide 0).trans (dieSide_modEbb _ 0 _), fun h => by rw [State.ebb_modEbb, if_pos rfl, hside.ebb_eq]; exact h⟩
    · refine ⟨((Side.trans side_reportUnits (.ite _ side_fault (.refl _))).dieSide 0).trans (dieSide_modEbb _ 0 _), fun _ => ?_⟩
      rw [State.ebb_modEbb, if_pos rfl]
      rfl

/-- The stages of a die at the word that only record what happens: its tide, its entry, its snapshot's due mark. -/
def State.ebbRecord (s : State) (e step : Nat) (word : W64) : State :=
  let skip := gateOverflow word
  let s := s.tideGate e skip step
  let s := if skip then s else s.tideCommit e
  let serve := s.ebbState e == 1 && !skip && s.flag .ebbSnapcfg e 2 8 && (s.ebb e).snap.isNone
  let s := if e = 0 then (s.modEbb 0 fun x => { x with entry := some (s.strandEntry step word (!skip) serve) }).takeSrec else s
  if serve then s.setF .ebbSnapstat e 0 49 1 1 else s

theorem ebbRecord_spec (s : State) (e step : Nat) (word : W64) :
    DieSide e s (s.ebbRecord e step word) ∧ (e = 0 → ((s.ebbRecord e step word).ebb 0).entry.isSome = true) := by
  unfold State.ebbRecord
  dsimp only
  have htide : Side s (if gateOverflow word = true then s.tideGate e (gateOverflow word) step
      else (s.tideGate e (gateOverflow word) step).tideCommit e) :=
    .ite _ (side_tideGate s e _ step) ((side_tideGate s e _ step).trans (side_tideCommit _ e))
  generalize (if gateOverflow word = true then s.tideGate e (gateOverflow word) step
      else (s.tideGate e (gateOverflow word) step).tideCommit e) = u at *
  generalize hserve : (u.ebbState e == 1 && !gateOverflow word && u.flag .ebbSnapcfg e 2 8 && (u.ebb e).snap.isNone) = serve
  have hlast (v : State) : Side v (if serve = true then v.setF .ebbSnapstat e 0 49 1 1 else v) := .ite _ (side_setF (by decide)) (.refl v)
  obtain rfl | he := eq_or_ne e 0
  · rw [if_pos rfl]
    obtain ⟨htake, hentry⟩ := takeSrec_spec (u.modEbb 0 fun x => { x with entry := some (u.strandEntry step word (!gateOverflow word) serve) })
    have hsome := hentry (by rw [State.ebb_modEbb, if_pos rfl]; rfl)
    have hmod := dieSide_modEbb u 0 fun x => { x with entry := some (u.strandEntry step word (!gateOverflow word) serve) }
    generalize State.takeSrec _ = v at *
    exact ⟨(((htide.dieSide 0).trans hmod).trans htake).trans ((hlast v).dieSide 0), fun _ => by rw [(hlast v).ebb_eq]; exact hsome⟩
  · rw [if_neg he]
    exact ⟨(htide.trans (hlast u)).dieSide e, fun h => absurd h he⟩

/-- What a staged die takes over from the word (R303). -/
def EbbSt.hear (x : EbbSt) (step own : Nat) (commit serve : Bool) : EbbSt :=
  { x with hold := true, step := step, wstep := own, commit := commit, strand := true, passed := false,
           snap := if serve then some step else x.snap }

theorem State.ebbWord_eq (s : State) (e step : Nat) (word : W64) : ∃ serve, s.ebbWord e step word =
    let u := s.setF .ebbStep e 0 0 48 (s.fd .ebbStep e 0 0 48 + 1)
    let v := u.ebbRecord e step word
    let w := if gateOverflow word then u.tideGate e (gateOverflow word) step else (u.tideGate e (gateOverflow word) step).tideCommit e
    if w.ebbState e == 1 then (v.setEbbState e 2).modEbb e fun x => x.hear step (s.fd .ebbStep e 0 0 48) (!gateOverflow word) serve else v :=
  ⟨_, rfl⟩

/-- What the word leaves at a die (R168, R303). -/
structure DieHears (e step : Nat) (word : W64) (s t : State) : Prop where
  regs : SameRegs ([.ebbStep, .ebbStat] ++ sideRegs) s t
  otherRegs : ∀ q d i, q ∉ sideRegs → d ≠ e → t.rd q d i = s.rd q d i
  others : ∀ d, d ≠ e → t.ebb d = s.ebb d
  counts : t.fd .ebbStep e 0 0 48 = (s.fd .ebbStep e 0 0 48 + 1) % 2 ^ 48
  staged : s.ebbState e = 1 →
    t.ebbState e = 2 ∧ (t.ebb e).hold = true ∧ (t.ebb e).step = step ∧ (t.ebb e).commit = !gateOverflow word
  idle : s.ebbState e ≠ 1 → t.ebbState e = s.ebbState e
  entry : e = 0 → (t.ebb 0).entry.isSome = true
  frame : ∃ regs outbox biOut ebbs a b w,
    t = { s with regs := regs, outbox := outbox, biOut := biOut, ebbs := ebbs, fltSince := a, fltHeld := b, fltWait := w }

theorem ebbWord_spec (s : State) (e step : Nat) (word : W64) : DieHears e step word s (s.ebbWord e step word) := by
  obtain ⟨serve, h⟩ := s.ebbWord_eq e step word
  rw [h]
  dsimp only
  generalize hu : s.setF .ebbStep e 0 0 48 (s.fd .ebbStep e 0 0 48 + 1) = u
  have hcount : u.fd .ebbStep e 0 0 48 = (s.fd .ebbStep e 0 0 48 + 1) % 2 ^ 48 := hu ▸ s.fd_setF_same _ _ _ _ _ _ (by decide)
  have huregs (q : Reg) (d i : Nat) (hq : q ≠ .ebbStep ∨ d ≠ e) : u.rd q d i = s.rd q d i := by
    rw [← hu, State.setF_eq]
    exact State.rd_wr_ne _ _ _ _ _ _ _ _ fun ⟨hr, hd, _⟩ => hq.elim (· hr.symm) (· hd.symm)
  obtain ⟨_, huframe⟩ : OnlyRegs s u := hu ▸ onlyRegs_wr s _ _ _ _
  have huebb (d : Nat) : u.ebb d = s.ebb d := by rw [huframe]; rfl
  have hustate : u.ebbState e = s.ebbState e := by rw [State.ebbState, State.fd, huregs _ _ _ (.inl (by decide)), State.ebbState, State.fd]
  have htide : Side u (if gateOverflow word = true then u.tideGate e (gateOverflow word) step
      else (u.tideGate e (gateOverflow word) step).tideCommit e) :=
    .ite _ (side_tideGate u e _ step) ((side_tideGate u e _ step).trans (side_tideCommit _ e))
  have hwstate : (if gateOverflow word = true then u.tideGate e (gateOverflow word) step
      else (u.tideGate e (gateOverflow word) step).tideCommit e).ebbState e = s.ebbState e := by
    rw [State.ebbState, State.fd, htide.regs _ _ _ (by decide), ← State.fd]
    exact hustate
  rw [hwstate]
  obtain ⟨hrecord, hentry⟩ := ebbRecord_spec u e step word
  generalize u.ebbRecord e step word = v at *
  have hvstate : v.ebbState e = s.ebbState e := by
    rw [State.ebbState, State.fd, hrecord.regs _ _ _ (by decide), ← State.fd]
    exact hustate
  have hvcount : v.fd .ebbStep e 0 0 48 = (s.fd .ebbStep e 0 0 48 + 1) % 2 ^ 48 := by
    rw [State.fd, hrecord.regs _ _ _ (by decide)]; exact hcount
  obtain ⟨_, _, _, _, _, _, _, hvframe⟩ := hrecord.frame
  have hvrd (q : Reg) (d i : Nat) (hq : q ∉ sideRegs) (hd : q ≠ .ebbStep ∨ d ≠ e) : v.rd q d i = s.rd q d i := by
    rw [hrecord.regs q d i hq, huregs q d i hd]
  have hvothers (d : Nat) (hd : d ≠ e) : v.ebb d = s.ebb d := by rw [hrecord.others d hd, huebb]
  by_cases hst : s.ebbState e = 1
  · rw [if_pos (beq_iff_eq.2 hst)]
    generalize hx : v.setEbbState e 2 = x
    have hxstate : x.fd .ebbStat e 0 16 3 = 2 := hx ▸ v.fd_setF_same .ebbStat e 0 16 3 2 (by decide)
    have hxregs (q : Reg) (d i : Nat) (hq : q ≠ .ebbStat ∨ d ≠ e) : x.rd q d i = v.rd q d i := by
      rw [← hx, State.setEbbState, State.setF_eq]
      exact State.rd_wr_ne _ _ _ _ _ _ _ _ fun ⟨hr, hd, _⟩ => hq.elim (· hr.symm) (· hd.symm)
    obtain ⟨_, hxframe⟩ : OnlyRegs v x := hx ▸ onlyRegs_wr v _ _ _ _
    have hxebb (d : Nat) : x.ebb d = v.ebb d := by rw [hxframe]; rfl
    have hrd (q : Reg) (d i : Nat) (f : EbbSt → EbbSt) : (x.modEbb e f).rd q d i = x.rd q d i := rfl
    have hebb := x.ebb_modEbb e e fun y => y.hear step (s.fd .ebbStep e 0 0 48) (!gateOverflow word) serve
    rw [if_pos rfl] at hebb
    refine ⟨fun q d i hq => ?_, fun q d i hq hd => ?_, fun d hd => ?_, ?_, fun _ => ⟨hxstate, ?_, ?_, ?_⟩, fun h => absurd hst h,
      fun he => ?_, ?_⟩
    · simp only [List.mem_append, List.mem_cons, List.not_mem_nil, or_false, not_or] at hq
      obtain ⟨⟨hstep, hstat⟩, hside⟩ := hq
      rw [hrd, hxregs q d i (.inl hstat), hvrd q d i hside (.inl hstep)]
    · rw [hrd, hxregs q d i (.inr hd), hvrd q d i hq (.inr hd)]
    · rw [State.ebb_modEbb, if_neg (Ne.symm hd), hxebb, hvothers d hd]
    · rw [State.fd, hrd, hxregs _ _ _ (.inl (by decide))]; exact hvcount
    · rw [hebb]; rfl
    · rw [hebb]; rfl
    · rw [hebb]; rfl
    · subst he
      rw [hebb, EbbSt.hear, hxebb]
      exact hentry rfl
    · rw [State.modEbb, hxframe, hvframe, huframe]; exact ⟨_, _, _, _, _, _, _, rfl⟩
  · rw [if_neg (by simpa using hst)]
    refine ⟨fun q d i hq => ?_, fun q d i hq hd => hvrd q d i hq (.inr hd), hvothers, hvcount, fun h => absurd h hst,
      fun _ => hvstate, hentry, ?_⟩
    · simp only [List.mem_append, List.mem_cons, List.not_mem_nil, or_false, not_or] at hq
      exact hvrd q d i hq.2 (.inl hq.1.1)
    · rw [hvframe, huframe]; exact ⟨_, _, _, _, _, _, _, rfl⟩

end Sys2Proof.Machine
end

section
/-! SUPPORT. Noise records (R392, Table 11.9): the record of an axis at the gate word, where it stands, and the accumulators it
empties. -/

namespace Sys2Proof.Machine

open Sys2Proof.Claims

variable {s t u : State} {a : Nat}

/-! ### Writes leave good units good -/

theorem keepsGood_refl (bad : List (Nat × Nat)) : KeepsGood bad bad := fun _ h => h

theorem keepsGood_trans {bad bad' bad'' : List (Nat × Nat)} (h : KeepsGood bad bad') (h' : KeepsGood bad' bad'') : KeepsGood bad bad'' :=
  fun g hg => h' g (h g hg)

theorem keepsGood_writeUnit (s : State) (g : Nat) (ws : List MWrite) : KeepsGood s.bad (s.writeUnit g ws).1.bad := by
  obtain ⟨⟨_, hput⟩, -⟩ := s.putBytes_spec ws
  unfold State.writeUnit
  dsimp only
  split
  · exact keepsGood_refl _
  · split
    · intro x hx
      rw [hput]
      exact (Sparse.get_set _ _ _ _ _).trans (by rw [hx]; split <;> rfl)
    · split
      · exact keepsGood_refl _
      · rw [hput]
        exact keepsGood_refl _

theorem keepsGood_writeAll (s : State) (ws : List MWrite) : KeepsGood s.bad (s.writeAll ws).1.bad := by
  rw [State.writeAll_foldl]
  generalize groupRuns _ ws = gs
  suffices H : ∀ p : State × List (Nat × Nat), KeepsGood p.1.bad (gs.foldl writeStep p).1.bad from H (s, [])
  induction gs with
  | nil => exact fun p => keepsGood_refl _
  | cons g gs ih => exact fun p => keepsGood_trans (keepsGood_writeUnit p.1 g.1 g.2) (ih (writeStep p g))

/-! ### What a noise record changes -/

/-- Registers of `sideRegs`, memory, Bores' noise and what is asked of the host change; good units stay good, and the Bores keep what
they carry. -/
structure NoiseStep (s t : State) : Prop where
  regs : SameRegs sideRegs s t
  good : KeepsGood s.bad t.bad
  carries : ∀ a, (t.bore a).colls = (s.bore a).colls ∧ (t.bore a).held = (s.bore a).held ∧ (t.bore a).spent = (s.bore a).spent
  frame : ∃ regs mem bad outbox biOut bores x y w, t = { s with
    regs := regs, mem := mem, bad := bad, outbox := outbox, biOut := biOut, bores := bores, fltSince := x, fltHeld := y, fltWait := w }

theorem NoiseStep.trans (h : NoiseStep s t) (h' : NoiseStep t u) : NoiseStep s u where
  regs := sameRegs_trans h.regs h'.regs
  good := keepsGood_trans h.good h'.good
  carries a := by
    obtain ⟨hc, hh, hs⟩ := h.carries a
    obtain ⟨hc', hh', hs'⟩ := h'.carries a
    exact ⟨hc'.trans hc, hh'.trans hh, hs'.trans hs⟩
  frame := by
    obtain ⟨_, _, _, _, _, _, _, _, _, rfl⟩ := h.frame
    obtain ⟨_, _, _, _, _, _, _, _, _, rfl⟩ := h'.frame
    exact ⟨_, _, _, _, _, _, _, _, _, rfl⟩

theorem Side.noiseStep (h : Side s t) : NoiseStep s t where
  regs := h.regs
  good := by
    obtain ⟨_, _, _, _, _, _, rfl⟩ := h.frame
    exact keepsGood_refl _
  carries a := by
    obtain ⟨_, _, _, _, _, _, rfl⟩ := h.frame
    exact ⟨rfl, rfl, rfl⟩
  frame := by
    obtain ⟨_, _, _, _, _, _, rfl⟩ := h.frame
    exact ⟨_, _, _, _, _, _, _, _, _, rfl⟩

theorem Side.byte_eq (h : Side s t) (x : Nat) : t.byte x = s.byte x := by
  obtain ⟨_, _, _, _, _, _, rfl⟩ := h.frame
  rfl

theorem Side.bore_eq (h : Side s t) (b : Nat) : t.bore b = s.bore b := by
  obtain ⟨_, _, _, _, _, _, rfl⟩ := h.frame
  rfl

theorem noiseStep_refl (s : State) : NoiseStep s s := (Side.refl s).noiseStep

/-- A Bore whose noise alone changes. -/
theorem noiseStep_modBore {f : BoreSt → BoreSt} (hf : ∀ b, (f b).colls = b.colls ∧ (f b).held = b.held ∧ (f b).spent = b.spent) :
    NoiseStep s (s.modBore a f) where
  regs _ _ _ _ := rfl
  good := keepsGood_refl _
  carries b := by
    rw [State.bore_modBore]
    split
    · next h => exact h ▸ hf _
    · exact ⟨rfl, rfl, rfl⟩
  frame := ⟨_, _, _, _, _, _, _, _, _, rfl⟩

theorem noiseStep_writeAll (s : State) (ws : List MWrite) : NoiseStep s (s.writeAll ws).1 := by
  have hgood := keepsGood_writeAll s ws
  obtain ⟨⟨_, _, h⟩, -⟩ := s.writeAll_spec ws
  rw [h] at hgood ⊢
  exact ⟨fun _ _ _ _ => rfl, hgood, fun _ => ⟨rfl, rfl, rfl⟩, _, _, _, _, _, _, _, _, _, rfl⟩

theorem side_noiseErr (s : State) (a : Nat) : Side s (s.noiseErr a) := (side_raise (by decide)).trans side_fault

/-- A record that is due for a place: it is written if nothing holds its place back, and stands there if its unit passes its
check. -/
theorem noiseWrite_spec {ad : Nat} {bs : List Byte} (hnoise : (s.bore a).noise = some (ad, bs)) (hlen : bs.length = 32) :
    let t := s.noiseWrite a
    NoiseStep s t ∧ (∃ x, t.bore a = { s.bore a with noise := x }) ∧ (∀ b, b ≠ a → t.bore b = s.bore b) ∧
      (∀ x, ¬(ad ≤ x ∧ x < ad + 32) → t.byte x = s.byte x) ∧
      ((∀ i, i < 32 → s.unitGood (ad + i)) → MemoryOpen s [] ((List.range 32).map (ad + ·)) →
        (t.bore a).noise = none ∧ t.bytes ad 32 = bs) := by
  unfold State.noiseWrite
  rw [hnoise]
  dsimp only
  have hmod : NoiseStep s (s.modBore a fun b => { b with noise := none }) := noiseStep_modBore fun _ => ⟨rfl, rfl, rfl⟩
  have hbore (b : Nat) := s.bore_modBore a b fun b => { b with noise := none }
  have hubyte (x : Nat) : (s.modBore a fun b => { b with noise := none }).byte x = s.byte x := rfl
  have hucell (x : Nat) : (s.modBore a fun b => { b with noise := none }).cellStatus x = s.cellStatus x := rfl
  unfold State.accessing
  cases hheld : s.heldBack [] ((List.range 32).map (ad + ·)) with
  | some v =>
    have hside := side_heldBack hheld
    exact ⟨hside.noiseStep, ⟨(s.bore a).noise, by rw [hside.bore_eq]⟩, fun b _ => hside.bore_eq b, fun x _ => hside.byte_eq x,
      fun _ hopen => absurd (s.heldBack_of_open hopen) (by rw [hheld]; simp)⟩
  | none =>
    dsimp only
    generalize (s.modBore a fun b => { b with noise := none }) = u at *
    have hstep := noiseStep_writeAll u (wholeWrites ad bs)
    have haddr : ∀ w ∈ wholeWrites ad bs, ad ≤ w.addr ∧ w.addr < ad + 32 := by
      intro w hw
      obtain ⟨e, he, rfl⟩ := List.mem_map.1 hw
      obtain ⟨-, hlt, -⟩ := List.mem_zipIdx he
      simp only [MWrite.whole]
      omega
    have hother : ∀ x, ¬(ad ≤ x ∧ x < ad + 32) → (u.writeAll (wholeWrites ad bs)).1.byte x = u.byte x :=
      fun x hx => (u.writeAll_spec (wholeWrites ad bs)).2 x fun w hw h => hx (h ▸ haddr w hw)
    have hgood : (∀ i, i < 32 → s.unitGood (ad + i)) →
        (u.writeAll (wholeWrites ad bs)).2 = [] ∧ (u.writeAll (wholeWrites ad bs)).1.bytes ad 32 = bs := by
      intro h
      obtain ⟨bad, hall, -⟩ := u.writeAll_of_good (wholeWrites ad bs) fun w hw => by
        obtain ⟨hlo, hhi⟩ := haddr w hw
        obtain ⟨hscr, hcell⟩ := h (w.addr - ad) (by omega)
        rw [Nat.add_sub_cancel' hlo] at hscr hcell
        exact ⟨hscr, (hucell _).trans hcell⟩
      rw [hall]
      refine ⟨rfl, List.ext_getElem (by rw [State.bytes, List.length_map, List.length_range, hlen]) fun i hi hi' => ?_⟩
      have hbyte := byte_wholeWrites (s := u) ad bs (ad + i)
      rw [if_pos ⟨Nat.le_add_right _ _, by omega⟩, Nat.add_sub_cancel_left, List.getD_eq_getElem _ _ hi'] at hbyte
      simp only [State.bytes, List.getElem_map, List.getElem_range]
      exact hbyte
    have hwbore (b : Nat) : (u.writeAll (wholeWrites ad bs)).1.bore b = u.bore b := by
      obtain ⟨⟨_, _, h⟩, -⟩ := u.writeAll_spec (wholeWrites ad bs)
      rw [h]
      rfl
    generalize u.writeAll (wholeWrites ad bs) = r at *
    have hlast : Side r.1 (if r.2.isEmpty = true then r.1.reportUnits { src := 0x100 + a } r.2
        else (r.1.reportUnits { src := 0x100 + a } r.2).noiseErr a) :=
      .ite _ side_reportUnits (side_reportUnits.trans (side_noiseErr _ a))
    refine ⟨(hmod.trans hstep).trans hlast.noiseStep, ⟨none, ?_⟩, fun b hb => ?_, fun x hx => ?_, fun h _ => ⟨?_, ?_⟩⟩
    · rw [hlast.bore_eq, hwbore, hbore, if_pos rfl]
    · rw [hlast.bore_eq, hwbore, hbore, if_neg (Ne.symm hb)]
    · rw [hlast.byte_eq, hother x hx, hubyte]
    · rw [hlast.bore_eq, hwbore, hbore, if_pos rfl]
    · rw [← (hgood h).2]
      exact State.bytes_congr hlast.byte_eq ad 32

/-- The 32 bytes of the record of an axis (Table 11.9). -/
def noiseBytes (b : BoreSt) (step : Nat) : List Byte :=
  leBytes 6 step ++ leBytes 2 0 ++ leBytes 4 (noiseTotal b.sql).toNat ++ leBytes 4 (noiseTotal b.sqr).toNat ++
    leBytes 4 (Sparse.getN 0 b.ncol 0 256).sum ++ leBytes 4 (Sparse.getN 0 b.nelem 0 256).sum ++ leBytes 8 0

theorem length_noiseBytes (b : BoreSt) (step : Nat) : (noiseBytes b step).length = 32 := by
  simp [noiseBytes, length_leBytes]

/-- A Bore whose accumulators are empty. -/
def BoreSt.drained (b : BoreSt) : BoreSt := { b with sql := [], sqr := [], ncol := [], nelem := [] }

theorem State.noiseRecord_eq (s : State) (a step : Nat) : s.noiseRecord a step =
    if !s.flag .boreNsaddr a 0 63 then s
    else if NoiseAt s a % 32 ≠ 0 ∨ regionOf (NoiseAt s a) ≠ .hbm ∨ regionOf (NoiseAt s a + 31) ≠ .hbm then
      (s.modBore a BoreSt.drained).noiseErr a
    else ((s.modBore a BoreSt.drained).modBore a fun b => { b with noise := some (NoiseAt s a, noiseBytes (s.bore a) step) }).noiseWrite a := rfl

theorem noiseKept_iff : NoiseKept s a = true ↔ s.flag .boreNsaddr a 0 63 = true ∧
    ¬(NoiseAt s a % 32 ≠ 0 ∨ regionOf (NoiseAt s a) ≠ .hbm ∨ regionOf (NoiseAt s a + 31) ≠ .hbm) := by
  simp only [NoiseKept, Bool.and_eq_true, beq_iff_eq, not_or, not_not, and_assoc]

/-- What the record of an axis leaves (R392). -/
theorem noiseRecord_spec (s : State) (a step : Nat) :
    let t := s.noiseRecord a step
    NoiseStep s t ∧ (∀ b, b ≠ a → t.bore b = s.bore b) ∧
      (s.flag .boreNsaddr a 0 63 = true → (t.bore a).sql = [] ∧ (t.bore a).sqr = [] ∧ (t.bore a).ncol = [] ∧ (t.bore a).nelem = []) ∧
      (∀ x, (NoiseKept s a = true → ¬(NoiseAt s a ≤ x ∧ x < NoiseAt s a + 32)) → t.byte x = s.byte x) ∧
      (NoiseKept s a = true → (∀ i, i < 32 → s.unitGood (NoiseAt s a + i)) → MemoryOpen s [] ((List.range 32).map (NoiseAt s a + ·)) →
        t.bytes (NoiseAt s a) 32 = noiseBytes (s.bore a) step ∧ (t.bore a).noise = none) := by
  have hdrain : NoiseStep s (s.modBore a BoreSt.drained) := noiseStep_modBore fun _ => ⟨rfl, rfl, rfl⟩
  have hbore (b : Nat) := s.bore_modBore a b BoreSt.drained
  rw [State.noiseRecord_eq]
  have hkept := noiseKept_iff (s := s) (a := a)
  generalize hrec : noiseBytes (s.bore a) step = bs
  have hlen : bs.length = 32 := hrec ▸ length_noiseBytes _ _
  generalize NoiseAt s a = ad at *
  cases hflag : s.flag .boreNsaddr a 0 63 with
  | false =>
    rw [hflag] at hkept
    exact ⟨noiseStep_refl s, fun _ _ => rfl, fun h => absurd h (by simp), fun _ _ => rfl, fun h => absurd (hkept.1 h).1 (by simp)⟩
  | true =>
    dsimp only
    rw [if_neg (by simp)]
    by_cases hbad : ad % 32 ≠ 0 ∨ regionOf ad ≠ .hbm ∨ regionOf (ad + 31) ≠ .hbm
    · rw [if_pos hbad]
      have hside := side_noiseErr (s.modBore a BoreSt.drained) a
      refine ⟨hdrain.trans hside.noiseStep, fun b hb => ?_, fun _ => ?_, fun x _ => hside.byte_eq x, fun h => absurd hbad (hkept.1 h).2⟩
      · rw [hside.bore_eq, hbore, if_neg (Ne.symm hb)]
      · rw [hside.bore_eq, hbore, if_pos rfl]
        exact ⟨rfl, rfl, rfl, rfl⟩
    · rw [if_neg hbad]
      have hdue : NoiseStep (s.modBore a BoreSt.drained)
          ((s.modBore a BoreSt.drained).modBore a fun b => { b with noise := some (ad, bs) }) := noiseStep_modBore fun _ => ⟨rfl, rfl, rfl⟩
      have hbore' (b : Nat) := (s.modBore a BoreSt.drained).bore_modBore a b fun b => { b with noise := some (ad, bs) }
      have hbyte (x : Nat) : ((s.modBore a BoreSt.drained).modBore a fun b => { b with noise := some (ad, bs) }).byte x = s.byte x := rfl
      have hgood (x : Nat) : s.unitGood x → ((s.modBore a BoreSt.drained).modBore a fun b => { b with noise := some (ad, bs) }).unitGood x := id
      have hopen : MemoryOpen s [] ((List.range 32).map (ad + ·)) →
          MemoryOpen ((s.modBore a BoreSt.drained).modBore a fun b => { b with noise := some (ad, bs) }) [] ((List.range 32).map (ad + ·)) := id
      generalize ((s.modBore a BoreSt.drained).modBore a fun b => { b with noise := some (ad, bs) }) = u at *
      have hself := hbore' a
      rw [if_pos rfl, hbore, if_pos rfl] at hself
      obtain ⟨hstep, ⟨y, hown⟩, hothers, hbytes, hwritten⟩ := noiseWrite_spec (s := u) (a := a) (by rw [hself]) hlen
      refine ⟨(hdrain.trans hdue).trans hstep, fun b hb => ?_, fun _ => ?_, fun x hx => ?_, fun _ hok hmo => ?_⟩
      · rw [hothers b hb, hbore', if_neg (Ne.symm hb), hbore, if_neg (Ne.symm hb)]
      · rw [hown, hself]
        exact ⟨rfl, rfl, rfl, rfl⟩
      · rw [hbytes x (hx (hkept.2 ⟨hflag, hbad⟩)), hbyte]
      · obtain ⟨hnone, hrecord⟩ := hwritten (fun i hi => hgood _ (hok i hi)) (hopen hmo)
        exact ⟨hrecord, hnone⟩

/-! ### The records of every axis -/

theorem noiseAt_congr (h : t.rd .boreNsaddr a 0 = s.rd .boreNsaddr a 0) : NoiseAt t a = NoiseAt s a := by
  rw [NoiseAt, State.fd, h, NoiseAt, State.fd]

theorem noiseKept_congr (h : t.rd .boreNsaddr a 0 = s.rd .boreNsaddr a 0) : NoiseKept t a = NoiseKept s a := by
  rw [NoiseKept, NoiseKept, noiseAt_congr h, State.flag, h, State.flag]

theorem regionOf_eq_hbm_iff {x : Nat} : regionOf x = .hbm ↔ x < 0x7FFF000000 := by
  unfold regionOf
  constructor
  · intro h
    by_contra hx
    rw [if_neg hx] at h
    split_ifs at h
  · exact fun h => if_pos h

theorem regionOf_of_noiseKept (h : NoiseKept s a = true) {i : Nat} (hi : i < 32) : regionOf (NoiseAt s a + i) = .hbm := by
  obtain ⟨-, hok⟩ := noiseKept_iff.1 h
  simp only [not_or, not_not] at hok
  have hlast := regionOf_eq_hbm_iff.1 hok.2.2
  exact regionOf_eq_hbm_iff.2 (by omega)

/-- Places in HBM are open where the chip, its scrub and the host's copies are as they were. -/
theorem memoryOpen_hbm_congr {ad : Nat} (hreg : ∀ i, i < 32 → regionOf (ad + i) = .hbm) (hchip : t.chip = s.chip)
    (hscrub : t.rd .memScrub 0 0 = s.rd .memScrub 0 0) (hsnoop : t.snoop = s.snoop) (h : MemoryOpen s [] ((List.range 32).map (ad + ·))) :
    MemoryOpen t [] ((List.range 32).map (ad + ·)) := by
  obtain ⟨hclosed, hnoscrub, hwrites, -⟩ := h
  have hhbm : ∀ x ∈ (List.range 32).map (ad + ·), regionOf x = .hbm := fun x hx => by
    obtain ⟨i, hi, rfl⟩ := List.mem_map.1 hx
    exact hreg i (List.mem_range.1 hi)
  refine ⟨by rw [hchip, hclosed], fun x hx => ?_, fun x hx => ⟨?_, fun hs => ?_⟩, fun x hx => absurd hx List.not_mem_nil⟩
  · rw [← hnoscrub x hx]
    simp only [State.scrubbing, State.flag, hchip, hscrub]
  · simp only [State.stageHeld, State.stagingDie, hhbm x hx]
  · rw [State.hostHolds, hsnoop]
    exact (hwrites x hx).2 hs

theorem inScratch_of_hbm {x : Nat} (h : regionOf x = .hbm) : inScratch x = false := by rw [inScratch, h]; rfl

/-- The records of the first `k` axes. -/
theorem noiseRecords_spec (s : State) (step k : Nat) :
    let t := (List.range k).foldl (fun s a => s.noiseRecord a step) s
    NoiseStep s t ∧ (∀ b, k ≤ b → t.bore b = s.bore b) ∧
      (∀ a, a < k → s.flag .boreNsaddr a 0 63 = true →
        (t.bore a).sql = [] ∧ (t.bore a).sqr = [] ∧ (t.bore a).ncol = [] ∧ (t.bore a).nelem = []) ∧
      (∀ x, (∀ a, a < k → NoiseKept s a = true → ¬(NoiseAt s a ≤ x ∧ x < NoiseAt s a + 32)) → t.byte x = s.byte x) ∧
      (∀ a, a < k → NoiseKept s a = true → (∀ i, i < 32 → s.unitGood (NoiseAt s a + i)) →
        MemoryOpen s [] ((List.range 32).map (NoiseAt s a + ·)) →
        (∀ b, b < k → b ≠ a → NoiseKept s b = true → NoiseAt s a + 32 ≤ NoiseAt s b ∨ NoiseAt s b + 32 ≤ NoiseAt s a) →
        t.bytes (NoiseAt s a) 32 = noiseBytes (s.bore a) step ∧ (t.bore a).noise = none) := by
  induction k with
  | zero =>
    exact ⟨noiseStep_refl s, fun _ _ => rfl, fun a ha => absurd ha (Nat.not_lt_zero a), fun _ _ => rfl,
      fun a ha => absurd ha (Nat.not_lt_zero a)⟩
  | succ k ih =>
    obtain ⟨hstep, hlater, hempty, hbytes, hwritten⟩ := ih
    dsimp only
    rw [List.range_succ, List.foldl_append, List.foldl_cons, List.foldl_nil]
    generalize (List.range k).foldl (fun s a => s.noiseRecord a step) s = u at *
    obtain ⟨hstep', hothers, hempty', hbytes', hwritten'⟩ := noiseRecord_spec u k step
    have hns (b : Nat) : u.rd .boreNsaddr b 0 = s.rd .boreNsaddr b 0 := hstep.regs _ _ _ (by decide)
    have hscrub : u.rd .memScrub 0 0 = s.rd .memScrub 0 0 := hstep.regs _ _ _ (by decide)
    rw [noiseKept_congr (hns k), noiseAt_congr (hns k)] at hbytes' hwritten'
    refine ⟨hstep.trans hstep', fun b hb => ?_, fun a ha hf => ?_, fun x hx => ?_, fun a ha hkept hgood hopen hapart => ?_⟩
    · rw [hothers b (by omega), hlater b (by omega)]
    · obtain rfl | hlt := Nat.eq_or_lt_of_le (Nat.le_of_lt_succ ha)
      · exact hempty' (by rw [State.flag, hns, ← State.flag]; exact hf)
      · rw [hothers a (Nat.ne_of_lt hlt)]
        exact hempty a hlt hf
    · rw [hbytes' x fun h => hx k (Nat.lt_succ_self k) h, hbytes x fun a ha => hx a (Nat.lt_succ_of_lt ha)]
    · obtain rfl | hlt := Nat.eq_or_lt_of_le (Nat.le_of_lt_succ ha)
      · have hbore := hlater a (Nat.le_refl a)
        have hopen' : MemoryOpen u [] ((List.range 32).map (NoiseAt s a + ·)) := by
          obtain ⟨_, _, _, _, _, _, _, _, _, hu⟩ := hstep.frame
          exact memoryOpen_hbm_congr (fun i hi => regionOf_of_noiseKept hkept hi) (by rw [hu]) hscrub (by rw [hu]) hopen
        obtain ⟨hrec, hnone⟩ := hwritten' hkept (fun i hi => hstep.good.unitGood rfl rfl (hgood i hi)) hopen'
        exact ⟨by rw [hrec, hbore], hnone⟩
      · obtain ⟨hrec, hnone⟩ := hwritten a hlt hkept hgood hopen fun b hb => hapart b (Nat.lt_succ_of_lt hb)
        refine ⟨?_, by rw [hothers a (Nat.ne_of_lt hlt)]; exact hnone⟩
        rw [← hrec]
        simp only [State.bytes]
        refine List.map_congr_left fun i hi => hbytes' _ fun hk => ?_
        have hi' := List.mem_range.1 hi
        have := hapart k (Nat.lt_succ_self k) (by omega) hk
        omega

end Sys2Proof.Machine
end

section
/-! SUPPORT. The job-wide word (R168, R303, R392, R398): the counts of steps, the dies, the noise records and the collector of the next
step, one after another. -/

namespace Sys2Proof.Machine

open Sys2Proof.Claims

variable {s t u : State}

/-- Every core counts its step. -/
theorem stepCounts_foldl (s : State) (k : Nat) :
    let t := (List.range k).foldl (fun s n => s.setF .coreStep n 0 0 48 (s.fd .coreStep n 0 0 48 + 1)) s
    OnlyRegs s t ∧ SameRegs [.coreStep] s t ∧ (∀ n, k ≤ n → t.fd .coreStep n 0 0 48 = s.fd .coreStep n 0 0 48) ∧
      ∀ n, n < k → t.fd .coreStep n 0 0 48 = (s.fd .coreStep n 0 0 48 + 1) % 2 ^ 48 := by
  induction k with
  | zero => exact ⟨onlyRegs_refl s, fun _ _ _ _ => rfl, fun _ _ => rfl, fun n hn => absurd hn (Nat.not_lt_zero n)⟩
  | succ k ih =>
    obtain ⟨honly, hregs, hafter, hbefore⟩ := ih
    dsimp only
    rw [List.range_succ, List.foldl_append, List.foldl_cons, List.foldl_nil]
    generalize (List.range k).foldl (fun s n => s.setF .coreStep n 0 0 48 (s.fd .coreStep n 0 0 48 + 1)) s = u at *
    have hother (n : Nat) (hn : n ≠ k) : (u.setF .coreStep k 0 0 48 (u.fd .coreStep k 0 0 48 + 1)).fd .coreStep n 0 0 48 =
        u.fd .coreStep n 0 0 48 := by
      rw [State.fd, State.setF_eq, State.rd_wr_ne _ _ _ _ _ _ _ _ fun h => hn h.2.1.symm, State.fd]
    refine ⟨onlyRegs_trans honly (onlyRegs_wr _ _ _ _ _), sameRegs_trans hregs (sameRegs_wr _ _ _ _ _), fun n hn => ?_, fun n hn => ?_⟩
    · rw [hother n (by omega), hafter n (by omega)]
    · obtain rfl | hlt := Nat.eq_or_lt_of_le (Nat.le_of_lt_succ hn)
      · rw [u.fd_setF_same _ _ _ _ _ _ (by decide), hafter n (Nat.le_refl n)]
      · rw [hother n (Nat.ne_of_lt hlt), hbefore n hlt]

/-- The word and its step are announced, and every core counts it (R168, R398). -/
def State.announced (s : State) : State :=
  (List.range 256).foldl (fun s n => s.setF .coreStep n 0 0 48 (s.fd .coreStep n 0 0 48 + 1))
    ((s.wr .gateWord 0 0 s.gate.input).setF .gateStep 0 0 0 48 s.jobStep)

theorem announced_spec (s : State) :
    OnlyRegs s s.announced ∧ SameRegs [.gateWord, .gateStep, .coreStep] s s.announced ∧ s.announced.rd .gateWord 0 0 = s.gate.input ∧
      s.announced.fd .gateStep 0 0 0 48 = s.jobStep ∧
      ∀ n, n < 256 → s.announced.fd .coreStep n 0 0 48 = (s.fd .coreStep n 0 0 48 + 1) % 2 ^ 48 := by
  unfold State.announced
  generalize hv : s.wr .gateWord 0 0 s.gate.input = v
  have hword : v.rd .gateWord 0 0 = s.gate.input := by rw [← hv, State.rd_wr]
  have hvo : OnlyRegs s v := hv ▸ onlyRegs_wr s _ _ _ _
  have hvr : SameRegs [.gateWord] s v := hv ▸ sameRegs_wr s _ _ _ _
  generalize hu : v.setF .gateStep 0 0 0 48 s.jobStep = u
  have hstep : u.fd .gateStep 0 0 0 48 = s.jobStep := by
    rw [← hu, v.fd_setF_same _ _ _ _ _ _ (by decide)]
    exact Nat.mod_mod _ _
  have huo : OnlyRegs v u := hu ▸ onlyRegs_wr v _ _ _ _
  have hur : SameRegs [.gateStep] v u := hu ▸ sameRegs_wr v _ _ _ _
  obtain ⟨honly, hregs, -, hcounts⟩ := stepCounts_foldl u 256
  generalize (List.range 256).foldl (fun s n => s.setF .coreStep n 0 0 48 (s.fd .coreStep n 0 0 48 + 1)) u = t at *
  refine ⟨onlyRegs_trans (onlyRegs_trans hvo huo) honly, fun q m i hq => ?_, ?_, ?_, fun n hn => ?_⟩
  · simp only [List.mem_cons, List.not_mem_nil, or_false, not_or] at hq
    rw [hregs q m i (by simp [hq]), hur q m i (by simp [hq]), hvr q m i (by simp [hq])]
  · rw [hregs _ _ _ (by decide), hur _ _ _ (by decide), hword]
  · rw [State.fd, hregs _ _ _ (by decide), ← State.fd, hstep]
  · rw [hcounts n hn, State.fd, hur _ _ _ (by decide), hvr _ _ _ (by decide), State.fd]

/-- Both dies have heard the word (R303). -/
def State.heard (s : State) : State := (s.announced.ebbWord 0 s.jobStep s.gate.input).ebbWord 1 s.jobStep s.gate.input

theorem exec_jobWideGateWord (h : s.gate.complete = true) : exec .jobWideGateWord s = .next
    ((List.range 256).foldl State.gateResume
      (((List.range 4).foldl (fun u a => u.noiseRecord a s.jobStep) s.heard).gateClear ((s.jobStep + 1) % 2 ^ 48))) := by
  show execJobWideGateWord s = _
  rw [execJobWideGateWord, h]
  rfl

/-- What both dies leave, and what they leave alone. -/
theorem heard_spec (s : State) :
    let t := s.heard
    t.rd .gateWord 0 0 = s.gate.input ∧ t.fd .gateStep 0 0 0 48 = s.jobStep ∧
      (∀ n, n < 256 → t.fd .coreStep n 0 0 48 = (s.fd .coreStep n 0 0 48 + 1) % 2 ^ 48) ∧
      (∀ e, e < 2 → t.fd .ebbStep e 0 0 48 = (s.fd .ebbStep e 0 0 48 + 1) % 2 ^ 48 ∧
        (s.ebbState e = 1 → t.ebbState e = 2 ∧ (t.ebb e).hold = true ∧ (t.ebb e).step = s.jobStep ∧
          (t.ebb e).commit = !gateOverflow s.gate.input) ∧
        (s.ebbState e ≠ 1 → t.ebbState e = s.ebbState e)) ∧
      (t.ebb 0).entry.isSome = true ∧ SameRegs ([.gateWord, .gateStep, .coreStep, .ebbStep, .ebbStat] ++ sideRegs) s t ∧
      ∃ regs outbox biOut ebbs a b w,
        t = { s with regs := regs, outbox := outbox, biOut := biOut, ebbs := ebbs, fltSince := a, fltHeld := b, fltWait := w } := by
  unfold State.heard
  obtain ⟨honly, hregs, hword, hstep, hcounts⟩ := announced_spec s
  generalize s.announced = u at *
  have h0 := ebbWord_spec u 0 s.jobStep s.gate.input
  generalize u.ebbWord 0 s.jobStep s.gate.input = v at *
  have h1 := ebbWord_spec v 1 s.jobStep s.gate.input
  generalize v.ebbWord 1 s.jobStep s.gate.input = t at *
  have hstat (e : Nat) : u.ebbState e = s.ebbState e := by rw [State.ebbState, State.fd, hregs _ _ _ (by decide), State.ebbState, State.fd]
  have hcount (e : Nat) : u.fd .ebbStep e 0 0 48 = s.fd .ebbStep e 0 0 48 := by rw [State.fd, hregs _ _ _ (by decide), State.fd]
  have hfar (q : Reg) (d i : Nat) (hq : q ∉ [.ebbStep, .ebbStat] ++ sideRegs) : t.rd q d i = u.rd q d i := by
    rw [h1.regs q d i hq, h0.regs q d i hq]
  have hstat0 : t.ebbState 0 = v.ebbState 0 := by
    rw [State.ebbState, State.fd, h1.otherRegs _ _ _ (by decide) (by decide), State.ebbState, State.fd]
  have hcount0 : t.fd .ebbStep 0 0 0 48 = v.fd .ebbStep 0 0 0 48 := by
    rw [State.fd, h1.otherRegs _ _ _ (by decide) (by decide), State.fd]
  have hstat1 : v.ebbState 1 = s.ebbState 1 := by
    rw [← hstat, State.ebbState, State.fd, h0.otherRegs _ _ _ (by decide) (by decide), State.ebbState, State.fd]
  have hcount1 : v.fd .ebbStep 1 0 0 48 = s.fd .ebbStep 1 0 0 48 := by
    rw [← hcount, State.fd, h0.otherRegs _ _ _ (by decide) (by decide), State.fd]
  have hebb0 : t.ebb 0 = v.ebb 0 := h1.others 0 (by decide)
  obtain ⟨_, _, _, _, _, _, _, hframe0⟩ := h0.frame
  obtain ⟨_, _, _, _, _, _, _, hframe1⟩ := h1.frame
  obtain ⟨_, honly⟩ := honly
  refine ⟨?_, ?_, fun n hn => ?_, fun e he => ?_, ?_, fun q d i hq => ?_, ?_⟩
  · rw [hfar _ _ _ (by decide), hword]
  · rw [State.fd, hfar _ _ _ (by decide), ← State.fd, hstep]
  · rw [State.fd, hfar _ _ _ (by decide), ← State.fd, hcounts n hn]
  · obtain rfl | rfl : e = 0 ∨ e = 1 := by omega
    · rw [hstat0, hcount0, hebb0, h0.counts, hcount, ← hstat]
      exact ⟨rfl, h0.staged, h0.idle⟩
    · rw [h1.counts, hcount1, ← hstat1]
      exact ⟨rfl, h1.staged, h1.idle⟩
  · rw [hebb0]; exact h0.entry rfl
  · simp only [List.mem_append, List.mem_cons, List.not_mem_nil, or_false, not_or] at hq
    obtain ⟨⟨hw, hs, hc, he, hst⟩, hside⟩ := hq
    rw [hfar q d i (by simp [he, hst, hside]), hregs q d i (by simp [hw, hs, hc])]
  · rw [hframe1, hframe0, honly]; exact ⟨_, _, _, _, _, _, _, rfl⟩

/-- Settles O48: the stages of the job-wide word one after another; the watchdog's report; and the collector emptied. -/
theorem gateStepsComplete : Obligations.GateStepsComplete := by
  unfold Obligations.GateStepsComplete
  intro s
  refine ⟨fun hcomplete => ?_, fun hcomplete => ?_, fun us hstate hreported hlim hover => ?_, fun a hmay hen => ?_, fun a hmay hen => ?_,
    fun a hmay hquiet => ?_⟩
  · have hexec := exec_jobWideGateWord hcomplete
    obtain ⟨hword, hstep, hcounts, hdies, hentry, hdregs, _, _, _, _, _, _, _, hdframe⟩ := heard_spec s
    generalize s.heard = d at *
    obtain ⟨hnoise, -, hempty, hbytes, hwritten⟩ := noiseRecords_spec d s.jobStep 4
    generalize (List.range 4).foldl (fun u a => u.noiseRecord a s.jobStep) d = e at *
    obtain ⟨hgate, hstat, -, hfregs, _, _, hfframe⟩ := gateClear_spec e ((s.jobStep + 1) % 2 ^ 48)
    generalize e.gateClear ((s.jobStep + 1) % 2 ^ 48) = f at *
    obtain ⟨hresume, -, hwords, hdone, hnone⟩ := gateResume_foldl f 256
    generalize (List.range 256).foldl State.gateResume f = t at *
    obtain ⟨_, _, _, _, _, _, _, _, _, heframe⟩ := hnoise.frame
    obtain ⟨_, _, _, htframe⟩ := hresume.frame
    have hegate : e.gate = s.gate := by rw [heframe, hdframe]
    have hcore (n : Nat) : f.core n = s.core n := by rw [hfframe, heframe, hdframe]; rfl
    have hwait (n : Nat) : f.gcontWaiting n = s.gcontWaiting n := gcontWaiting_congr (hcore n)
    have hregs (q : Reg) (n i : Nat) (hq : q ∉ [.gateStat, .coreStat, .dmaStat] ++ sideRegs) : t.rd q n i = d.rd q n i := by
      simp only [List.mem_append, List.mem_cons, List.not_mem_nil, or_false, not_or] at hq
      obtain ⟨⟨hg, hc, hd⟩, hside⟩ := hq
      rw [hresume.regs q n i (by simp [hg, hc, hd]), hfregs q n i (by simpa using hg), hnoise.regs q n i hside]
    have hebb (x : Nat) : t.ebb x = d.ebb x := by rw [htframe, hfframe, heframe]; rfl
    have hbore (x : Nat) : t.bore x = e.bore x := by rw [htframe, hfframe]; rfl
    have hdbore (x : Nat) : d.bore x = s.bore x := by rw [hdframe]; rfl
    have hbyte (x : Nat) : t.byte x = e.byte x := by rw [htframe, hfframe]; rfl
    have hdbyte (x : Nat) : d.byte x = s.byte x := by rw [hdframe]; rfl
    have hns (a : Nat) : d.rd .boreNsaddr a 0 = s.rd .boreNsaddr a 0 := hdregs _ _ _ (by decide)
    have hat (a : Nat) : NoiseAt d a = NoiseAt s a := noiseAt_congr (hns a)
    have hkept (a : Nat) : NoiseKept d a = NoiseKept s a := noiseKept_congr (hns a)
    have hscrub : d.rd .memScrub 0 0 = s.rd .memScrub 0 0 := hdregs _ _ _ (by decide)
    simp only [hat, hkept] at hbytes hwritten
    refine ⟨t, hexec, ?_, ?_, fun n hn => ?_, fun x hx => ?_, ?_, ?_, ?_, ?_, ?_, fun n hn => ?_, fun n g hn hg => ?_, fun hall => ?_,
      fun a ha hk hcells hopen hapart => ?_, fun a ha hf => ?_, fun x hx => ?_, fun a => ?_, ?_, ?_, ?_⟩
    · rw [hregs _ _ _ (by decide), hword]
    · rw [State.fd, hregs _ _ _ (by decide), ← State.fd, hstep]
    · rw [State.fd, hregs _ _ _ (by decide), ← State.fd, hcounts n hn]
    · have hstate : t.ebbState x = d.ebbState x := by rw [State.ebbState, State.fd, hregs _ _ _ (by decide), State.ebbState, State.fd]
      have hcount : t.fd .ebbStep x 0 0 48 = d.fd .ebbStep x 0 0 48 := by rw [State.fd, hregs _ _ _ (by decide), State.fd]
      rw [hstate, hcount, hebb]
      exact hdies x hx
    · rw [hebb]; exact hentry
    · rw [htframe, hgate]
    · rw [htframe, hgate]
    · rw [htframe, hgate]
    · rw [htframe, hgate, hegate]
    · rw [hwords n hn, hwait, hcore, hgate]
      rfl
    · exact hdone n g hn ((hwait n).trans hg)
    · rw [hnone fun n hn => (hwait n).trans (hall n hn)]
      exact ⟨hstat, by rw [hfframe, heframe, hdframe]⟩
    · have hgood : ∀ i, i < 32 → d.unitGood (NoiseAt s a + i) := fun i hi =>
        (keepsGood_refl s.bad).unitGood rfl (by rw [hdframe]) ⟨inScratch_of_hbm (regionOf_of_noiseKept hk hi), hcells i hi⟩
      have hopen' : MemoryOpen d [] ((List.range 32).map (NoiseAt s a + ·)) :=
        memoryOpen_hbm_congr (fun i hi => regionOf_of_noiseKept hk hi) (by rw [hdframe]) hscrub (by rw [hdframe]) hopen
      obtain ⟨hrec, hclear⟩ := hwritten a ha hk hgood hopen' hapart
      refine ⟨?_, by rw [hbore]; exact hclear⟩
      rw [State.bytes_congr hbyte, hrec, hdbore]
      rfl
    · rw [hbore]
      exact hempty a ha (by rw [State.flag, hns, ← State.flag]; exact hf)
    · rw [hbyte, hbytes x hx, hdbyte]
    · rw [hbore, ← hdbore]
      exact hnoise.carries a
    · rw [htframe, hfframe, heframe, hdframe]; exact ⟨rfl, rfl, rfl, rfl, rfl, rfl, rfl, rfl⟩
    · rw [htframe, hfframe, heframe, hdframe]
    · rw [htframe, hfframe, heframe, hdframe]
  · show execJobWideGateWord s = _
    rw [execJobWideGateWord, hcomplete]
    rfl
  · obtain ⟨hflag, hgate, hout, hrec, hcores, hbores, hframe⟩ := gateOverdue_spec s
      (boreRec 0x88 (0x100 + s.fd .gateStat 0 0 2 2) 0 0 0 0 s.gateAwaited (s.fd .gateStat 0 0 2 2))
      (.mgmt 8 [s.fd .gateStat 0 0 2 2, s.gateAwaited])
    have hrun : execGateWatchdog us s = _ := if_pos ⟨hstate, by rw [hreported]; rfl, hlim, hover⟩
    refine ⟨_, hrun, hflag, hgate, hout, hrec, hcores, hbores, hframe, if_neg fun ⟨_, hopen, _⟩ => ?_⟩
    rw [hgate] at hopen
    exact absurd hopen (by simp)
  · have hoff : s.gateOff = (s.setF .gateCfg 0 0 0 1 0).gateReset := by rw [State.gateOff, if_pos hen]
    have hregs : SameRegs [.gateCfg] s (s.setF .gateCfg 0 0 0 1 0) := sameRegs_wr s _ _ _ _
    have hbits : SameBits .gateCfg 0 0 (~~~1#64) s (s.setF .gateCfg 0 0 0 1 0) := sameBits_setF_of fun _ => by decide
    have hclear : (s.setF .gateCfg 0 0 0 1 0).flag .gateCfg 0 0 0 = false := State.flag_setF_clear _ _ _ _ _ (by decide)
    obtain ⟨_, hframe⟩ : OnlyRegs s (s.setF .gateCfg 0 0 0 1 0) := onlyRegs_wr s _ _ _ _
    rw [exec_gateDisable hmay, hoff]
    generalize s.setF .gateCfg 0 0 0 1 0 = u at *
    obtain ⟨hemptied, hfilter, hunsent, hports, hout, hall⟩ := gateReset_after (gate := s.gate) ⟨_, hframe⟩ hregs (by decide)
    obtain ⟨-, -, -, -, -, hreset, -⟩ := gateReset_spec u
    have hcfg : u.gateReset.rd .gateCfg 0 0 = u.rd .gateCfg 0 0 := hreset _ _ _ (by decide)
    refine ⟨_, rfl, ?_, ?_, hemptied, hfilter, hunsent, hports, hout, hall⟩
    · rw [State.flag, hcfg]; exact hclear
    · rw [SameBits, hcfg]; exact hbits
  · rw [exec_gateDisable hmay, State.gateOff, if_neg (by simp [hen])]
  · rw [exec_gabort hmay hquiet]
    generalize hu : ({ s with gate := { s.gate with filter := true } } : State) = u
    have hsame : SameRegs [] s u := hu ▸ fun _ _ _ _ => rfl
    obtain ⟨hemptied, hfilter, hunsent, hports, hout, hall⟩ :=
      gateReset_after (gate := { s.gate with filter := true }) ⟨s.regs, hu.symm⟩ hsame (by decide)
    generalize u.gateReset = t at *
    exact ⟨t, rfl, hemptied, hfilter, hunsent, hports, hout, hall⟩

end Sys2Proof.Machine
end

section
/-! SUPPORT. Lane instructions (R223, R228, R238, R239): what one that writes a register and one that compares leave, said once for each
shape of Table 7.3; the instructions of floating-point arithmetic follow. -/

namespace Sys2Proof.Machine

open Sys2Proof.Claims

variable {s t : State} {n : Nat} {x : LaneSite}

/-! ### Lane registers, flags and events -/

theorem lane_setLane_ne {l l' m r r' : Nat} {v : W32} (hl : l < 64) (hr : r < 32) (hl' : l' < 64) (hr' : r' < 32)
    (h : ¬(m = n ∧ l' = l ∧ r' = r)) : (s.setLane n l r v).lane m l' r' = s.lane m l' r' := by
  have hkey : laneKey n l r ≠ laneKey m l' r' := by unfold laneKey; omega
  rw [State.lane, State.setLane, Sparse.get_set, if_neg hkey, State.lane]

theorem laneFlag_setLaneFlag_same (l : Nat) (b : Bool) : (s.setLaneFlag n l b).laneFlag n l = b := by
  rw [State.laneFlag, State.setLaneFlag, Sparse.get_set, if_pos rfl]

theorem laneFlag_setLaneFlag_ne {l l' m : Nat} {b : Bool} (hl : l < 64) (hl' : l' < 64) (h : ¬(m = n ∧ l' = l)) :
    (s.setLaneFlag n l b).laneFlag m l' = s.laneFlag m l' := by
  have hkey : n * 64 + l ≠ m * 64 + l' := by omega
  rw [State.laneFlag, State.setLaneFlag, Sparse.get_set, if_neg hkey, State.laneFlag]

theorem gateLat_latch (s : State) (n m : Nat) :
    ((s.latch n m).core n).gateLat = (s.core n).gateLat ||| BitVec.ofNat 64 m := by
  unfold State.latch
  split
  case isTrue h => rw [h]; exact BitVec.or_zero.symm
  case isFalse => rw [State.core_modCore]

theorem rd_latch (s : State) (n m : Nat) (r : Reg) (k i : Nat) : (s.latch n m).rd r k i = s.rd r k i := by
  unfold State.latch
  split <;> rfl

/-- The latch bits of Table 11.6 as the claims write them. -/
theorem laneLatch_eq (e : Ev) :
    BitVec.ofNat 64 (4 * b2n (e.ovf || e.dz) + 1024 * b2n (e.nan || e.inv)) = laneLatch e := by
  unfold laneLatch
  cases e.ovf || e.dz <;> cases e.nan || e.inv <;> rfl

theorem gateLat_laneEvents (s : State) (n : Nat) (e : Ev) :
    ((s.laneEvents n e).core n).gateLat = (s.core n).gateLat ||| laneLatch e := by
  rw [State.laneEvents, gateLat_latch, laneLatch_eq, State.raiseMask, State.core_wr]

theorem skpStat_laneEvents (s : State) (n : Nat) (e : Ev) :
    (s.laneEvents n e).rd .skpStat n 0 = s.rd .skpStat n 0 ||| laneStat e := by
  rw [State.laneEvents, rd_latch, State.raiseMask, State.rd_wr, laneStat]

theorem rd_laneEvents_word (s : State) (n : Nat) (e : Ev) (m : Nat) {i : Nat} (hi : i ≠ 0) :
    (s.laneEvents n e).rd .skpStat m i = s.rd .skpStat m i := by
  rw [State.laneEvents, rd_latch, State.raiseMask, State.rd_wr_ne _ _ _ _ _ _ _ _ fun h => hi h.2.2.symm]

/-! ### An instruction that writes a register -/

theorem predHolds_of_takes (h : LaneTakes s x) : predHolds x.pred (s.laneFlag x.core x.lane) x.first x.last = true := by
  obtain h | ⟨h, hf⟩ | ⟨h, hf⟩ | ⟨h, hf⟩ := h
  · rw [h]; rfl
  all_goals rw [h]; exact hf

/-- The state after register `d` of a lane takes a value: an active lane's events are recorded. -/
def State.laneWritten (s : State) (x : LaneSite) (d : Nat) (r : W32 × Ev) : State :=
  if x.active then (s.setLane x.core x.lane d r.1).laneEvents x.core r.2 else s.setLane x.core x.lane d r.1

theorem laneWrite_of_takes (d : Nat) (val : State → W32 × Ev) (h : LaneTakes s x) :
    laneWrite x d val s = .next (s.laneWritten x d (val s)) := by
  rw [laneWrite, if_pos (predHolds_of_takes h)]
  rfl

theorem stageEffect_laneWritten (s : State) (x : LaneSite) (d : Nat) (r : W32 × Ev) :
    StageEffect x.core [.skpStat] [] (s.setLane x.core x.lane d r.1) (s.laneWritten x d r) := by
  unfold State.laneWritten
  split
  · exact stageEffect_laneEvents (by decide)
  · exact .refl _ _ _ _

theorem laneFrame_laneWritten (s : State) (x : LaneSite) (d : Nat) (r : W32 × Ev) : LaneFrame s (s.laneWritten x d r) := by
  have heff := stageEffect_laneWritten s x d r
  have hregs : SameRegs [.skpStat] s (s.laneWritten x d r) := fun q m i hq => heff.regs q m i List.not_mem_nil (.inl hq)
  have hword (m i : Nat) (hi : i ≠ 0) : (s.laneWritten x d r).rd .skpStat m i = s.rd .skpStat m i := by
    unfold State.laneWritten
    split
    · exact rd_laneEvents_word _ _ _ _ hi
    · rfl
  obtain ⟨_, _, _, _, _, ht⟩ := heff.frame
  rw [ht] at hregs hword ⊢
  exact ⟨hregs, hword, ⟨fun _ => rfl, fun _ => rfl⟩, rfl, rfl, rfl, rfl, rfl, rfl,
    rfl, rfl, rfl, rfl, rfl, rfl, rfl, rfl, rfl, rfl, rfl, rfl, rfl, rfl⟩

theorem laneSets_of_laneWrite {c : LaneSite → Instr} {d : Nat} {val : State → LaneSite → W32 × Ev} (hd : d < 32)
    (hc : ∀ s x, exec (c x) s = laneWrite x d (val · x) s) : LaneSets c d val := by
  intro s x hl htakes
  have hrun : exec (c x) s = .next (s.laneWritten x d (val s x)) := (hc s x).trans (laneWrite_of_takes d (val · x) htakes)
  have heff := stageEffect_laneWritten s x d (val s x)
  obtain ⟨hlanes, hlaneF⟩ := heff.lanes_eq
  have hlane (m l r : Nat) :
      (s.laneWritten x d (val s x)).lane m l r = (s.setLane x.core x.lane d (val s x).1).lane m l r := by
    rw [State.lane, hlanes, ← State.lane]
  refine ⟨_, hrun, ?_, fun m l r hl' hr hne => ?_, hlaneF, fun hidle => ?_, fun hact => ?_, laneFrame_laneWritten s x d _⟩
  · rw [hlane, lane_setLane hd hd, if_pos ⟨rfl, rfl⟩]
  · rw [hlane, lane_setLane_ne hl hd hl' hr hne]
  · rw [State.laneWritten, if_neg (by simp [hidle])]
    exact ⟨fun _ => rfl, fun _ => rfl⟩
  · refine ⟨?_, ?_, fun m hm => ⟨heff.regs .skpStat m 0 List.not_mem_nil (.inr hm), heff.cores m hm⟩⟩
    · rw [State.laneWritten, if_pos hact, skpStat_laneEvents]
      rfl
    · rw [State.laneWritten, if_pos hact, gateLat_laneEvents]
      rfl

/-! ### The shapes of Table 7.3: one, two and three source registers

`op` is the lane opcode, `f` its function of the source registers. -/

section
variable {c : LaneSite → Instr} {d i j k : Nat}

theorem laneSets_lane1 (op : Nat) {f : W32 → W32 × Ev} (hd : d < 32)
    (hc : ∀ x, exec (c x) = lane1 op x d i := by intros; rfl)
    (hop : ∀ p, laneAlu op p 0#32 0#32 false = f p := by intros; rfl) :
    LaneSets c d fun s x => f (src s x i) :=
  laneSets_of_laneWrite hd fun s x => by simp only [hc, lane1, hop, src]

theorem laneSets_lane2 (op : Nat) {f : W32 → W32 → W32 × Ev} (hd : d < 32)
    (hc : ∀ x, exec (c x) = lane2 op x d i j := by intros; rfl)
    (hop : ∀ p q b, laneAlu op p q 0#32 b = f p q := by intros; rfl) :
    LaneSets c d fun s x => f (src s x i) (src s x j) :=
  laneSets_of_laneWrite hd fun s x => by simp only [hc, lane2, hop, src]

theorem laneSets_lane3 (op : Nat) {f : W32 → W32 → W32 → W32 × Ev} (hd : d < 32)
    (hc : ∀ x, exec (c x) = lane3 op x d i j k := by intros; rfl)
    (hop : ∀ p q r, laneAlu op p q r false = f p q r := by intros; rfl) :
    LaneSets c d fun s x => f (src s x i) (src s x j) (src s x k) :=
  laneSets_of_laneWrite hd fun s x => by simp only [hc, lane3, hop, src]

end

/-- Settles O19: each instruction is the lane instruction of its opcode and shape in Table 7.3, and what such an instruction leaves is
said once. -/
theorem laneFloatInstructionsComplete : Obligations.LaneFloatInstructionsComplete := by
  intro d a b c hd
  exact ⟨laneSets_lane2 0x08 hd, laneSets_lane2 0x09 hd, laneSets_lane2 0x0A hd, laneSets_lane3 0x0B hd, laneSets_lane2 0x0C hd,
    laneSets_lane2 0x0D hd, laneSets_lane1 0x11 hd, laneSets_lane1 0x12 hd, laneSets_lane1 0x13 hd, laneSets_lane1 0x18 hd,
    laneSets_lane2 0x19 hd, laneSets_lane1 0x1A hd, laneSets_lane1 0x1B hd, laneSets_lane1 0x1C hd, laneSets_lane1 0x1D hd,
    laneSets_lane1 0x1E hd, laneSets_lane1 0x1F hd, laneSets_lane1 0x20 hd, laneSets_lane1 0x21 hd, laneSets_lane1 0x22 hd,
    laneSets_lane3 0x38 (f := fun p q r => (rng32 p q r, {})) hd⟩

end Sys2Proof.Machine
end

section
/-! SUPPORT. Comparisons of a lane (R239, Table 7.5). `cmpVal` compares sign and code of FP32 words; codes rise with the exact magnitude,
so this is the order of exact values, with the infinities at its ends. -/

namespace Sys2Proof.Machine

open Sys2Proof.Claims

variable {p q : W32}

/-! ### A comparison sets the flag -/

theorem laneCompares_laneCmp (op md : Nat) {c : LaneSite → Instr} {i j : Nat} (f : W32 → W32 → Bool)
    (hc : ∀ x, exec (c x) = laneCmp op x md i j) (hcond : ∀ p q, laneCond op md p q = some (f p q)) :
    LaneCompares c fun s x => f (src s x i) (src s x j) := by
  intro s x hl htakes
  have hrun : exec (c x) s = .next (s.setLaneFlag x.core x.lane (f (src s x i) (src s x j))) := by
    rw [hc, laneCmp, if_pos (predHolds_of_takes htakes), hcond]
    rfl
  exact ⟨_, hrun, laneFlag_setLaneFlag_same _ _, fun m l hl' hne => laneFlag_setLaneFlag_ne hl hl' hne, rfl, fun _ => rfl,
    fun _ _ _ _ => rfl, fun _ _ _ _ => rfl, fun _ _ _ => rfl, ⟨fun _ => rfl, fun _ => rfl⟩, rfl, rfl, rfl, rfl, rfl, rfl,
    rfl, rfl, rfl, rfl, rfl, rfl, rfl, rfl, rfl, rfl, rfl, rfl, rfl, rfl⟩

theorem laneCompares_icmp (md : Nat) {i j : Nat} (f : W32 → W32 → Bool) (h : ∀ p q, icmp32 md p q = some (f p q)) :
    LaneCompares (fun x => .icmp x md i j) fun s x => f (src s x i) (src s x j) :=
  laneCompares_laneCmp 0x33 md f (fun _ => rfl) h

theorem laneCompares_fcmp {md i j : Nat} (h : md < 7) :
    LaneCompares (fun x => .fcmp x md i j) fun s x => (fcmp32 md (src s x i) (src s x j)).getD false :=
  laneCompares_laneCmp 0x10 md (fun p q => (fcmp32 md p q).getD false) (fun _ => rfl) fun p q => by
    rw [laneCond, if_pos rfl]
    interval_cases md <;> rfl

/-! ### The order that `cmpVal` decides -/

/-- The number that `cmpVal` compares: the code without its sign bit, negated for a negative word. -/
def key32 (w : W32) : Int := sgnInt (bit w 31) (fld w 0 31)

theorem cmpVal_eq (p q : W32) :
    cmpVal p q = if key32 p < key32 q then -1 else if key32 p = key32 q then 0 else 1 := rfl

theorem cmpVal_neg_iff : cmpVal p q < 0 ↔ key32 p < key32 q := by
  rw [cmpVal_eq]
  split_ifs with hlt heq <;> simp [hlt]

theorem cmpVal_eq_zero_iff : cmpVal p q = 0 ↔ key32 p = key32 q := by
  rw [cmpVal_eq]
  split_ifs with hlt heq
  · simp [hlt.ne]
  · simp [heq]
  · simp [heq]

/-- The conditions on two words that are no NaN. -/
theorem fcmp32_of_not_nan (hp : isNan32 p = false) (hq : isNan32 q = false) :
    fcmp32 0 p q = some (decide (key32 p = key32 q)) ∧ fcmp32 1 p q = some (decide (key32 p ≠ key32 q)) ∧
      fcmp32 2 p q = some (decide (key32 p < key32 q)) ∧ fcmp32 3 p q = some (decide (key32 p ≤ key32 q)) ∧
      fcmp32 4 p q = some (decide (key32 q < key32 p)) ∧ fcmp32 5 p q = some (decide (key32 q ≤ key32 p)) ∧
      fcmp32 6 p q = some false := by
  have hlt : cmpVal p q < 0 ↔ key32 p < key32 q := cmpVal_neg_iff
  have heq : cmpVal p q = 0 ↔ key32 p = key32 q := cmpVal_eq_zero_iff
  have hle : cmpVal p q ≤ 0 ↔ key32 p ≤ key32 q := by omega
  have hgt : 0 < cmpVal p q ↔ key32 q < key32 p := by omega
  have hge : 0 ≤ cmpVal p q ↔ key32 q ≤ key32 p := by omega
  simp [fcmp32, hp, hq, heq, hlt, hle, hgt, hge, beq_eq_decide, bne]

theorem fcmp32_of_nan {k : Nat} (hk : k < 7) (h : isNan32 p = true ∨ isNan32 q = true) :
    fcmp32 k p q = some (decide (k = 1 ∨ k = 6)) := by
  have hun : (isNan32 p || isNan32 q) = true := by simpa using h
  interval_cases k <;> simp [fcmp32, hun]

/-! ### Codes rise with exact magnitudes -/

/-- The exact magnitude of the finite FP32 code `k` (exponent then fraction), in units of 2^−149. -/
def mag32 (k : Nat) : Nat := (k % 2 ^ 23 + if k / 2 ^ 23 = 0 then 0 else 2 ^ 23) * 2 ^ (k / 2 ^ 23 - 1)

/-- The next code is the next fraction, or the first fraction of the next exponent. -/
theorem mag32_lt_succ (k : Nat) : mag32 k < mag32 (k + 1) := by
  unfold mag32
  by_cases hcarry : (k + 1) % 2 ^ 23 = 0
  · have hdiv : (k + 1) / 2 ^ 23 = k / 2 ^ 23 + 1 := by omega
    have hmod : k % 2 ^ 23 < 2 ^ 23 := Nat.mod_lt _ (Nat.two_pow_pos 23)
    rw [hdiv, hcarry, if_neg (Nat.succ_ne_zero _), Nat.add_sub_cancel, Nat.zero_add]
    cases k / 2 ^ 23 with
    | zero => simpa using hmod
    | succ e =>
      rw [if_neg (Nat.succ_ne_zero e), Nat.add_sub_cancel]
      calc (k % 2 ^ 23 + 2 ^ 23) * 2 ^ e < (2 ^ 23 + 2 ^ 23) * 2 ^ e :=
            Nat.mul_lt_mul_of_pos_right (Nat.add_lt_add_right hmod _) (Nat.two_pow_pos e)
        _ = 2 ^ 23 * 2 ^ (e + 1) := by ring
  · have hdiv : (k + 1) / 2 ^ 23 = k / 2 ^ 23 := by omega
    have hmod : (k + 1) % 2 ^ 23 = k % 2 ^ 23 + 1 := by omega
    rw [hdiv, hmod]
    exact Nat.mul_lt_mul_of_pos_right (by omega) (Nat.two_pow_pos _)

theorem strictMono_mag32 : StrictMono mag32 := strictMono_nat_of_lt_succ mag32_lt_succ

/-- A map that keeps the order of magnitudes and zero keeps the order of signed values. -/
theorem sgnInt_lt_iff {f : Nat → Nat} (hf : StrictMono f) (h0 : f 0 = 0) (m n : Bool) (a b : Nat) :
    sgnInt m (f a) < sgnInt n (f b) ↔ sgnInt m a < sgnInt n b := by
  have hlt : f a < f b ↔ a < b := hf.lt_iff_lt
  have hgt : f b < f a ↔ b < a := hf.lt_iff_lt
  have hzero (k : Nat) : f k = 0 ↔ k = 0 := by simpa only [h0] using hf.injective.eq_iff (a := k) (b := 0)
  have ha := hzero a
  have hb := hzero b
  cases m <;> cases n <;> simp only [sgnInt, if_true, Bool.false_eq_true, if_false] <;> omega

/-- The exact value of a finite FP32 word, in units of 2^−149. -/
def exact32 (w : W32) : Int := sgnInt (bit w 31) (mag32 (fld w 0 31))

theorem exact32_lt_iff : exact32 p < exact32 q ↔ key32 p < key32 q :=
  sgnInt_lt_iff strictMono_mag32 (by decide) _ _ _ _

theorem exact32_le_iff : exact32 p ≤ exact32 q ↔ key32 p ≤ key32 q := by
  rw [← not_lt, ← not_lt, exact32_lt_iff]

theorem exact32_eq_iff : exact32 p = exact32 q ↔ key32 p = key32 q := by
  rw [le_antisymm_iff, le_antisymm_iff, exact32_le_iff, exact32_le_iff]

/-! ### What the fields of a word say of its value -/

theorem fld_exponent_eq (w : W32) : fld w 23 8 = fld w 0 31 / 2 ^ 23 := by
  unfold fld
  omega

theorem fld_fraction_eq (w : W32) : fld w 0 23 = fld w 0 31 % 2 ^ 23 := by
  unfold fld
  omega

/-- The value of a word by its sign and code. -/
theorem fvOf32_eq (w : W32) : fvOf32 w =
    if fld w 0 31 / 2 ^ 23 = 255 then (if fld w 0 31 % 2 ^ 23 = 0 then .inf (bit w 31) else .nan)
    else finOf 23 127 (bit w 31) (fld w 0 31 / 2 ^ 23) (fld w 0 31 % 2 ^ 23) := by
  rw [fvOf32, fld_exponent_eq, fld_fraction_eq]

theorem exact32_of_fin {w : W32} {n : Bool} {m : Nat} {e : Int} (h : fvOf32 w = .fin n m e) :
    sgnInt n (m * 2 ^ (e + 149).toNat) = exact32 w := by
  rw [fvOf32_eq] at h
  unfold exact32 mag32
  split at h
  case isTrue => split at h <;> cases h
  case isFalse =>
    generalize fld w 0 31 / 2 ^ 23 = ef at *
    unfold finOf at h
    split at h
    case isTrue hzero =>
      cases h
      rw [hzero]
      rfl
    case isFalse hpos =>
      cases h
      have hexp : ((ef : Int) - 127 - (23 : Nat) + 149).toNat = ef - 1 := by omega
      rw [hexp, if_neg hpos]

theorem isNan32_of_fin {w : W32} {n : Bool} {m : Nat} {e : Int} (h : fvOf32 w = .fin n m e) : isNan32 w = false := by
  rw [isNan32, h]; rfl

theorem isNan32_of_inf {w : W32} {n : Bool} (h : fvOf32 w = .inf n) : isNan32 w = false := by
  rw [isNan32, h]; rfl

theorem sign_code_of_inf {w : W32} {n : Bool} (h : fvOf32 w = .inf n) : bit w 31 = n ∧ fld w 0 31 = 0x7F800000 := by
  rw [fvOf32_eq] at h
  split at h
  case isTrue hexp =>
    split at h
    case isTrue hfrac =>
      cases h
      exact ⟨rfl, by omega⟩
    case isFalse => cases h
  case isFalse =>
    unfold finOf at h
    split at h <;> cases h

theorem code_le_of_not_nan {w : W32} (h : isNan32 w = false) : fld w 0 31 ≤ 0x7F800000 := by
  have hlt : fld w 0 31 < 2 ^ 31 := Nat.mod_lt _ (Nat.two_pow_pos 31)
  by_contra hgt
  have hnan : fvOf32 w = .nan := by rw [fvOf32_eq, if_pos (by omega), if_neg (by omega)]
  rw [isNan32, hnan] at h
  cases h

theorem toNat_eq_sign_code (w : W32) : w.toNat = 2 ^ 31 * (bit w 31).toNat + fld w 0 31 := by
  have hw : w.toNat < 2 ^ 32 := w.isLt
  rw [bit, BitVec.getLsbD, Nat.testBit_eq_decide_div_mod_eq, fld]
  by_cases h : w.toNat / 2 ^ 31 % 2 = 1 <;> simp only [h, decide_true, decide_false, Bool.toNat_true, Bool.toNat_false] <;> omega

/-- Words of one key are equal, unless they are zeros. -/
theorem eq_of_key32_eq (hp : fld p 0 31 ≠ 0) (h : key32 p = key32 q) : p = q := by
  refine BitVec.eq_of_toNat_eq ?_
  rw [toNat_eq_sign_code p, toNat_eq_sign_code q]
  unfold key32 sgnInt at h
  cases hs : bit p 31 <;> cases hs' : bit q 31 <;> simp only [hs, hs', if_true, Bool.false_eq_true, if_false] at h ⊢ <;> omega

/-- An infinity lies beyond every other value of its side. -/
theorem key32_inf_order {n : Bool} (hp : fvOf32 p = .inf n) (hq : isNan32 q = false) :
    (key32 p = key32 q ↔ p = q) ∧ (key32 p < key32 q ↔ n = true ∧ p ≠ q) ∧ (key32 p ≤ key32 q ↔ n = true ∨ p = q) ∧
      (key32 q < key32 p ↔ n = false ∧ p ≠ q) ∧ (key32 q ≤ key32 p ↔ n = false ∨ p = q) := by
  obtain ⟨hsign, hcode⟩ := sign_code_of_inf hp
  have heq : key32 p = key32 q ↔ p = q := ⟨eq_of_key32_eq (by omega), fun h => h ▸ rfl⟩
  have hcodeq := code_le_of_not_nan hq
  have hrange : -0x7F800000 ≤ key32 q ∧ key32 q ≤ 0x7F800000 := by
    unfold key32 sgnInt
    split <;> omega
  have hkey : key32 p = sgnInt n 0x7F800000 := by rw [key32, hsign, hcode]
  rw [ne_eq, ← heq, hkey]
  cases n <;> simp [sgnInt] <;> omega

/-- Settles O20: a comparison sets the flag to its condition; the conditions compare keys, whose order is that of the exact values with
the infinities at the ends; a NaN decides its conditions alone. -/
theorem laneComparisonsComplete : Obligations.LaneComparisonsComplete := by
  intro a b
  refine ⟨⟨?_, ?_, ?_, ?_, ?_, ?_, ?_, ?_⟩, fun k hk => laneCompares_fcmp hk, ?_, ?_, fun k p q => fcmp32_of_nan⟩
  · exact laneCompares_icmp 0 (fun p q => decide (p.toInt = q.toInt)) fun p q => by simp [icmp32, BitVec.toInt_inj, beq_eq_decide]
  · exact laneCompares_icmp 1 (fun p q => decide (p.toInt ≠ q.toInt)) fun p q => by simp [icmp32, BitVec.toInt_inj, bne, beq_eq_decide]
  · exact laneCompares_icmp 2 (fun p q => decide (p.toInt < q.toInt)) fun _ _ => rfl
  · exact laneCompares_icmp 3 (fun p q => decide (p.toInt ≤ q.toInt)) fun _ _ => rfl
  · exact laneCompares_icmp 4 (fun p q => decide (q.toInt < p.toInt)) fun _ _ => rfl
  · exact laneCompares_icmp 5 (fun p q => decide (q.toInt ≤ p.toInt)) fun _ _ => rfl
  · exact laneCompares_icmp 7 (fun p q => decide (p.toNat < q.toNat)) fun _ _ => rfl
  · exact laneCompares_icmp 8 (fun p q => decide (q.toNat ≤ p.toNat)) fun _ _ => rfl
  · intro p q np mp ep nq mq eq hp hq
    rw [exact32_of_fin hp, exact32_of_fin hq]
    simpa only [exact32_eq_iff, exact32_lt_iff, exact32_le_iff, ne_eq] using fcmp32_of_not_nan (isNan32_of_fin hp) (isNan32_of_fin hq)
  · intro p q n hp hq
    obtain ⟨heq, hlt, hle, hgt, hge⟩ := key32_inf_order hp hq
    obtain ⟨h0, h1, h2, h3, h4, h5, h6⟩ := fcmp32_of_not_nan (isNan32_of_inf hp) hq
    obtain ⟨-, -, h2', h3', -⟩ := fcmp32_of_not_nan hq (isNan32_of_inf hp)
    rw [h0, h1, h2, h3, h4, h5, h6, h2', h3']
    simp [heq, hlt, hle, hgt, hge]

end Sys2Proof.Machine
end

section
/-! SUPPORT. What one Ebb die's command may change (R279, R297, R301, R313 to R318), and the words and fields that it writes. -/

namespace Sys2Proof.Machine

open Sys2Proof.Claims

variable {s t u : State} {e : Nat} {rs rs' : List Reg}

/-! ### What a command of a die may change -/

/-- Of the registers only `rs` change, and of the Ebb blocks only that of die `e`; of the dies only `e`. Beside them only ports, what the
chip has sent and the bookkeeping of the fault log do. -/
structure DieEffect (e : Nat) (rs : List Reg) (s t : State) : Prop where
  regs : ∀ r d i, r ∉ rs ∨ r.info.blk = .ebb ∧ d ≠ e → t.rd r d i = s.rd r d i
  dies : ∀ d, d ≠ e → t.ebb d = s.ebb d
  frame : ∃ regs ports outbox ebbs a b w,
    t = { s with regs := regs, ports := ports, outbox := outbox, ebbs := ebbs, fltSince := a, fltHeld := b, fltWait := w }

theorem DieEffect.refl (e : Nat) (rs : List Reg) (s : State) : DieEffect e rs s s :=
  ⟨fun _ _ _ _ => rfl, fun _ _ => rfl, _, _, _, _, _, _, _, rfl⟩

theorem DieEffect.trans (h : DieEffect e rs s t) (h' : DieEffect e rs t u) : DieEffect e rs s u where
  regs r d i hr := (h'.regs r d i hr).trans (h.regs r d i hr)
  dies d hd := (h'.dies d hd).trans (h.dies d hd)
  frame := by
    obtain ⟨_, _, _, _, _, _, _, rfl⟩ := h.frame
    obtain ⟨_, _, _, _, _, _, _, rfl⟩ := h'.frame
    exact ⟨_, _, _, _, _, _, _, rfl⟩

theorem DieEffect.mono (h : DieEffect e rs s t) (hsub : rs ⊆ rs') : DieEffect e rs' s t :=
  ⟨fun r d i hr => h.regs r d i (hr.imp_left fun hmem hin => hmem (hsub hin)), h.dies, h.frame⟩

theorem DieEffect.ite (p : Prop) [Decidable p] (h : DieEffect e rs s t) (h' : DieEffect e rs s u) :
    DieEffect e rs s (if p then t else u) := by
  split
  · exact h
  · exact h'

theorem DieEffect.sameRegs (h : DieEffect e rs s t) : SameRegs rs s t := fun r d i hr => h.regs r d i (.inl hr)

theorem DieEffect.onlyDie (h : DieEffect e rs s t) : OnlyDie e s t := ⟨h.dies, fun r d i hd hb => h.regs r d i (.inr ⟨hb, hd⟩)⟩

theorem DieEffect.sameMem (h : DieEffect e rs s t) : SameMem s t := by
  obtain ⟨_, _, _, _, _, _, _, rfl⟩ := h.frame
  exact ⟨fun _ => rfl, fun _ => rfl⟩

theorem DieEffect.bytes_eq (h : DieEffect e rs s t) (x n : Nat) : t.bytes x n = s.bytes x n := State.bytes_congr h.sameMem.1 x n

/-- An access to a unit ends as before, the banks' power being the same. -/
theorem DieEffect.cellStatus_eq (h : DieEffect e rs s t) (hr : .spdBankst ∉ rs) (x : Nat) : t.cellStatus x = s.cellStatus x := by
  rw [State.cellStatus, State.cellStatus, State.bankState, State.bankState, State.fd, State.fd, h.sameRegs .spdBankst _ _ hr, h.sameMem.2]

theorem DieEffect.stagingDie_eq (h : DieEffect e rs s t) (hbase : .ebbStgbase ∉ rs) (hlen : .ebbStglen ∉ rs) (x : Nat) :
    t.stagingDie x = s.stagingDie x := by
  unfold State.stagingDie State.fd
  cases regionOf x <;> simp only [h.sameRegs .ebbStgbase _ _ hbase, h.sameRegs .ebbStglen _ _ hlen]

theorem DieEffect.gate_eq (h : DieEffect e rs s t) : t.gate = s.gate := by
  obtain ⟨_, _, _, _, _, _, _, rfl⟩ := h.frame
  rfl

theorem DieEffect.ebbFrame (h : DieEffect e (rs ++ logRegs) s t) : EbbFrame rs s t := by
  refine ⟨h.sameRegs, ?_⟩
  obtain ⟨_, _, _, _, _, _, _, rfl⟩ := h.frame
  exact ⟨⟨rfl, rfl, rfl, rfl, rfl, rfl, rfl, rfl⟩, rfl, rfl, rfl, rfl, rfl, rfl, rfl, rfl⟩

/-- The command does not depend on what the memories hold. -/
theorem DieEffect.with_mem (h : DieEffect e rs s t) (mem : List (Nat × Byte)) (bad : List (Nat × Nat)) :
    DieEffect e rs { s with mem := mem, bad := bad } { t with mem := mem, bad := bad } where
  regs := h.regs
  dies := h.dies
  frame := by
    obtain ⟨_, _, _, _, _, _, _, rfl⟩ := h.frame
    exact ⟨_, _, _, _, _, _, _, rfl⟩

theorem dieEffect_wr {r : Reg} {i : Nat} {v : W64} (hr : r ∈ rs) : DieEffect e rs s (s.wr r e i v) where
  regs q d j hq := s.rd_wr_ne _ _ _ _ _ _ _ (by rintro ⟨rfl, rfl, -⟩; simp [hr] at hq)
  dies _ _ := rfl
  frame := ⟨_, _, _, _, _, _, _, rfl⟩

/-- A register outside the Ebb blocks. -/
theorem dieEffect_wr_outside {r : Reg} {n i : Nat} {v : W64} (hr : r ∈ rs) (hb : r.info.blk ≠ .ebb) : DieEffect e rs s (s.wr r n i v) where
  regs q d j hq := s.rd_wr_ne _ _ _ _ _ _ _ (by rintro ⟨rfl, -, -⟩; simp [hr, hb] at hq)
  dies _ _ := rfl
  frame := ⟨_, _, _, _, _, _, _, rfl⟩

theorem dieEffect_setF {r : Reg} {i lo len x : Nat} (hr : r ∈ rs) : DieEffect e rs s (s.setF r e i lo len x) := dieEffect_wr hr

theorem dieEffect_raise {r : Reg} {i k : Nat} (hr : r ∈ rs) : DieEffect e rs s (s.raise r e i k) := dieEffect_wr hr

theorem dieEffect_modEbb {f : EbbSt → EbbSt} : DieEffect e rs s (s.modEbb e f) where
  regs _ _ _ _ := rfl
  dies d hd := (s.ebb_modEbb e d f).trans (if_neg (Ne.symm hd))
  frame := ⟨_, _, _, _, _, _, _, rfl⟩

theorem dieEffect_modPort {p : Nat} {f : PortSt → PortSt} : DieEffect e rs s (s.modPort p f) :=
  ⟨fun _ _ _ _ => rfl, fun _ _ => rfl, _, _, _, _, _, _, _, rfl⟩

theorem dieEffect_sendFlit {p : Nat} {bs : List Byte} : DieEffect e rs s (s.sendFlit p bs) :=
  ⟨fun _ _ _ _ => rfl, fun _ _ => rfl, _, _, _, _, _, _, _, rfl⟩

theorem dieEffect_fault {f : FaultRec} (h : logRegs ⊆ rs) : DieEffect e rs s (s.fault f) where
  regs r d i hr := by
    refine sameRegs_fault s f r d i fun hlog => ?_
    have hblk : ∀ q ∈ logRegs, q.info.blk ≠ .ebb := by decide
    exact hr.elim (· (h hlog)) fun hb => hblk r hlog hb.1
  dies d _ := by obtain ⟨⟨_, _, _, _, hf⟩, -⟩ := s.fault_spec f; rw [hf]; rfl
  frame := by obtain ⟨⟨_, _, _, _, hf⟩, -⟩ := s.fault_spec f; exact ⟨_, _, _, _, _, _, _, hf⟩

/-- Flits sent change the port and what the chip has sent, and the port's state if its keys are spent (R369). -/
theorem dieEffect_pump {p : Nat} (h : .lnkStat ∈ rs) : DieEffect e rs s (s.pump p) := by
  have hsent (q : PortSt) (fs : List TFlit) : DieEffect e rs s (fs.foldl (fun v f => v.sendFlit p f.wire) (s.modPort p fun _ => q)) :=
    dieEffect_modPort.trans (foldl_induction (DieEffect.refl e rs) (fun _ _ _ => DieEffect.trans) (fun _ _ => dieEffect_sendFlit) fs _)
  unfold State.pump
  exact .ite _ (.refl e rs _) (.ite _ ((hsent _ _).trans (dieEffect_wr_outside h (by decide))) (hsent _ _))

theorem dieEffect_sendPacket {p vc : Nat} {k : Packet} (h : .lnkStat ∈ rs) : DieEffect e rs s (s.sendPacket p vc k) :=
  dieEffect_modPort.trans (dieEffect_pump h)

theorem State.ebb_modEbb_same (s : State) (e : Nat) (f : EbbSt → EbbSt) : (s.modEbb e f).ebb e = f (s.ebb e) :=
  (s.ebb_modEbb e e f).trans (if_pos rfl)

theorem State.ebb_congr (h : t.ebbs = s.ebbs) (d : Nat) : t.ebb d = s.ebb d := by rw [State.ebb, h, State.ebb]

/-! ### Records -/

/-- A record that follows steps which leave FLT_SEQ. -/
theorem recorded_of_fltSeq (h : u.rd .fltSeq 0 0 = s.rd .fltSeq 0 0) (h' : Recorded u t) : Recorded s t := by
  rwa [Recorded, State.fd, State.fd, h] at h'

/-! ### Fields and flags -/

/-- A flag is a field of one bit. -/
theorem State.flag_eq_fd (s : State) (r : Reg) (n i k : Nat) : s.flag r n i k = decide (s.fd r n i k 1 = 1) := by
  rw [State.flag, bit, BitVec.getLsbD, Nat.testBit_eq_decide_div_mod_eq, State.fd, fld, Nat.pow_one]

/-- Setting one bit leaves the other flags. -/
theorem State.flag_setF_ne (s : State) (r : Reg) {n i k j x : Nat} (h : j ≠ k) : (s.setF r n i k 1 x).flag r n i j = s.flag r n i j := by
  rw [State.flag_eq_fd, State.fd_setF_of_disjoint _ _ _ _ _ _ _ _ _ (by omega), ← State.flag_eq_fd]

end Sys2Proof.Machine
end

section
/-! SUPPORT. Snapshots (R313, R314, R318): the image of the selected streams with its trailer, where it stands, and the half that becomes
current. -/

namespace Sys2Proof.Machine

open Sys2Proof.Claims

variable {s t u : State} {a : Agent} {e k : Nat}

/-! ### Requests -/

theorem exec_snapshotRequest (h : MayWrite s a .ebbSnapcfg) : exec (.snapshotRequest a e) s = .next (s.raise .ebbSnapcfg e 2 8) := by
  show Host.Outcome.next (s.gated a .ebbSnapcfg e 2 fun s => s.raise .ebbSnapcfg e 2 8) = _
  rw [s.gated_of_mayWrite e 2 _ h]

/-! ### The half that becomes current -/

theorem snapSwap_spec (s : State) (e k : Nat) (hk : k < 2 ^ 48) :
    let t := s.snapSwap e k
    t.fd .ebbSnapstat e 0 48 1 = 1 - s.fd .ebbSnapstat e 0 48 1 ∧ t.fd .ebbSnapstat e 0 0 48 = k ∧ t.flag .ebbSnapstat e 0 50 = true ∧
      t.ebb e = { s.ebb e with swap := none } ∧ DieEffect e [.ebbSnapstat] s t := by
  have hcur := s.fd_lt .ebbSnapstat e 0 48 1
  unfold State.snapSwap
  dsimp only
  generalize s.fd .ebbSnapstat e 0 48 1 = cur at *
  generalize hw : (BitVec.ofNat 64 (k % 2 ^ 48 + (1 - cur) * 2 ^ 48 + 2 ^ 50) : W64) = w
  have hn : w.toNat = k + (1 - cur) * 2 ^ 48 + 2 ^ 50 := by rw [← hw, BitVec.toNat_ofNat]; omega
  have hfd (lo len : Nat) : ((s.wr .ebbSnapstat e 0 w).modEbb e fun x => { x with swap := none }).fd .ebbSnapstat e 0 lo len = fld w lo len :=
    congrArg (fld · lo len) (s.rd_wr _ _ _ _)
  refine ⟨?_, ?_, ?_, State.ebb_modEbb_same _ _ _, (dieEffect_wr (by simp)).trans dieEffect_modEbb⟩
  · rw [hfd, fld, hn]; omega
  · rw [hfd, fld, hn]; omega
  · rw [State.flag_eq_fd, hfd, fld, hn, decide_eq_true_eq]; omega

theorem exec_snapshotSwap (hk : (s.ebb e).swap = some k) :
    exec (.snapshotSwap e) s = .next (if s.flag .ebbExpstat e 0 49 then s else s.snapSwap e k) := by
  show execSnapshotSwap e s = _
  rw [execSnapshotSwap, hk]
  rfl

/-! ### The copy -/

/-- The trailer of a slot or half is 64 bytes (Table 9.7). -/
theorem length_slotTrailer (step len src crc : Nat) : (slotTrailer step len src crc).length = 64 := by
  simp [slotTrailer, length_leBytes]

theorem State.length_bytes (s : State) (x n : Nat) : (s.bytes x n).length = n := by simp [State.bytes]

/-- The streams' bytes, one after another. -/
def State.snapBody (s : State) (e : Nat) : List Byte := (s.snapRuns e).flatMap fun r => s.bytes r.1 r.2

/-- The image of a snapshot: the streams and the trailer (R314). -/
def State.snapImage (s : State) (e k : Nat) : List Byte :=
  s.snapBody e ++ slotTrailer k ((s.snapRuns e).map Prod.snd).sum s.coord (crc32 (s.snapBody e)).toNat

theorem length_snapImage (s : State) (e k : Nat) : (s.snapImage e k).length = ((s.snapRuns e).map Prod.snd).sum + 64 := by
  rw [State.snapImage, List.length_append, length_slotTrailer, State.snapBody, List.length_flatMap]
  simp only [State.length_bytes]

/-- The request is taken: it is no longer latched (R313). -/
def State.snapTaken (s : State) (e : Nat) : State := (s.setF .ebbSnapcfg e 2 8 1 0).modEbb e fun x => { x with snap := none }

/-- The lengths of the halves once half `h` holds `z` bytes. -/
def EbbSt.snapStored (x : EbbSt) (h z : Nat) : EbbSt :=
  { x with len0 := if h = 0 then z else x.len0, len1 := if h = 1 then z else x.len1 }

/-- The image stands: it becomes current, or waits for the EXPORT to end (R318). -/
def State.snapClosed (s : State) (e k : Nat) : State :=
  if s.flag .ebbExpstat e 0 49 then (s.setF .ebbSnapstat e 0 49 1 1).modEbb e fun x => { x with swap := some k } else s.snapSwap e k

theorem snapTaken_spec (s : State) (e : Nat) :
    ((s.snapTaken e).ebb e).snap = none ∧ (s.snapTaken e).flag .ebbSnapcfg e 2 8 = false ∧ (s.snapTaken e).snapHalf e = s.snapHalf e ∧
      (∀ h, h < 2 → (s.snapTaken e).snapBase e h = s.snapBase e h) ∧
      DieEffect e [.ebbSnapcfg] s (s.snapTaken e) := by
  refine ⟨?_, s.flag_setF_clear _ _ _ _ (by decide), ?_, fun h hh => ?_, (dieEffect_setF (by simp)).trans dieEffect_modEbb⟩
  · rw [State.snapTaken, State.ebb_modEbb_same]
  · exact congrArg (· * 4096) (s.fd_setF_of_disjoint .ebbSnapcfg e 2 8 1 0 16 32 (by decide))
  · exact congrArg (fld · 0 44) (s.rd_setF_word .ebbSnapcfg e 2 h 8 1 0 (by omega))

/-- Bytes of a good range outside the staging areas are put, and that is all. -/
theorem State.land_range {x : Nat} {bs : List Byte} (hgood : RangeGood s e x bs.length true)
    (hst : ∀ y, x ≤ y → y < x + bs.length → s.stagingDie y = none) :
    ∃ mem bad, s.land (wholeWrites x bs) = ({ s with mem := mem, bad := bad }, []) ∧ OnlyBytes x bs s { s with mem := mem, bad := bad } := by
  have haddr : ∀ w ∈ wholeWrites x bs, w.addr ∈ (List.range bs.length).map (x + ·) := fun w hw => by
    rw [← wholeWrites_addr]; exact List.mem_map_of_mem hw
  obtain ⟨bad, hland, -⟩ := s.land_of_good (fun w hw => unitGood_of_rangeGood hgood (haddr w hw)) fun w hw => by
    obtain ⟨i, hi, he⟩ := List.mem_map.1 (haddr w hw)
    have hi' := List.mem_range.1 hi
    exact hst _ (by omega) (by omega)
  obtain ⟨⟨mem, hput⟩, -⟩ := s.putBytes_spec (wholeWrites x bs)
  refine ⟨mem, bad, by rw [hland, hput], fun y => ?_⟩
  rw [← byte_wholeWrites, hput]
  rfl

/-- A copy that fits, between good ranges, puts the image into the half that is not current. -/
theorem snapCopy_of_good (hsize : ((s.snapRuns e).map Prod.snd).sum + 64 ≤ s.snapHalf e)
    (hwrites : RangeGood s e (s.snapBase e (1 - s.fd .ebbSnapstat e 0 48 1)) (((s.snapRuns e).map Prod.snd).sum + 64) true)
    (hst : ∀ x, s.snapBase e (1 - s.fd .ebbSnapstat e 0 48 1) ≤ x →
      x < s.snapBase e (1 - s.fd .ebbSnapstat e 0 48 1) + ((s.snapRuns e).map Prod.snd).sum + 64 → s.stagingDie x = none)
    (hreads : ∀ r ∈ s.snapRuns e, RangeGood s e r.1 r.2 true) :
    ∃ mem bad, OnlyBytes (s.snapBase e (1 - s.fd .ebbSnapstat e 0 48 1)) (s.snapImage e k) s { s with mem := mem, bad := bad } ∧
      s.snapCopy e k = State.snapClosed (State.modEbb { s.snapTaken e with mem := mem, bad := bad } e fun x =>
        x.snapStored (1 - s.fd .ebbSnapstat e 0 48 1) ((s.snapRuns e).map Prod.snd).sum) e k := by
  obtain ⟨-, -, hhalf, hbase, heff⟩ := snapTaken_spec s e
  specialize hbase (1 - s.fd .ebbSnapstat e 0 48 1) (by omega)
  have hcell := heff.cellStatus_eq (by decide)
  have hstage := heff.stagingDie_eq (by decide) (by decide)
  have hcoord : (s.snapTaken e).coord = s.coord := congrArg (fld · 0 24) (heff.regs .rteCoord _ _ (.inl (by decide)))
  have hlen := length_snapImage s e k
  have hgood (x n : Nat) (h : RangeGood s e x n true) : RangeGood (s.snapTaken e) e x n true :=
    fun y hlo hhi => ⟨(h y hlo hhi).1, (hcell y).trans (h y hlo hhi).2⟩
  have hnone : ((s.snapRuns e).flatMap fun r => (s.snapTaken e).failsAt ((List.range r.2).map (r.1 + ·))) = [] :=
    List.flatMap_eq_nil_iff.2 fun r hr => State.failsAt_of_good _ fun _ hx => unitGood_of_rangeGood (hgood _ _ (hreads r hr)) hx
  obtain ⟨mem, bad, hland, honly⟩ := State.land_range (bs := s.snapImage e k) (hgood _ _ (hlen ▸ hwrites))
    fun y hlo hhi => (hstage y).trans (hst y hlo (by omega))
  refine ⟨mem, bad, honly, ?_⟩
  have hcopy : s.snapCopy e k =
      let v := s.snapTaken e
      let bad := (s.snapRuns e).flatMap fun r => v.failsAt ((List.range r.2).map (r.1 + ·))
      if v.snapHalf e < ((s.snapRuns e).map Prod.snd).sum + 64 then ((v.ebbRaise e 15 0 0 0).latchEbb e 0x10000).snapDone e
      else if !bad.isEmpty then (v.reportUnits { src := 0x104 + e } (bad.take 1)).snapDone e
      else
        let r := v.land (wholeWrites (v.snapBase e (1 - s.fd .ebbSnapstat e 0 48 1))
          (s.snapBody e ++ slotTrailer k ((s.snapRuns e).map Prod.snd).sum v.coord (crc32 (s.snapBody e)).toNat))
        State.snapClosed ((r.1.reportUnits { src := 0x104 + e } r.2).modEbb e fun x =>
          x.snapStored (1 - s.fd .ebbSnapstat e 0 48 1) ((s.snapRuns e).map Prod.snd).sum) e k := rfl
  rw [hcopy]
  dsimp only
  rw [hhalf, if_neg (Nat.not_lt.2 hsize), hnone, if_neg (by simp), hbase, hcoord, ← State.snapImage, hland]
  rfl

/-- The image stands and is current, or waits (R313, R318). -/
theorem snapClosed_spec (s : State) (e k : Nat) (hk : k < 2 ^ 48) :
    let t := s.snapClosed e k
    (s.flag .ebbExpstat e 0 49 = false → t.fd .ebbSnapstat e 0 48 1 = 1 - s.fd .ebbSnapstat e 0 48 1 ∧ t.fd .ebbSnapstat e 0 0 48 = k ∧
      t.flag .ebbSnapstat e 0 50 = true ∧ (t.ebb e).swap = none) ∧
    (s.flag .ebbExpstat e 0 49 = true → t.fd .ebbSnapstat e 0 48 1 = s.fd .ebbSnapstat e 0 48 1 ∧ t.flag .ebbSnapstat e 0 49 = true ∧
      (t.ebb e).swap = some k) ∧
    (t.ebb e).snap = (s.ebb e).snap ∧ DieEffect e [.ebbSnapstat] s t := by
  unfold State.snapClosed
  cases hbusy : s.flag .ebbExpstat e 0 49 with
  | false =>
    obtain ⟨hcur, hstep, hvalid, hebb, heff⟩ := snapSwap_spec s e k hk
    exact ⟨fun _ => ⟨hcur, hstep, hvalid, by rw [if_neg (by decide), hebb]⟩, fun h => absurd h (by decide),
      by rw [if_neg (by decide), hebb], heff⟩
  | true =>
    dsimp only
    rw [if_pos rfl]
    have hebb := (s.setF .ebbSnapstat e 0 49 1 1).ebb_modEbb_same e fun x => { x with swap := some k }
    exact ⟨fun h => absurd h (by decide), fun _ => ⟨s.fd_setF_of_disjoint .ebbSnapstat e 0 49 1 1 48 1 (by decide),
      s.flag_raise_same .ebbSnapstat e 0 49 (by decide), by rw [hebb]⟩, by rw [hebb]; rfl, (dieEffect_setF (by simp)).trans dieEffect_modEbb⟩

/-- A copy whose turn has come, and which nothing holds back. -/
theorem exec_snapshotCopy_of_open (hk : (s.ebb e).snap = some k) (hs : s.isStranded = false)
    (hafter : ¬((s.ebbState e = 2 ∨ s.ebbState e = 3) ∧ (s.ebb e).step = k))
    (hopen : MemoryOpen s ((s.snapRuns e).flatMap fun r => (List.range r.2).map (r.1 + ·))
      ((List.range ((s.snapRuns e).map Prod.snd).sum).map (s.snapBase e (1 - s.fd .ebbSnapstat e 0 48 1) + ·))) :
    exec (.snapshotCopy e) s = .next (s.snapCopy e k) := by
  have hturn : ((s.ebbState e == 2 || s.ebbState e == 3) && (s.ebb e).step == k) = false := by
    rw [← Bool.not_eq_true]
    simpa using hafter
  show execSnapshotCopy e s = _
  rw [execSnapshotCopy, hk]
  dsimp only
  rw [hturn, hs, State.accessing, s.heldBack_of_open hopen]
  rfl

end Sys2Proof.Machine
end

section
/-! SUPPORT. Exports (R315 to R318): the packets of an image, how they are handed to their port, and how an EXPORT ends. -/

namespace Sys2Proof.Machine

open Sys2Proof.Claims

variable {s t u : State} {a : Agent} {e : Nat}

/-! ### The packets of an image (R316) -/

theorem State.bytes_add (s : State) (x m n : Nat) : s.bytes x (m + n) = s.bytes x m ++ s.bytes (x + m) n := by
  simp only [State.bytes, List.range_add, List.map_append, List.map_map, Function.comp_def, Nat.add_assoc]

/-- Pieces of 4 KiB laid end to end are the range, as far as they reach. -/
theorem flatMap_pieces (s : State) (base total k : Nat) :
    ((List.range k).flatMap fun i => s.bytes (base + 4096 * i) (min 4096 (total - 4096 * i))) = s.bytes base (min total (4096 * k)) := by
  induction k with
  | zero => simp [State.bytes]
  | succ k ih =>
    rw [List.range_succ, List.flatMap_append, ih, List.flatMap_singleton]
    obtain hle | hgt := Nat.le_total total (4096 * k)
    · have hall : total ≤ 4096 * (k + 1) := by omega
      rw [Nat.min_eq_left hle, Nat.min_eq_left hall, Nat.sub_eq_zero_of_le hle]
      simp [State.bytes]
    · rw [Nat.min_eq_right hgt, ← State.bytes_add]
      congr 1
      omega

theorem flatMap_exportPackets (s : State) (e tag base total : Nat) :
    (s.exportPackets e tag base total).flatMap (fun k => k.data) = s.bytes base total := by
  rw [State.exportPackets, List.flatMap_map]
  refine (flatMap_pieces s base total (cdiv total 4096)).trans ?_
  rw [Nat.min_eq_left (by rw [cdiv]; omega)]

theorem exportPackets_fields {tag base total : Nat} {k : Packet} (h : k ∈ s.exportPackets e tag base total) :
    k.kind = 9 ∧ k.xid = tag ∧ k.tlen = total ∧ k.plen = k.data.length ∧ k.plen ≤ 4096 := by
  obtain ⟨i, -, rfl⟩ := List.mem_map.1 h
  exact ⟨rfl, rfl, rfl, (s.length_bytes _ _).symm, Nat.min_le_left _ _⟩

theorem ebbs_pump (s : State) (p : Nat) : (s.pump p).ebbs = s.ebbs := by
  have hsent (q : PortSt) (fs : List TFlit) : (fs.foldl (fun v f => v.sendFlit p f.wire) (s.modPort p fun _ => q)).ebbs = s.ebbs :=
    foldl_induction (R := fun v w => w.ebbs = v.ebbs) (F := fun v (f : TFlit) => v.sendFlit p f.wire) (fun _ => rfl)
      (fun _ _ _ h h' => h'.trans h) (fun _ _ => rfl) fs _
  unfold State.pump
  dsimp only
  split
  · rfl
  · split
    · exact hsent _ _
    · exact hsent _ _

/-- The port takes packets from the front, in order. -/
theorem exportPump_spec (s : State) (e k : Nat) :
    let t := s.exportPump e k
    (∃ sent, sent ++ (t.ebb e).exportOut = (s.ebb e).exportOut) ∧ (t.ebb e).exportTag = (s.ebb e).exportTag ∧ DieEffect e [.lnkStat] s t := by
  induction k generalizing s with
  | zero => exact ⟨⟨[], rfl⟩, rfl, .refl e _ s⟩
  | succ k ih =>
    unfold State.exportPump
    dsimp only
    split
    · exact ⟨⟨[], rfl⟩, rfl, .refl e _ s⟩
    · next q rest hout =>
      split
      · exact ⟨⟨[], rfl⟩, rfl, .refl e _ s⟩
      · generalize 16 + s.fd .ebbExpstat e 0 52 1 = p
        have hmod := s.ebb_modEbb_same e fun x => { x with exportOut := rest }
        have heff : DieEffect e [.lnkStat] s (s.modEbb e fun x => { x with exportOut := rest }) := dieEffect_modEbb
        generalize (s.modEbb e fun x => { x with exportOut := rest }) = u at *
        have hebb : (u.sendPacket p 0 q).ebb e = u.ebb e := State.ebb_congr (ebbs_pump _ p) e
        have hsend : DieEffect e [.lnkStat] u (u.sendPacket p 0 q) := dieEffect_sendPacket (by simp)
        generalize u.sendPacket p 0 q = v at *
        obtain ⟨⟨sent, hsent⟩, htag, hrest⟩ := ih v
        refine ⟨⟨q :: sent, ?_⟩, ?_, (heff.trans hsend).trans hrest⟩
        · rw [List.cons_append, hsent, hebb, hmod, hout]
        · rw [htag, hebb, hmod]

/-! ### How an EXPORT ends -/

/-- An EXPORT's failure: nothing of it is left, and it is reported (R317, R318). -/
abbrev ExportFailed (e : Nat) (s t : State) : Prop :=
  (t.ebb e).exportTag = none ∧ (t.ebb e).exportOut = [] ∧ t.flag .ebbExpstat e 0 49 = false ∧ t.flag .ebbExpstat e 0 51 = true ∧
    Recorded s t ∧ OnlyDie e s t ∧ SameMem s t

theorem exportErr_spec (s : State) (e : Nat) :
    let t := s.exportErr e
    t.flag .ebbExpstat e 0 51 = true ∧ t.flag .ebbExpstat e 0 49 = s.flag .ebbExpstat e 0 49 ∧ Recorded s t ∧ t.ebbs = s.ebbs ∧
      t.ports = s.ports ∧ t.inbox = s.inbox ∧ DieEffect e (.ebbExpstat :: logRegs) s t := by
  unfold State.exportErr State.ebbFault
  dsimp only
  generalize hu : s.raise .ebbExpstat e 0 51 = u
  have hseq : u.rd .fltSeq 0 0 = s.rd .fltSeq 0 0 := hu ▸ s.rd_raise_reg _ _ _ _ _ _ _ (by decide)
  have herr : u.flag .ebbExpstat e 0 51 = true := hu ▸ s.flag_raise_same _ _ _ _ (by decide)
  have hbusy : u.flag .ebbExpstat e 0 49 = s.flag .ebbExpstat e 0 49 := hu ▸ s.flag_setF_ne _ (by decide)
  have heff : DieEffect e (.ebbExpstat :: logRegs) s u := hu ▸ dieEffect_raise (by simp)
  obtain ⟨_, huframe⟩ : OnlyRegs s u := hu ▸ onlyRegs_wr s _ _ _ _
  generalize ({ cls := 6, evt := 0x93, src := 0x104 + e, detail := 0 % 2 ^ 16 + (0 % 2 ^ 32) * 2 ^ 16 + (0 % 2 ^ 48) * 2 ^ 48 } : FaultRec) = f
  have hstat : (u.fault f).rd .ebbExpstat e 0 = u.rd .ebbExpstat e 0 := sameRegs_fault u f _ _ _ (by decide)
  have hflag (k : Nat) : (u.fault f).flag .ebbExpstat e 0 k = u.flag .ebbExpstat e 0 k := congrArg (bit · k) hstat
  obtain ⟨⟨_, _, _, _, hframe⟩, -⟩ := u.fault_spec f
  refine ⟨(hflag 51).trans herr, (hflag 49).trans hbusy, recorded_of_fltSeq hseq (recorded_fault u f), ?_, ?_, ?_,
    heff.trans (dieEffect_fault (by simp))⟩ <;> rw [hframe, huframe]

theorem exportFail_spec (s : State) (e : Nat) :
    ExportFailed e s (s.exportFail e) ∧ (s.exportFail e).inbox = s.inbox ∧ DieEffect e (.ebbExpstat :: logRegs) s (s.exportFail e) := by
  unfold State.exportFail
  generalize hu : (s.setF .ebbExpstat e 0 49 1 0).modEbb e (fun x => { x with exportTag := none, exportOut := [] }) = u
  have hebb : u.ebb e = { s.ebb e with exportTag := none, exportOut := [] } := hu ▸ State.ebb_modEbb_same _ _ _
  have hbusy : u.flag .ebbExpstat e 0 49 = false := hu ▸ s.flag_setF_clear _ _ _ _ (by decide)
  have hseq : u.rd .fltSeq 0 0 = s.rd .fltSeq 0 0 := hu ▸ s.rd_setF_reg .ebbExpstat _ _ _ _ _ _ _ _ (by decide)
  have hinbox : u.inbox = s.inbox := hu ▸ rfl
  have heff : DieEffect e (.ebbExpstat :: logRegs) s u := hu ▸ (dieEffect_setF (by simp)).trans dieEffect_modEbb
  obtain ⟨herr, hstill, hrec, hebbs, -, hinbox', heff'⟩ := exportErr_spec u e
  have hsame : (u.exportErr e).ebb e = u.ebb e := State.ebb_congr hebbs e
  have hall := heff.trans heff'
  exact ⟨⟨by rw [hsame, hebb], by rw [hsame, hebb], hstill.trans hbusy, herr, recorded_of_fltSeq hseq hrec, hall.onlyDie, hall.sameMem⟩,
    hinbox'.trans hinbox, hall⟩

theorem exec_exportAbort (h : MayWrite s a .ebbExpctl) :
    exec (.exportAbort a e) s = .next (if s.flag .ebbExpstat e 0 49 then s.exportFail e else s) := by
  show Host.Outcome.next (s.gated a .ebbExpctl e 0 fun s => s.exportAbort e) = _
  rw [s.gated_of_mayWrite e 0 _ h]
  rfl

theorem exec_exportTimeout {us : Nat} (htag : (s.ebb e).exportTag ≠ none) (hout : (s.ebb e).exportOut = [])
    (hlim : s.fd .rteXcfg 0 0 32 32 ≤ us) : exec (.exportTimeout e us) s = .next (s.exportFail e) := by
  have h : (s.ebb e).exportTag.isSome ∧ (s.ebb e).exportOut.isEmpty ∧ s.fd .rteXcfg 0 0 32 32 ≤ us :=
    ⟨Option.isSome_iff_ne_none.2 htag, by rw [hout]; rfl, hlim⟩
  show execExportTimeout e us s = _
  rw [execExportTimeout, if_pos h]
  rfl

/-! ### Acknowledgements (R317) -/

/-- The first packet that Table 10.10 lets be performed is taken out. -/
theorem State.takeInbox_of_takes {i kind : Nat} {k : Packet} (h : Takes s i kind k) :
    s.takeInbox i [kind] = some (k, { s with inbox := s.inbox.eraseIdx i }) := by
  obtain ⟨hk, hkind, hfirst⟩ := h
  have hbefore : ((s.inbox.take i).any fun j => j.src == k.src && j.sagt == k.sagt && pktClass j == pktClass k && j.route == k.route &&
      !sprays k.route) = false := List.any_eq_false.2 fun j hj => by simpa [and_assoc] using hfirst j hj
  rw [State.takeInbox, hk]
  dsimp only
  rw [hbefore, hkind]
  simp

/-- The EXPORT is acknowledged: DONE. -/
def State.exportDone (s : State) (e : Nat) : State :=
  ((s.setF .ebbExpstat e 0 49 1 0).raise .ebbExpstat e 0 50).modEbb e fun x => { x with exportTag := none, exportOut := [] }

theorem exec_exportAck_of_export {i : Nat} {k : Packet} (he : e < 2) (h : Takes s i 10 k) (htag : (s.ebb e).exportTag = some k.xid)
    (hother : e = 1 → (s.ebb 0).exportTag ≠ some k.xid) :
    let u : State := { s with inbox := s.inbox.eraseIdx i }
    exec (.exportAck i) s = .next (if k.status = 0 then u.exportDone e else u.exportFail e) := by
  have hfind : ([0, 1].find? fun d => (s.ebb d).exportTag == some k.xid) = some e := by
    obtain rfl | rfl : e = 0 ∨ e = 1 := by omega
    · simp [htag]
    · simp [htag, hother rfl]
  show execExportAck i s = _
  rw [execExportAck, State.takeInbox_of_takes h]
  dsimp only
  have hebb (d : Nat) : State.ebb { s with inbox := s.inbox.eraseIdx i } d = s.ebb d := rfl
  simp only [hebb, hfind]
  split <;> rfl

theorem exportDone_spec (s : State) (e : Nat) :
    let t := s.exportDone e
    (t.ebb e).exportTag = none ∧ t.flag .ebbExpstat e 0 49 = false ∧ t.flag .ebbExpstat e 0 50 = true ∧ t.inbox = s.inbox ∧
      DieEffect e [.ebbExpstat] s t := by
  unfold State.exportDone
  dsimp only
  generalize hu : s.setF .ebbExpstat e 0 49 1 0 = u
  have hbusy : u.flag .ebbExpstat e 0 49 = false := hu ▸ s.flag_setF_clear _ _ _ _ (by decide)
  have heff : DieEffect e [.ebbExpstat] s u := hu ▸ dieEffect_setF (by simp)
  refine ⟨by rw [State.ebb_modEbb_same], ?_, u.flag_raise_same _ _ _ _ (by decide), hu ▸ rfl,
    (heff.trans (dieEffect_raise (by simp))).trans dieEffect_modEbb⟩
  exact (u.flag_setF_ne (k := 50) (j := 49) .ebbExpstat (by decide)).trans hbusy

/-- An acknowledgement for no EXPORT is recorded, and nothing else. -/
theorem exec_exportAck_of_stray {i : Nat} {k : Packet} (h : Takes s i 10 k) (hnone : ∀ d, d < 2 → (s.ebb d).exportTag ≠ some k.xid) :
    ∃ fc f, exec (.exportAck i) s = .next (State.fault { s with inbox := s.inbox.eraseIdx i, freeCtr := fc } f) := by
  have hfind : ([0, 1].find? fun d => (s.ebb d).exportTag == some k.xid) = none := by
    simp [hnone 0 (by decide), hnone 1 (by decide)]
  have hebb (d : Nat) : State.ebb { s with inbox := s.inbox.eraseIdx i } d = s.ebb d := rfl
  have hexec : exec (.exportAck i) s = execExportAck i s := rfl
  rw [hexec, execExportAck, State.takeInbox_of_takes h]
  dsimp only
  simp only [hebb, hfind]
  exact ⟨_, _, rfl⟩

/-! ### How an EXPORT starts (R315, R316) -/

/-- The fields of EBB_EXPCTL that START comes with. -/
def State.expctlFields (s : State) (e v : Nat) : State :=
  (s.setF .ebbExpctl e 0 16 16 (v / 2 ^ 16 % 2 ^ 16)).setF .ebbExpctl e 0 4 1 (v / 16 % 2)

/-- ABORT and START stand below the fields. -/
theorem fld_expctl {v lo len : Nat} (hlo : 2 ≤ lo) (hlen : lo + len ≤ 64) :
    fld ((BitVec.ofNat 64 v &&& ~~~2#64) ||| 1#64) lo len = v / 2 ^ lo % 2 ^ len := by
  refine Nat.eq_of_testBit_eq fun j => ?_
  rw [testBit_fld, Nat.testBit_mod_two_pow, Nat.testBit_div_two_pow]
  by_cases hj : j < len
  · have h1 : (1#64).getLsbD (lo + j) = false := by rw [BitVec.getLsbD_one]; simp; omega
    have h2 : (2#64).getLsbD (lo + j) = false := by
      rw [show (2#64) = BitVec.twoPow 64 1 from rfl, BitVec.getLsbD_twoPow]; simp; omega
    have h64 : lo + j < 64 := by omega
    rw [BitVec.getLsbD_or, BitVec.getLsbD_and, BitVec.getLsbD_not, h1, h2, BitVec.getLsbD_ofNat]
    simp [h64, hj, Nat.add_comm j lo]
  · simp [hj]

theorem exec_exportStart {v : Nat} (h : MayWrite s a .ebbExpctl) :
    exec (.exportStart a e v) s = .next ((s.expctlFields e v).exportStart e) := by
  have habort : bit ((BitVec.ofNat 64 v &&& ~~~2#64) ||| 1#64) 1 = false := by simp [bit]
  have hstart : bit ((BitVec.ofNat 64 v &&& ~~~2#64) ||| 1#64) 0 = true := by simp [bit]
  show Host.Outcome.next (s.gated a .ebbExpctl e 0 fun s => s.expctlWrite e ((BitVec.ofNat 64 v &&& ~~~2#64) ||| 1#64)) = _
  rw [s.gated_of_mayWrite e 0 _ h, State.expctlWrite, habort, hstart, fld_expctl (by decide) (by decide), fld_expctl (by decide) (by decide)]
  rw [if_pos rfl, if_neg (by decide)]
  rfl

/-- An EXPORT over a port is admitted (R315, R363). -/
def State.ExportReady (s : State) (e port : Nat) : Prop :=
  s.flag .ebbExpstat e 0 49 = false ∧ s.flag .ebbSnapstat e 0 50 = true ∧ s.portUp (16 + port) = true ∧ s.isStranded = false ∧ s.domain ≠ 0

theorem exportReady_congr {port : Nat} (h : SameRegs [.ebbExpctl] s t) : t.ExportReady e port ↔ s.ExportReady e port := by
  have hrd (r : Reg) (hr : r ∉ [Reg.ebbExpctl]) (n i : Nat) : t.rd r n i = s.rd r n i := h r n i hr
  simp only [State.ExportReady, State.flag, State.portUp, State.linkState, State.isStranded, State.sec, State.domain, State.fd,
    hrd .ebbExpstat (by decide), hrd .ebbSnapstat (by decide), hrd .lnkStat (by decide), hrd .secState (by decide),
    hrd .rteDomain (by decide)]

/-- EBB_EXPSTAT of an EXPORT that begins: its step, busy, its port and its half. -/
def State.exportWord (s : State) (e port h : Nat) : W64 :=
  BitVec.ofNat 64 (s.fd .ebbSnapstat e 0 0 48 + 2 ^ 49 + port * 2 ^ 52 + h * 2 ^ 53)

/-- An EXPORT that has begun, with all its packets still to be sent. -/
def State.exportBegun (s : State) (e port h tag base total : Nat) : State :=
  let u := s.wr .ebbExpstat e 0 (s.exportWord e port h)
  u.modEbb e fun x => { x with exportTag := some tag, exportOut := u.exportPackets e tag base total }

/-- The bytes of the streams in half `h`, as its trailer says (R314). -/
def State.exportLen (s : State) (e h : Nat) : Nat :=
  natAt (s.bytes (s.snapBase e h + if h = 0 then (s.ebb e).len0 else (s.ebb e).len1) 64) 6 5

theorem exportStart_of_not_ready (h : ¬s.ExportReady e (s.fd .ebbExpctl e 0 4 1)) : s.exportStart e = s.exportErr e := by
  unfold State.exportStart
  refine if_pos ?_
  by_contra hadmitted
  refine h ?_
  simpa [State.ExportReady, and_assoc] using hadmitted

theorem exportStart_of_ready {port h tag base total : Nat} (hport : s.fd .ebbExpctl e 0 4 1 = port) (hh : s.fd .ebbSnapstat e 0 48 1 = h)
    (htag : s.fd .ebbExpctl e 0 16 16 = tag) (hbase : s.snapBase e h = base) (htotal : s.exportLen e h + 64 = total)
    (hready : s.ExportReady e port) (hgood : ∀ x, base ≤ x → x < base + total → s.cellStatus x = 0) :
    s.exportStart e = (s.exportBegun e port h tag base total).exportPump e (cdiv total 4096) := by
  obtain ⟨hidle, hvalid, hup, hrun, hdom⟩ := hready
  unfold State.exportStart
  dsimp only
  rw [hport, hh, htag, hbase, if_neg (by simp [hidle, hvalid, hup, hrun, hdom])]
  unfold State.exportLen at htotal
  rw [hbase] at htotal
  rw [htotal]
  generalize hu : s.wr .ebbExpstat e 0 (BitVec.ofNat 64 (s.fd .ebbSnapstat e 0 0 48 + 2 ^ 49 + port * 2 ^ 52 + h * 2 ^ 53)) = u
  have heff : DieEffect e [.ebbExpstat] s u := hu ▸ dieEffect_wr (by simp)
  have hnone : u.failsAt ((List.range total).map (base + ·)) = [] := by
    refine u.failsAt_of_cellStatus fun x hx => ?_
    obtain ⟨i, hi, rfl⟩ := List.mem_map.1 hx
    have hi' := List.mem_range.1 hi
    rw [heff.cellStatus_eq (by decide)]
    exact hgood _ (Nat.le_add_right _ _) (by omega)
  have hlen : (u.exportPackets e tag base total).length = cdiv total 4096 := by
    rw [State.exportPackets, List.length_map, List.length_range]
  rw [hnone]
  dsimp only
  rw [hlen, ← hu]
  rfl

/-- What has begun, field by field. -/
theorem exportBegun_spec (s : State) (e tag base total : Nat) {port h : Nat} (hport : port < 2) (hh : h < 2) :
    let t := s.exportBegun e port h tag base total
    (t.ebb e).exportTag = some tag ∧ (t.ebb e).exportOut = s.exportPackets e tag base total ∧ t.flag .ebbExpstat e 0 49 = true ∧
      t.fd .ebbExpstat e 0 52 1 = port ∧ t.fd .ebbExpstat e 0 53 1 = h ∧ t.fd .ebbExpstat e 0 0 48 = s.fd .ebbSnapstat e 0 0 48 ∧
      DieEffect e [.ebbExpstat] s t := by
  have hstep := s.fd_lt .ebbSnapstat e 0 0 48
  unfold State.exportBegun State.exportWord
  dsimp only
  generalize s.fd .ebbSnapstat e 0 0 48 = step at *
  generalize hw : (BitVec.ofNat 64 (step + 2 ^ 49 + port * 2 ^ 52 + h * 2 ^ 53) : W64) = w
  have hn : w.toNat = step + 2 ^ 49 + port * 2 ^ 52 + h * 2 ^ 53 := by rw [← hw, BitVec.toNat_ofNat]; omega
  generalize hu : s.wr .ebbExpstat e 0 w = u
  have hfd (lo len : Nat) : u.fd .ebbExpstat e 0 lo len = fld w lo len := hu ▸ congrArg (fld · lo len) (s.rd_wr _ _ _ _)
  have heff : DieEffect e [.ebbExpstat] s u := hu ▸ dieEffect_wr (by simp)
  have hpackets : u.exportPackets e tag base total = s.exportPackets e tag base total := by
    have hcoord : u.coord = s.coord := congrArg (fld · 0 24) (heff.sameRegs _ _ _ (by decide))
    have hdom : u.domain = s.domain := congrArg (fld · 0 16) (heff.sameRegs _ _ _ (by decide))
    simp only [State.exportPackets, hcoord, hdom, heff.bytes_eq]
  have hebb := u.ebb_modEbb_same e fun x => { x with exportTag := some tag, exportOut := u.exportPackets e tag base total }
  refine ⟨by rw [hebb], by rw [hebb]; exact hpackets, ?_, (hfd 52 1).trans ?_, (hfd 53 1).trans ?_, (hfd 0 48).trans ?_,
    heff.trans dieEffect_modEbb⟩
  · refine (State.flag_eq_fd _ _ _ _ _).trans ?_
    rw [decide_eq_true_eq]
    refine (hfd 49 1).trans ?_
    rw [fld, hn]; omega
  · rw [fld, hn]; omega
  · rw [fld, hn]; omega
  · rw [fld, hn]; omega

theorem expctlFields_spec (s : State) (e v : Nat) :
    (s.expctlFields e v).fd .ebbExpctl e 0 16 16 = v / 2 ^ 16 % 2 ^ 16 ∧ (s.expctlFields e v).fd .ebbExpctl e 0 4 1 = v / 16 % 2 ∧
      (s.expctlFields e v).ebbs = s.ebbs ∧ (s.expctlFields e v).ports = s.ports ∧ DieEffect e [.ebbExpctl] s (s.expctlFields e v) := by
  unfold State.expctlFields
  generalize hu : s.setF .ebbExpctl e 0 16 16 (v / 2 ^ 16 % 2 ^ 16) = u
  have htag : u.fd .ebbExpctl e 0 16 16 = v / 2 ^ 16 % 2 ^ 16 := by
    rw [← hu, s.fd_setF_same _ _ _ _ _ _ (by decide), Nat.mod_mod]
  have heff : DieEffect e [.ebbExpctl] s u := hu ▸ dieEffect_setF (by simp)
  refine ⟨(u.fd_setF_of_disjoint _ _ _ _ _ _ _ _ (by decide)).trans htag, ?_, by rw [State.setF_ebbs, ← hu, State.setF_ebbs],
    by rw [State.setF_ports, ← hu, State.setF_ports], heff.trans (dieEffect_setF (by simp))⟩
  rw [u.fd_setF_same _ _ _ _ _ _ (by decide)]
  omega

end Sys2Proof.Machine
end

section
/-! SUPPORT. Rule checks and Tide settings (R279, R289, R297, R301): what each command writes, and how it is refused. -/

namespace Sys2Proof.Machine

open Sys2Proof.Claims

variable {s : State} {a : Agent} {e : Nat}

/-! ### RULECHK and TIDE_LSCFG -/

theorem exec_rulechk {v : Nat} (h : MayWrite s a .ebbRulechk) : exec (.rulechk a e v) s = .next (s.rulechk e (v % 8)) := by
  show Host.Outcome.next (s.gated a .ebbRulechk e 0 fun s => s.rulechk e (v % 8)) = _
  rw [s.gated_of_mayWrite e 0 _ h]

theorem fld_ofNat {v lo len : Nat} (h : lo + len ≤ 64) : fld (BitVec.ofNat 64 v) lo len = v / 2 ^ lo % 2 ^ len := by
  refine Nat.eq_of_testBit_eq fun j => ?_
  rw [testBit_fld, BitVec.getLsbD_ofNat, Nat.testBit_mod_two_pow, Nat.testBit_div_two_pow]
  by_cases hj : j < len
  · have h64 : lo + j < 64 := by omega
    simp [hj, h64, Nat.add_comm j lo]
  · simp [hj]

/-- EMAX and EMIN decide whether TIDE_LSCFG takes a word (R279). -/
theorem exec_tideLscfg {v : Nat} (h : MayWrite s a .tideLscfg) : exec (.tideLscfg a e v) s = .next
    (if toSigned 8 (v / 2 ^ 16 % 256) ≤ toSigned 8 (v / 2 ^ 24 % 256) ∧ -126 ≤ toSigned 8 (v / 2 ^ 16 % 256) ∧
        toSigned 8 (v / 2 ^ 24 % 256) ≤ 126 then
      s.wr .tideLscfg e 0 (BitVec.ofNat 64 (v % 2 ^ 32)) else s.raise .tideLsevt e 0 2) := by
  show Host.Outcome.next (s.gated a .tideLscfg e 0 fun s => s.lscfgWrite e (BitVec.ofNat 64 v)) = _
  rw [s.gated_of_mayWrite e 0 _ h, State.lscfgWrite, fld_ofNat (by decide), fld_ofNat (by decide), fld_ofNat (by decide)]
  simp only [Nat.reducePow, Nat.div_one]
  generalize toSigned 8 (v / 65536 % 256) = emin
  generalize toSigned 8 (v / 16777216 % 256) = emax
  by_cases hin : emin ≤ emax ∧ -126 ≤ emin ∧ emax ≤ 126
  · rw [if_pos hin, if_neg (by omega)]
  · rw [if_neg hin, if_pos (by omega)]

/-! ### Schedule registers -/

/-- The registers of a die's schedule (R301). -/
def scheduleRegs : List Reg := [.tideCfg, .tideWarm, .tideLen, .tideLr, .tideBeta]

/-- An offset that falls on a register of one word in the Ebb blocks lies within that word. -/
theorem within_of_hit {r : Reg} {x : Nat} {h : Hit} (hblk : r.info.blk = .ebb) (hone : r.info.count = 1) (hhit : r.hit x = some h) :
    r.info.off ≤ (x - 0x2600000) % 0x20000 ∧ (x - 0x2600000) % 0x20000 < r.info.off + r.info.step := by
  rw [Reg.hit, hblk, hone] at hhit
  dsimp only [Blk.place] at hhit
  split at hhit
  · next hin =>
    obtain ⟨-, -, hlo, hhi, -⟩ := hin
    exact ⟨hlo, by omega⟩
  · cases hhit

/-- The schedule registers stand apart. -/
theorem hit_unique {r q : Reg} {x : Nat} {h : Hit} (hr : r ∈ scheduleRegs) (hq : q ∈ scheduleRegs) (hhit : r.hit x = some h)
    (hne : q ≠ r) : q.hit x = none := by
  have hword : ∀ r ∈ scheduleRegs, r.info.blk = .ebb ∧ r.info.count = 1 := by decide
  have happart : ∀ r ∈ scheduleRegs, ∀ q ∈ scheduleRegs, q ≠ r →
      r.info.off + r.info.step ≤ q.info.off ∨ q.info.off + q.info.step ≤ r.info.off := by decide
  by_contra hsome
  obtain ⟨h', hhit'⟩ := Option.ne_none_iff_exists'.1 hsome
  have hin := within_of_hit (hword r hr).1 (hword r hr).2 hhit
  have hin' := within_of_hit (hword q hq).1 (hword q hq).2 hhit'
  have := happart r hr q hq hne
  omega

theorem findSome?_of_unique {α β : Type} {f : α → Option β} {l : List α} {x : α} {y : β} (hx : x ∈ l) (hy : f x = some y)
    (h : ∀ z ∈ l, z ≠ x → f z = none) : l.findSome? f = some y := by
  obtain ⟨w, hw⟩ := Option.isSome_iff_exists.1 (List.findSome?_isSome_iff.2 ⟨x, hx, Option.isSome_iff_exists.2 ⟨y, hy⟩⟩)
  obtain ⟨z, hz, hfz⟩ := List.exists_of_findSome?_eq_some hw
  obtain rfl | hne := eq_or_ne z x
  · rw [hw, ← hfz, hy]
  · rw [h z hz hne] at hfz; cases hfz

/-- Without a locked field the lock does not matter (R588). -/
theorem writeFields_of_no_lock {fs : List Field} (h : ∀ f ∈ fs, f.acc ≠ .rwl) (locked : Bool) (b size : Nat) (v old : W64) :
    writeFields locked fs b size v old = writeFields false fs b size v old := by
  unfold writeFields
  generalize (old, false) = r
  induction fs generalizing r with
  | nil => rfl
  | cons f fs ih =>
    obtain ⟨hf, hfs⟩ := List.forall_mem_cons.1 h
    rw [List.foldl_cons, List.foldl_cons, ih hfs]
    congr 1
    cases hacc : f.acc <;> simp_all

/-- The word that a write leaves in a schedule register. -/
def State.scheduleWord (s : State) (r : Reg) (e b size : Nat) (v : W64) : W64 :=
  (writeFields false (r.fields 0) b size (v <<< (8 * b)) (s.rd r e 0)).1

/-- A write of a schedule register is refused once the step is checked, and if R301 does not admit its value (R289, R301). -/
theorem exec_tideScheduleWrite {r : Reg} {off size b : Nat} {v : W64} (hr : r ∈ scheduleRegs) (hmay : MayWrite s a r)
    (hhit : r.hit (0x2600000 + e * 0x20000 + off) = some ⟨r, e, 0, b⟩) :
    exec (.tideScheduleWrite a e off size v) s = .next
      (if (s.ebb e).checked then s.writeRefused e
      else if scheduleBad r (s.scheduleWord r e b size v) then s.raise .tideLsevt e 0 2
      else s.wr r e 0 (s.scheduleWord r e b size v)) := by
  have hfind : scheduleRegs.findSome? (fun r => r.hit (0x2600000 + e * 0x20000 + off)) = some ⟨r, e, 0, b⟩ :=
    findSome?_of_unique hr hhit fun q hq hne => hit_unique hr hq hhit hne
  have hfields : ∀ r ∈ scheduleRegs, ∀ f ∈ r.fields 0, f.acc ≠ .rwl := by decide
  have hword : (s.wordAfter a ⟨r, e, 0, b⟩ size (v <<< (8 * b))).1 = s.scheduleWord r e b size v :=
    congrArg Prod.fst (writeFields_of_no_lock (hfields r hr) _ _ _ _ _)
  have hwrite : s.ebbWrite a ⟨r, e, 0, b⟩ size (v <<< (8 * b)) =
      if (s.ebb e).checked && ebbGuarded r then s.writeRefused e
      else if scheduleBad r (s.wordAfter a ⟨r, e, 0, b⟩ size (v <<< (8 * b))).1 then s.raise .tideLsevt e 0 2
      else s.wr r e 0 (s.wordAfter a ⟨r, e, 0, b⟩ size (v <<< (8 * b))).1 := by
    simp only [scheduleRegs, List.mem_cons, List.not_mem_nil, or_false] at hr
    obtain rfl | rfl | rfl | rfl | rfl := hr <;> rfl
  have hguarded : ∀ r ∈ scheduleRegs, ebbGuarded r = true := by decide
  rw [hword, hguarded r hr, Bool.and_true] at hwrite
  show execTideScheduleWrite a e off size v s = _
  unfold execTideScheduleWrite
  rw [← scheduleRegs, hfind]
  dsimp only
  rw [s.gated_of_mayWrite e 0 _ hmay, hwrite]
  rfl

/-- A write that comes after the checks is reported and has no effect (R289). -/
theorem writeRefused_spec (s : State) (e : Nat) :
    let t := s.writeRefused e
    t.flag .ebbStat e 0 11 = true ∧ Recorded s t ∧ t.ebbs = s.ebbs ∧ DieEffect e ([.ebbStat] ++ logRegs) s t := by
  unfold State.writeRefused State.ebbRaise State.ebbFault
  dsimp only
  generalize hu : s.raise .ebbStat e 0 11 = u
  have hseq : u.rd .fltSeq 0 0 = s.rd .fltSeq 0 0 := hu ▸ s.rd_raise_reg _ _ _ _ _ _ _ (by decide)
  have hflag : u.flag .ebbStat e 0 11 = true := hu ▸ s.flag_raise_same _ _ _ _ (by decide)
  have hebbs : u.ebbs = s.ebbs := hu ▸ State.raise_ebbs _ _ _ _ _
  have heff : DieEffect e ([.ebbStat] ++ logRegs) s u := hu ▸ dieEffect_raise (by simp)
  generalize ({ cls := 6, evt := 11, src := 0x104 + e, detail := 0 % 2 ^ 16 + (0 % 2 ^ 32) * 2 ^ 16 + (0 % 2 ^ 48) * 2 ^ 48 } : FaultRec) = f
  obtain ⟨⟨_, _, _, _, hframe⟩, -⟩ := u.fault_spec f
  have hstat : (u.fault f).rd .ebbStat e 0 = u.rd .ebbStat e 0 := sameRegs_fault u f _ _ _ (by decide)
  exact ⟨(congrArg (bit · 11) hstat).trans hflag, recorded_of_fltSeq hseq (recorded_fault u f), by rw [hframe, hebbs],
    heff.trans (dieEffect_fault (by simp))⟩

end Sys2Proof.Machine
end

section
/-! SUPPORT. Snapshots, exports, rule checks and Tide settings together (R279, R289, R297, R301, R313 to R318). -/

namespace Sys2Proof.Machine

open Sys2Proof.Claims

variable {s : State} {a : Agent} {e : Nat}

/-- What a copy leaves, from its request to the image that stands (R313, R314, R318). -/
theorem snapCopy_spec {k : Nat} (hk : k < 2 ^ 48) (hsize : ((s.snapRuns e).map Prod.snd).sum + 64 ≤ s.snapHalf e)
    (hwrites : RangeGood s e (s.snapBase e (1 - s.fd .ebbSnapstat e 0 48 1)) (((s.snapRuns e).map Prod.snd).sum + 64) true)
    (hst : ∀ x, s.snapBase e (1 - s.fd .ebbSnapstat e 0 48 1) ≤ x →
      x < s.snapBase e (1 - s.fd .ebbSnapstat e 0 48 1) + ((s.snapRuns e).map Prod.snd).sum + 64 → s.stagingDie x = none)
    (hreads : ∀ r ∈ s.snapRuns e, RangeGood s e r.1 r.2 true) :
    let t := s.snapCopy e k
    OnlyBytes (s.snapBase e (1 - s.fd .ebbSnapstat e 0 48 1)) (s.snapImage e k) s t ∧
      (t.ebb e).snap = none ∧ t.flag .ebbSnapcfg e 2 8 = false ∧
      (s.flag .ebbExpstat e 0 49 = false → t.fd .ebbSnapstat e 0 48 1 = 1 - s.fd .ebbSnapstat e 0 48 1 ∧ t.fd .ebbSnapstat e 0 0 48 = k ∧
        t.flag .ebbSnapstat e 0 50 = true ∧ (t.ebb e).swap = none) ∧
      (s.flag .ebbExpstat e 0 49 = true → t.fd .ebbSnapstat e 0 48 1 = s.fd .ebbSnapstat e 0 48 1 ∧ t.flag .ebbSnapstat e 0 49 = true ∧
        (t.ebb e).swap = some k) ∧
      OnlyDie e s t ∧ t.gate = s.gate ∧ EbbFrame [.ebbSnapcfg, .ebbSnapstat] s t := by
  obtain ⟨mem, bad, hbytes, hcopy⟩ := snapCopy_of_good (k := k) hsize hwrites hst hreads
  obtain ⟨hnone, hlatched, -, -, htaken⟩ := snapTaken_spec s e
  rw [hcopy]
  generalize hw : State.modEbb { s.snapTaken e with mem := mem, bad := bad } e _ = w
  have hstored : DieEffect e [.ebbSnapcfg] { s with mem := mem, bad := bad } w := hw ▸ (htaken.with_mem mem bad).trans dieEffect_modEbb
  have hsnap : (w.ebb e).snap = none := by
    rw [← hw, State.ebb_modEbb_same]
    exact hnone
  have hlatch : w.flag .ebbSnapcfg e 2 8 = false := hw ▸ hlatched
  have hcur : w.fd .ebbSnapstat e 0 48 1 = s.fd .ebbSnapstat e 0 48 1 := congrArg (fld · 48 1) (hstored.sameRegs _ _ _ (by decide))
  have hbusy : w.flag .ebbExpstat e 0 49 = s.flag .ebbExpstat e 0 49 := congrArg (bit · 49) (hstored.sameRegs _ _ _ (by decide))
  obtain ⟨hfree, hwaits, hsnap', hclosed⟩ := snapClosed_spec w e k hk
  rw [hcur, hbusy] at hfree
  rw [hcur, hbusy] at hwaits
  generalize w.snapClosed e k = t at *
  have hall : DieEffect e ([.ebbSnapcfg, .ebbSnapstat] ++ logRegs) { s with mem := mem, bad := bad } t :=
    (hstored.mono (by simp)).trans (hclosed.mono (by simp))
  exact ⟨fun x => (hall.sameMem.1 x).trans (hbytes x), hsnap'.trans hsnap,
    (congrArg (bit · 8) (hclosed.sameRegs .ebbSnapcfg e 2 (by decide))).trans hlatch, hfree, hwaits, hall.onlyDie, hall.gate_eq, hall.ebbFrame⟩

/-- An EXPORT that starts over a port that is UP, from a half that passes its check (R315, R316). -/
theorem exportStart_spec {v : Nat} (hmay : MayWrite s a .ebbExpctl) (hready : s.ExportReady e (v / 16 % 2)) {base total : Nat}
    (hbase : s.snapBase e (s.fd .ebbSnapstat e 0 48 1) = base) (htotal : s.exportLen e (s.fd .ebbSnapstat e 0 48 1) + 64 = total)
    (hgood : ∀ x, base ≤ x → x < base + total → s.cellStatus x = 0) :
    ∃ (t : State) (sent : List Packet), exec (.exportStart a e v) s = .next t ∧
      (t.ebb e).exportTag = some (v / 2 ^ 16 % 2 ^ 16) ∧ t.flag .ebbExpstat e 0 49 = true ∧ t.fd .ebbExpstat e 0 52 1 = v / 16 % 2 ∧
      t.fd .ebbExpstat e 0 53 1 = s.fd .ebbSnapstat e 0 48 1 ∧ t.fd .ebbExpstat e 0 0 48 = s.fd .ebbSnapstat e 0 0 48 ∧
      ((sent ++ (t.ebb e).exportOut).flatMap (fun k => k.data) = s.bytes base total ∧ ∀ k ∈ sent ++ (t.ebb e).exportOut,
        k.kind = 9 ∧ k.xid = v / 2 ^ 16 % 2 ^ 16 ∧ k.tlen = total ∧ k.plen = k.data.length ∧ k.plen ≤ 4096) ∧
      OnlyDie e s t ∧ SameMem s t ∧ EbbFrame [.ebbExpctl, .ebbExpstat, .lnkStat] s t := by
  have hexec := exec_exportStart (e := e) (v := v) hmay
  obtain ⟨htag, hport, hebbs, -, hfields⟩ := expctlFields_spec s e v
  generalize s.expctlFields e v = u at *
  have hstat (i : Nat) : u.rd .ebbSnapstat e i = s.rd .ebbSnapstat e i := hfields.sameRegs _ _ _ (by decide)
  have hcfg (h : Nat) : u.snapBase e h = s.snapBase e h := congrArg (fld · 0 44) (hfields.sameRegs .ebbSnapcfg e h (by decide))
  have hhalf : u.fd .ebbSnapstat e 0 48 1 = s.fd .ebbSnapstat e 0 48 1 := congrArg (fld · 48 1) (hstat 0)
  have hlen (h : Nat) : u.exportLen e h = s.exportLen e h := by
    rw [State.exportLen, State.exportLen, hcfg, hfields.bytes_eq, State.ebb_congr hebbs]
  have hstep : u.fd .ebbSnapstat e 0 0 48 = s.fd .ebbSnapstat e 0 0 48 := congrArg (fld · 0 48) (hstat 0)
  have hcur := s.fd_lt .ebbSnapstat e 0 48 1
  generalize s.fd .ebbSnapstat e 0 48 1 = h at *
  rw [exportStart_of_ready hport hhalf htag ((hcfg h).trans hbase) (by rw [hlen, htotal]) ((exportReady_congr hfields.sameRegs).2 hready)
    fun x hlo hhi => (hfields.cellStatus_eq (by decide) x).trans (hgood x hlo hhi)] at hexec
  obtain ⟨htag', hout, hbusy, hport', hhalf', hstep', hbegun⟩ :=
    exportBegun_spec u e (v / 2 ^ 16 % 2 ^ 16) base total (port := v / 16 % 2) (h := h) (by omega) hcur
  generalize u.exportBegun e (v / 16 % 2) h (v / 2 ^ 16 % 2 ^ 16) base total = w at *
  obtain ⟨⟨sent, hsent⟩, htagt, hpump⟩ := exportPump_spec w e (cdiv total 4096)
  generalize w.exportPump e (cdiv total 4096) = t at *
  have hexp : t.rd .ebbExpstat e 0 = w.rd .ebbExpstat e 0 := hpump.sameRegs _ _ _ (by decide)
  have hfd (lo len : Nat) : t.fd .ebbExpstat e 0 lo len = w.fd .ebbExpstat e 0 lo len := congrArg (fld · lo len) hexp
  have hall : DieEffect e ([.ebbExpctl, .ebbExpstat, .lnkStat] ++ logRegs) s t :=
    ((hfields.mono (by simp)).trans (hbegun.mono (by simp))).trans (hpump.mono (by simp))
  rw [hout] at hsent
  refine ⟨t, sent, hexec, htagt.trans htag', (congrArg (bit · 49) hexp).trans hbusy, (hfd _ _).trans hport', (hfd _ _).trans hhalf',
    ((hfd _ _).trans hstep').trans hstep, ?_, hall.onlyDie, hall.sameMem, hall.ebbFrame⟩
  rw [hsent, flatMap_exportPackets, hfields.bytes_eq]
  exact ⟨rfl, fun k hk => exportPackets_fields hk⟩

/-- An EXPORT that is not admitted ends with ERR (R315). -/
theorem exportStart_refused_spec {v : Nat} (hmay : MayWrite s a .ebbExpctl) (hready : ¬s.ExportReady e (v / 16 % 2)) :
    ∃ t, exec (.exportStart a e v) s = .next t ∧ t.flag .ebbExpstat e 0 51 = true ∧ Recorded s t ∧ t.ebbs = s.ebbs ∧
      SameMem s t ∧ t.ports = s.ports ∧ EbbFrame [.ebbExpctl, .ebbExpstat] s t := by
  have hexec := exec_exportStart (e := e) (v := v) hmay
  obtain ⟨-, hport, hebbs, hports, hfields⟩ := expctlFields_spec s e v
  generalize s.expctlFields e v = u at *
  rw [exportStart_of_not_ready (by rw [hport, exportReady_congr hfields.sameRegs]; exact hready)] at hexec
  obtain ⟨herr, -, hrec, hebbs', hports', -, heff⟩ := exportErr_spec u e
  have hall : DieEffect e ([.ebbExpctl, .ebbExpstat] ++ logRegs) s (u.exportErr e) :=
    (hfields.mono (by simp)).trans (heff.mono (by simp))
  exact ⟨_, hexec, herr, recorded_of_fltSeq (hfields.sameRegs _ _ _ (by decide)) hrec, hebbs'.trans hebbs, hall.sameMem,
    hports'.trans hports, hall.ebbFrame⟩

/-- A check sets or clears the program's valid bit alone (R297). -/
theorem rulechk_spec (s : State) (e : Nat) {p : Nat} (hp : p < 8) :
    let t := s.rulechk e p
    t.flag .ebbRuleval e 0 p = s.ruleOk e p ∧ (∀ k, k ≠ p → t.flag .ebbRuleval e 0 k = s.flag .ebbRuleval e 0 k) ∧ OnlyRegs s t ∧
      DieEffect e [.ebbRuleval] s t :=
  ⟨s.flag_setF_b2n _ _ _ _ _ (by omega), fun _ hk => s.flag_setF_ne _ hk, onlyRegs_wr s _ _ _ _, dieEffect_setF (by simp)⟩

/-- Numbers shift as words do. -/
theorem natCast_shiftLeft (v k : Nat) : ((v <<< k : Nat) : W64) = (v : W64) <<< k := by
  refine BitVec.eq_of_toNat_eq ?_
  simp [Nat.shiftLeft_eq]

/-- Settles O52: a snapshot is its copy and its swap, an EXPORT its start and one of its ends; a setting is taken or refused. -/
theorem snapshotsExportsAndSettings : Obligations.SnapshotsExportsAndSettings := by
  unfold Obligations.SnapshotsExportsAndSettings
  intro s e he
  refine ⟨fun a hmay => ?_, fun k hk hs hafter => ?_, fun k hk hlt => ⟨fun hidle => ?_, fun hbusy => ?_⟩, fun a v hmay _ => ?_, ?_,
    fun a v hmay => ?_, fun a v hmay => ?_, fun a r off size v b hr _ hmay hhit => ?_⟩
  · exact ⟨_, exec_snapshotRequest hmay, s.flag_raise_same _ _ _ _ (by decide), sameBits_setF s _ _ _ _ _ _ _ (by decide),
      fun i hi => s.rd_setF_word _ _ _ _ _ _ _ hi, onlyRegs_wr s _ _ _ _, sameRegs_wr s _ _ _ _⟩
  · intro runs z h base body hsize hlt hwrites hst hreads hopen
    obtain ⟨hbytes, hnone, hlatch, hfree, hwaits, honly, hgate, hframe⟩ := snapCopy_spec hlt hsize hwrites hst hreads
    refine ⟨_, exec_snapshotCopy_of_open hk hs hafter hopen, hbytes, hnone, hlatch, hfree, fun hbusy => ?_, honly, hgate, hframe⟩
    obtain ⟨hcur, hwait⟩ := hwaits hbusy
    have := s.fd_lt .ebbSnapstat e 0 48 1
    exact ⟨hcur.trans (by omega), hwait⟩
  · obtain ⟨hcur, hstep, hvalid, hebb, heff⟩ := snapSwap_spec s e k hlt
    exact ⟨_, (exec_snapshotSwap hk).trans (by rw [hidle]; rfl), hcur, hstep, hvalid, by rw [hebb], heff.onlyDie, heff.sameMem,
      (heff.mono (by simp)).ebbFrame⟩
  · exact (exec_snapshotSwap hk).trans (by rw [hbusy]; rfl)
  · exact ⟨fun hready hgood => exportStart_spec hmay hready rfl rfl hgood, fun hready => exportStart_refused_spec hmay hready⟩
  · refine ⟨fun a hmay => ⟨fun hbusy => ?_, fun hidle => ?_⟩, fun us htag hout hlim => ?_,
      fun i k htakes htag hother => ⟨fun hstatus => ?_, fun hstatus => ?_⟩, fun i k htakes hnone => ?_⟩
    · obtain ⟨hfailed, -, heff⟩ := exportFail_spec s e
      exact ⟨_, (exec_exportAbort hmay).trans (by rw [hbusy]; rfl), hfailed, heff.ebbFrame⟩
    · exact (exec_exportAbort hmay).trans (by rw [hidle]; rfl)
    · obtain ⟨hfailed, -, heff⟩ := exportFail_spec s e
      exact ⟨_, exec_exportTimeout htag hout hlim, hfailed, heff.ebbFrame⟩
    · obtain ⟨htag', hbusy, hdone, hinbox, heff⟩ := exportDone_spec { s with inbox := s.inbox.eraseIdx i } e
      exact ⟨_, (exec_exportAck_of_export he htakes htag hother).trans (congrArg _ (if_pos hstatus)), htag', hbusy, hdone, hinbox,
        heff.onlyDie, heff.sameMem, heff.sameRegs⟩
    · obtain ⟨hfailed, hinbox, heff⟩ := exportFail_spec { s with inbox := s.inbox.eraseIdx i } e
      exact ⟨_, (exec_exportAck_of_export he htakes htag hother).trans (congrArg _ (if_neg hstatus)), hfailed, hinbox, heff.sameRegs⟩
    · obtain ⟨fc, f, hexec⟩ := exec_exportAck_of_stray htakes hnone
      have hrec := recorded_fault { s with inbox := s.inbox.eraseIdx i, freeCtr := fc } f
      have hregs := sameRegs_fault { s with inbox := s.inbox.eraseIdx i, freeCtr := fc } f
      obtain ⟨⟨_, _, _, _, hframe⟩, -⟩ := State.fault_spec { s with inbox := s.inbox.eraseIdx i, freeCtr := fc } f
      exact ⟨_, hexec, hrec, by rw [hframe], by rw [hframe], hregs⟩
  · obtain ⟨hvalid, hothers, hregs, heff⟩ := rulechk_spec s e (p := v % 8) (by omega)
    exact ⟨_, exec_rulechk hmay, hvalid, hothers, hregs, heff.onlyDie, heff.sameRegs⟩
  · refine ⟨fun hle hlo hhi => ?_, fun hout => ?_⟩
    · have heff : DieEffect e [.tideLscfg] s (s.wr .tideLscfg e 0 (BitVec.ofNat 64 (v % 2 ^ 32))) := dieEffect_wr (by simp)
      exact ⟨_, (exec_tideLscfg hmay).trans (congrArg _ (if_pos ⟨hle, hlo, hhi⟩)), s.rd_wr _ _ _ _, heff.onlyDie, onlyRegs_wr s _ _ _ _,
        heff.sameRegs⟩
    · have heff : DieEffect e [.tideLsevt] s (s.raise .tideLsevt e 0 2) := dieEffect_raise (by simp)
      exact ⟨_, (exec_tideLscfg hmay).trans (congrArg _ (if_neg hout)), s.flag_raise_same _ _ _ _ (by decide), heff.onlyDie,
        onlyRegs_wr s _ _ _ _, heff.sameRegs⟩
  · have hexec := exec_tideScheduleWrite (size := size) (v := (v : W64)) hr hmay hhit
    rw [State.scheduleWord, ← natCast_shiftLeft] at hexec
    intro w
    refine ⟨fun hopen hgood => ?_, fun hopen hbad => ?_, fun hchecked => ?_⟩
    · have heff : DieEffect e [r] s (s.wr r e 0 w) := dieEffect_wr (by simp)
      rw [hopen, hgood] at hexec
      exact ⟨_, hexec, s.rd_wr _ _ _ _, heff.onlyDie, onlyRegs_wr s _ _ _ _, heff.sameRegs⟩
    · have heff : DieEffect e [.tideLsevt] s (s.raise .tideLsevt e 0 2) := dieEffect_raise (by simp)
      rw [hopen, hbad] at hexec
      exact ⟨_, hexec, s.flag_raise_same _ _ _ _ (by decide), heff.onlyDie, onlyRegs_wr s _ _ _ _, heff.sameRegs⟩
    · obtain ⟨hflag, hrec, hebbs, heff⟩ := writeRefused_spec s e
      rw [hchecked] at hexec
      exact ⟨_, hexec, hflag, hrec, hebbs, heff.sameMem, heff.ebbFrame⟩

end Sys2Proof.Machine
end

section
/-! SUPPORT. What a die's work on memory may change (R286, R304 to R310), and ranges of bytes that are put into HBM or a slow tier. -/

namespace Sys2Proof.Machine

open Sys2Proof.Claims

variable {s t u : State} {e : Nat} {rs rs' : List Reg}

/-! ### Commands that leave a die's state but for its latch -/

/-- As `DieEffect`; of die `e` only the latch changes, and its state stays. -/
structure DieTouch (e : Nat) (rs : List Reg) (s t : State) : Prop where
  effect : DieEffect e rs s t
  latch : ∃ l, t.ebb e = { s.ebb e with latch := l }
  state : t.ebbState e = s.ebbState e

theorem DieTouch.refl (e : Nat) (rs : List Reg) (s : State) : DieTouch e rs s s := ⟨.refl e rs s, ⟨_, rfl⟩, rfl⟩

theorem DieTouch.trans (h : DieTouch e rs s t) (h' : DieTouch e rs t u) : DieTouch e rs s u where
  effect := h.effect.trans h'.effect
  latch := by
    obtain ⟨l, hl⟩ := h.latch
    obtain ⟨l', hl'⟩ := h'.latch
    exact ⟨l', by rw [hl', hl]⟩
  state := h'.state.trans h.state

theorem DieTouch.mono (h : DieTouch e rs s t) (hsub : rs ⊆ rs') : DieTouch e rs' s t := ⟨h.effect.mono hsub, h.latch, h.state⟩

theorem DieTouch.ite (p : Prop) [Decidable p] (h : DieTouch e rs s t) (h' : DieTouch e rs s u) : DieTouch e rs s (if p then t else u) := by
  split
  · exact h
  · exact h'

theorem DieTouch.with_mem (h : DieTouch e rs s t) (mem : List (Nat × Byte)) (bad : List (Nat × Nat)) :
    DieTouch e rs { s with mem := mem, bad := bad } { t with mem := mem, bad := bad } :=
  ⟨h.effect.with_mem mem bad, h.latch, h.state⟩

/-- A command that leaves the dies and the die's EBB_STAT. -/
theorem dieTouch_of_effect (h : DieEffect e rs s t) (hdies : t.ebbs = s.ebbs) (hstat : t.rd .ebbStat e 0 = s.rd .ebbStat e 0) :
    DieTouch e rs s t :=
  ⟨h, ⟨(s.ebb e).latch, State.ebb_congr hdies e⟩, by rw [State.ebbState, State.fd, hstat, State.ebbState, State.fd]⟩

theorem dieTouch_latchEbb (s : State) (e m : Nat) : DieTouch e rs s (s.latchEbb e m) :=
  ⟨dieEffect_modEbb, ⟨_, State.ebb_modEbb_same _ _ _⟩, rfl⟩

/-- A field of EBB_STAT below or above STATE. -/
theorem dieTouch_setF_ebbStat {lo len x : Nat} (hr : .ebbStat ∈ rs) (h : lo + len ≤ 16 ∨ 19 ≤ lo) :
    DieTouch e rs s (s.setF .ebbStat e 0 lo len x) :=
  ⟨dieEffect_setF hr, ⟨_, rfl⟩, s.fd_setF_of_disjoint _ _ _ _ _ _ _ _ (by omega)⟩

theorem dieTouch_raise_ebbStat {k : Nat} (hr : .ebbStat ∈ rs) (hk : k < 16) : DieTouch e rs s (s.raise .ebbStat e 0 k) :=
  dieTouch_setF_ebbStat hr (by omega)

/-- A register other than EBB_STAT. -/
theorem dieTouch_setF {r : Reg} {i lo len x : Nat} (hr : r ∈ rs) (hne : r ≠ .ebbStat) : DieTouch e rs s (s.setF r e i lo len x) :=
  dieTouch_of_effect (dieEffect_setF hr) rfl (s.rd_setF_reg _ _ _ _ _ _ _ _ _ hne)

theorem dieTouch_fault {f : FaultRec} (h : logRegs ⊆ rs) : DieTouch e rs s (s.fault f) := by
  refine dieTouch_of_effect (dieEffect_fault h) ?_ (sameRegs_fault s f _ _ _ (by decide))
  obtain ⟨⟨_, _, _, _, hf⟩, -⟩ := s.fault_spec f
  rw [hf]

theorem State.ebbFault_eq (s : State) (e evt seg pos addr : Nat) : ∃ f, s.ebbFault e evt seg pos addr = s.fault f := ⟨_, rfl⟩

/-- A flag of a die with its record (Table 18.6). -/
theorem ebbRaise_spec (s : State) (e seg pos addr : Nat) {k : Nat} (hk : k < 16) :
    let t := s.ebbRaise e k seg pos addr
    (∀ j, t.flag .ebbStat e 0 j = (decide (j = k) || s.flag .ebbStat e 0 j)) ∧ Recorded s t ∧ t.ebbs = s.ebbs ∧ t.outbox = s.outbox ∧
      DieTouch e ([.ebbStat] ++ logRegs) s t := by
  unfold State.ebbRaise
  dsimp only
  generalize hu : s.raise .ebbStat e 0 k = u
  obtain ⟨f, hf⟩ := u.ebbFault_eq e k seg pos addr
  have hflag (j : Nat) : u.flag .ebbStat e 0 j = (decide (j = k) || s.flag .ebbStat e 0 j) := hu ▸ s.flag_raise _ _ _ _ _ (by omega)
  have hseq : u.rd .fltSeq 0 0 = s.rd .fltSeq 0 0 := hu ▸ s.rd_raise_reg _ _ _ _ _ _ _ (by decide)
  have htouch : DieTouch e ([.ebbStat] ++ logRegs) s u := hu ▸ dieTouch_raise_ebbStat (by simp) hk
  obtain ⟨_, huframe⟩ : OnlyRegs s u := hu ▸ onlyRegs_wr s _ _ _ _
  rw [hf]
  obtain ⟨⟨_, _, _, _, hframe⟩, -⟩ := u.fault_spec f
  have hstat : (u.fault f).rd .ebbStat e 0 = u.rd .ebbStat e 0 := sameRegs_fault u f _ _ _ (by decide)
  exact ⟨fun j => (congrArg (bit · j) hstat).trans (hflag j), recorded_of_fltSeq hseq (recorded_fault u f), by rw [hframe, huframe],
    by rw [hframe, huframe], htouch.trans (dieTouch_fault (by simp))⟩

/-! ### Work on memory -/

/-- As `DieEffect`, with memory and its check state changed too. -/
def DieWrites (e : Nat) (rs : List Reg) (s t : State) : Prop := ∃ mem bad, DieEffect e rs { s with mem := mem, bad := bad } t

theorem DieEffect.dieWrites (h : DieEffect e rs s t) : DieWrites e rs s t := ⟨s.mem, s.bad, h⟩

theorem DieWrites.trans (h : DieWrites e rs s t) (h' : DieWrites e rs t u) : DieWrites e rs s u := by
  obtain ⟨_, _, h⟩ := h
  obtain ⟨mem, bad, h'⟩ := h'
  exact ⟨mem, bad, (h.with_mem mem bad).trans h'⟩

theorem DieWrites.mono (h : DieWrites e rs s t) (hsub : rs ⊆ rs') : DieWrites e rs' s t := by
  obtain ⟨mem, bad, h⟩ := h
  exact ⟨mem, bad, h.mono hsub⟩

theorem DieWrites.sameRegs (h : DieWrites e rs s t) : SameRegs rs s t := by
  obtain ⟨_, _, h⟩ := h
  exact h.sameRegs

theorem DieWrites.onlyDie (h : DieWrites e rs s t) : OnlyDie e s t := by
  obtain ⟨_, _, h⟩ := h
  exact h.onlyDie

theorem DieWrites.gate_eq (h : DieWrites e rs s t) : t.gate = s.gate := by
  obtain ⟨_, _, h⟩ := h
  exact h.gate_eq

theorem DieWrites.ebbFrame (h : DieWrites e (rs ++ logRegs) s t) : EbbFrame rs s t := by
  obtain ⟨_, _, h⟩ := h
  exact h.ebbFrame

/-! ### Bytes put -/

/-- Memory alone changes, and bytes only where `P` says; units that pass their check still do. -/
structure Stores (P : Nat → Prop) (s t : State) : Prop where
  bytes : ∀ x, ¬P x → t.byte x = s.byte x
  good : KeepsGood s.bad t.bad
  frame : ∃ mem bad, t = { s with mem := mem, bad := bad }

section
variable {P Q : Nat → Prop} {x : Nat} {bs : List Byte}

theorem Stores.refl (P : Nat → Prop) (s : State) : Stores P s s := ⟨fun _ _ => rfl, keepsGood_refl _, _, _, rfl⟩

theorem Stores.trans (h : Stores P s t) (h' : Stores P t u) : Stores P s u where
  bytes x hx := (h'.bytes x hx).trans (h.bytes x hx)
  good := keepsGood_trans h.good h'.good
  frame := by
    obtain ⟨_, _, rfl⟩ := h.frame
    obtain ⟨_, _, rfl⟩ := h'.frame
    exact ⟨_, _, rfl⟩

theorem Stores.mono (h : Stores P s t) (hsub : ∀ x, P x → Q x) : Stores Q s t :=
  ⟨fun x hx => h.bytes x fun hp => hx (hsub x hp), h.good, h.frame⟩

theorem Stores.unitGood (h : Stores P s t) {a : Nat} (ha : s.unitGood a) : t.unitGood a := by
  obtain ⟨_, _, rfl⟩ := h.frame
  exact h.good.unitGood rfl rfl ha

theorem Stores.rd_eq (h : Stores P s t) (r : Reg) (n i : Nat) : t.rd r n i = s.rd r n i := by
  obtain ⟨_, _, rfl⟩ := h.frame
  rfl

theorem Stores.stagingDie_eq (h : Stores P s t) (a : Nat) : t.stagingDie a = s.stagingDie a := by
  obtain ⟨_, _, rfl⟩ := h.frame
  rfl

theorem Stores.dieWrites (h : Stores P s t) : DieWrites e rs s t := by
  obtain ⟨mem, bad, rfl⟩ := h.frame
  exact ⟨mem, bad, .refl e rs _⟩

/-- The addresses of `n` bytes from `x`. -/
abbrev Within (x n : Nat) (y : Nat) : Prop := x ≤ y ∧ y < x + n

/-- As `Stores`, and the bytes `bs` stand at `x`. -/
structure Puts (x : Nat) (bs : List Byte) (s t : State) : Prop where
  only : OnlyBytes x bs s t
  good : KeepsGood s.bad t.bad
  frame : ∃ mem bad, t = { s with mem := mem, bad := bad }

theorem Puts.stores (h : Puts x bs s t) : Stores (Within x bs.length) s t :=
  ⟨fun y hy => (h.only y).trans (if_neg hy), h.good, h.frame⟩

theorem mem_wholeWrites {w : MWrite} (h : w ∈ wholeWrites x bs) : Within x bs.length w.addr := by
  have haddr : w.addr ∈ (List.range bs.length).map (x + ·) := by rw [← wholeWrites_addr]; exact List.mem_map_of_mem h
  obtain ⟨i, hi, he⟩ := List.mem_map.1 haddr
  have := List.mem_range.1 hi
  exact ⟨by omega, by omega⟩

/-- Bytes written where every unit passes its check are put. -/
theorem State.writeAll_puts (s : State) (h : ∀ y, Within x bs.length y → s.unitGood y) :
    ∃ t, s.writeAll (wholeWrites x bs) = (t, []) ∧ Puts x bs s t := by
  obtain ⟨bad, hall, hkeep⟩ := s.writeAll_of_good (wholeWrites x bs) fun w hw => h _ (mem_wholeWrites hw)
  obtain ⟨⟨mem, hput⟩, -⟩ := s.putBytes_spec (wholeWrites x bs)
  refine ⟨_, hall, fun y => ?_, hkeep, mem, bad, by rw [hput]⟩
  rw [← byte_wholeWrites]
  rfl

/-- So they are by an access outside the staging areas. -/
theorem State.land_puts (s : State) (h : ∀ y, Within x bs.length y → s.unitGood y)
    (hst : ∀ y, Within x bs.length y → s.stagingDie y = none) : ∃ t, s.land (wholeWrites x bs) = (t, []) ∧ Puts x bs s t := by
  obtain ⟨bad, hland, hkeep⟩ := s.land_of_good (fun w hw => h _ (mem_wholeWrites hw)) fun w hw => hst _ (mem_wholeWrites hw)
  obtain ⟨⟨mem, hput⟩, -⟩ := s.putBytes_spec (wholeWrites x bs)
  refine ⟨_, hland, fun y => ?_, hkeep, mem, bad, by rw [hput]⟩
  rw [← byte_wholeWrites]
  rfl

theorem unitGood_of_range {n : Nat} {slow : Bool} (h : RangeGood s e x n slow) {y : Nat} (hy : Within x n y) : s.unitGood y := by
  obtain ⟨hr, hc⟩ := h y hy.1 hy.2
  refine ⟨?_, hc⟩
  rw [inScratch, hr]
  cases slow <;> rfl

/-- The bytes put read as they were given. -/
theorem bytes_of_onlyBytes (h : OnlyBytes x bs s t) : t.bytes x bs.length = bs := by
  refine List.ext_getElem (State.length_bytes _ _ _) fun i hi hi' => ?_
  simp only [State.bytes, List.getElem_map, List.getElem_range]
  rw [h, if_pos ⟨Nat.le_add_right _ _, by omega⟩, Nat.add_sub_cancel_left, List.getD_eq_getElem _ _ hi']

/-- Bytes read as before where nothing of a range is stored. -/
theorem Stores.bytes_eq (h : Stores P s t) {n : Nat} (hx : ∀ y, Within x n y → ¬P y) : t.bytes x n = s.bytes x n :=
  List.map_congr_left fun i hi => h.bytes _ (hx _ ⟨Nat.le_add_right _ _, by have := List.mem_range.1 hi; omega⟩)

end

end Sys2Proof.Machine
end

section
/-! SUPPORT. Mirror streams (R309 to R312, R566): a stream sent, a stream received, its acknowledgement, its timeout, and EN cleared. -/

namespace Sys2Proof.Machine

open Sys2Proof.Claims

variable {s t u : State} {a : Agent} {e : Nat} {rs : List Reg}

theorem dieEffect_emit {m : Emission} : DieEffect e rs s (s.emit m) := ⟨fun _ _ _ _ => rfl, fun _ _ => rfl, _, _, _, _, _, _, _, rfl⟩

/-! ### Sent (R309) -/

/-- The stream of step `k` is sent, and its acknowledgement awaited. -/
def State.mirrorSent (s : State) (e k : Nat) : State :=
  let slot := 1 - s.fd .ebbMirstat e 0 48 1
  ((s.emit (.stream e 0 [s.coord, k, s.mirTxLen e, slot] (s.bytes (s.mirTxBase e) (s.mirTxLen e)))).setF .ebbMirstat e 0 49 1 1).modEbb e
    fun x => { x with mirDue := none, mirror := some (k, slot), mirLate := false }

theorem exec_mirrorStream_of_good {k : Nat} (hdue : (s.ebb e).mirDue = some k) (hen : s.mirEn e = true) (hnone : (s.ebb e).mirror = none)
    (hup : s.portUp (18 + e) = true) (hs : s.isStranded = false) (hgood : RangeGood s e (s.mirTxBase e) (s.mirTxLen e) true)
    (hopen : MemoryOpen s ((List.range (s.mirTxLen e)).map (s.mirTxBase e + ·)) []) :
    exec (.mirrorStream e) s = .next (s.mirrorSent e k) := by
  have hbytes : s.upToBad (s.mirTxBase e) (s.mirTxLen e) = (s.bytes (s.mirTxBase e) (s.mirTxLen e), none) := by
    rw [State.upToBad, s.failsAt_of_good fun _ hx => unitGood_of_rangeGood hgood hx]
  show execMirrorStream e s = _
  unfold execMirrorStream
  rw [hdue]
  dsimp only
  rw [hen, hnone, buddyPort, hup, hs, if_neg (by decide), s.accessing_of_open hopen, hbytes]
  rfl

theorem mirrorSent_spec (s : State) (e k : Nat) :
    let t := s.mirrorSent e k
    let slot := 1 - s.fd .ebbMirstat e 0 48 1
    t.outbox = s.outbox ++ [.stream e 0 [s.coord, k, s.mirTxLen e, slot] (s.bytes (s.mirTxBase e) (s.mirTxLen e))] ∧
      (t.ebb e).mirror = some (k, slot) ∧ (t.ebb e).mirDue = none ∧ t.flag .ebbMirstat e 0 49 = true ∧ DieEffect e [.ebbMirstat] s t := by
  dsimp only
  have hebb : (s.mirrorSent e k).ebb e =
      { s.ebb e with mirDue := none, mirror := some (k, 1 - s.fd .ebbMirstat e 0 48 1), mirLate := false } := State.ebb_modEbb_same _ _ _
  rw [hebb]
  exact ⟨rfl, rfl, rfl, State.flag_raise_same (s.emit _) .ebbMirstat e 0 49 (by decide),
    (dieEffect_emit.trans (dieEffect_setF (by simp))).trans dieEffect_modEbb⟩

/-! ### Received (R310) -/

/-- A stream that is accepted: the trailer loses VALID, the body is put, and the new trailer. -/
theorem mirrorReceive_puts {base size : Nat} {body tr : List Byte} (htr : tr.length = 64) (hlen : body.length + 64 ≤ size)
    (hgood : RangeGood s e base size true) (hst : ∀ x, base ≤ x → x < base + size → s.stagingDie x = none) :
    ∃ u v w, s.land [.whole (base + size - 64 + 14) 0#8] = (u, []) ∧ u.land (wholeWrites base body) = (v, []) ∧
      v.land (wholeWrites (base + size - 64) tr) = (w, []) ∧ w.bytes base body.length = body ∧ w.bytes (base + size - 64) 64 = tr ∧
      Stores (fun x => Within base body.length x ∨ (base + size - 64 ≤ x ∧ x < base + size)) s w := by
  have hunit : ∀ x, Within base size x → s.unitGood x := fun x hx => unitGood_of_range hgood hx
  have hstage : ∀ x, Within base size x → s.stagingDie x = none := fun x hx => hst x hx.1 hx.2
  have hvalid : ∀ x, Within (base + size - 64 + 14) [(0#8 : Byte)].length x → Within base size x := fun x hx => by
    simp only [Within, List.length_singleton] at hx ⊢
    omega
  have hbody : ∀ x, Within base body.length x → Within base size x := fun x hx => by simp only [Within] at hx ⊢; omega
  have htrail : ∀ x, Within (base + size - 64) tr.length x → Within base size x := fun x hx => by
    simp only [Within, htr] at hx ⊢
    omega
  obtain ⟨u, hu, hput⟩ := s.land_puts (bs := [0#8]) (fun x hx => hunit x (hvalid x hx)) fun x hx => hstage x (hvalid x hx)
  have hsu := hput.stores
  obtain ⟨v, hv, hput'⟩ := u.land_puts (bs := body) (fun x hx => hsu.unitGood (hunit x (hbody x hx)))
    fun x hx => (hsu.stagingDie_eq x).trans (hstage x (hbody x hx))
  have huv := hput'.stores
  obtain ⟨w, hw, hput''⟩ := v.land_puts (bs := tr) (fun x hx => huv.unitGood (hsu.unitGood (hunit x (htrail x hx))))
    fun x hx => ((huv.stagingDie_eq x).trans (hsu.stagingDie_eq x)).trans (hstage x (htrail x hx))
  have hvw := hput''.stores
  refine ⟨u, v, w, hu, hv, hw, ?_, ?_, ((hsu.mono fun x hx => ?_).trans (huv.mono fun _ hx => .inl hx)).trans (hvw.mono fun x hx => ?_)⟩
  · rw [hvw.bytes_eq fun y hy hy' => by simp only [Within, htr] at hy hy'; omega]
    exact bytes_of_onlyBytes hput'.only
  · have htrailer := bytes_of_onlyBytes hput''.only
    rwa [htr] at htrailer
  · simp only [Within, List.length_singleton] at hx
    exact .inr (by omega)
  · simp only [Within, htr] at hx
    exact .inr (by omega)

theorem exec_mirrorReceive_of_good {src step len slot size base : Nat} {data : List Byte} (he : e < 2) (hlen : len ≤ data.length)
    (hslot : slot < 2) (hsize : s.mirSlot e = size) (hbase : s.mirRxBase e + slot * size = base) (hs : s.isStranded = false)
    (hsrc : src = s.mirBuddy e) (hfit : len + 64 ≤ size) (hgood : RangeGood s e base size true)
    (hst : ∀ x, base ≤ x → x < base + size → s.stagingDie x = none) (hopen : MemoryOpen s [] ((List.range size).map (base + ·))) :
    ∃ t, exec (.mirrorReceive e src step len slot data) s = .next (t.emit (.streamAck e 1 step slot)) ∧
      t.bytes base len = data.take len ∧ TrailerAt t (base + size - 64) step len src (crc32 (data.take len)).toNat ∧
      Stores (fun x => Within base len x ∨ (base + size - 64 ≤ x ∧ x < base + size)) s t := by
  have hbody : (data.take len).length = len := List.length_take_of_le hlen
  obtain ⟨u, v, w, hu, hv, hw, hbytes, htrailer, hstores⟩ := mirrorReceive_puts (s := s) (body := data.take len)
    (length_slotTrailer step len src (crc32 (data.take len)).toNat) (by omega) hgood hst
  rw [hbody] at hbytes hstores
  refine ⟨w, ?_, hbytes, htrailer, hstores⟩
  have hopen' : MemoryOpen s [] ((List.range (data.take len).length).map (base + ·) ++ (List.range 64).map (base + size - 64 + ·)) := by
    refine memoryOpen_mono hopen fun x hx => ?_
    rw [List.mem_append, List.mem_map, List.mem_map] at hx
    simp only [List.mem_range] at hx
    obtain ⟨i, hi, rfl⟩ | ⟨i, hi, rfl⟩ := hx
    · exact List.mem_map_of_mem (List.mem_range.2 (by omega))
    · exact List.mem_map.2 ⟨size - 64 + i, List.mem_range.2 (by omega), by omega⟩
  have hmod : slot % 2 = slot := Nat.mod_eq_of_lt hslot
  show execMirrorReceive e src step len slot data s = _
  unfold execMirrorReceive
  dsimp only
  rw [hsize, hmod, hbase, if_neg (by omega), hs, hsrc, if_neg (by simp; omega), s.accessing_of_open hopen', hu]
  dsimp only [State.reportUnits, List.foldl_nil]
  rw [hv]
  dsimp only [State.reportUnits, List.foldl_nil]
  rw [if_neg (by omega), ← hsrc, hw]
  rfl

theorem exec_mirrorReceive_of_refused {src step len slot : Nat} {data : List Byte} (he : e < 2) (hslot : slot < 2)
    (h : s.isStranded = true ∨ src ≠ s.mirBuddy e ∨ s.mirSlot e < len + 64) :
    exec (.mirrorReceive e src step len slot data) s = .next { s with outbox := s.outbox ++ [.streamAck e 0 step slot] } := by
  show execMirrorReceive e src step len slot data s = _
  unfold execMirrorReceive
  dsimp only
  rw [if_neg (by omega), if_pos (by simpa [or_assoc] using h), Nat.mod_eq_of_lt hslot]
  rfl

/-! ### Acknowledged (R310) -/

/-- The acknowledgement of step `k` in a slot is recorded. -/
def State.mirrorAcked (s : State) (e k slot : Nat) : State :=
  (s.wr .ebbMirstat e 0 (BitVec.ofNat 64 (k % 2 ^ 48 + slot % 2 * 2 ^ 48 + 2 ^ 50))).modEbb e
    fun x => { x with mirror := none, mirLate := false }

theorem exec_mirrorAck_of_match {k slot : Nat} (h : (s.ebb e).mirror = some (k, slot)) :
    exec (.mirrorAck e k slot false) s = .next (s.mirrorAcked e k slot) := by
  show execMirrorAck e k slot false s = _
  rw [execMirrorAck, if_neg (by decide), if_pos h]
  rfl

theorem mirrorAcked_spec (s : State) (e : Nat) {k slot : Nat} (hk : k < 2 ^ 48) (hslot : slot < 2) :
    let t := s.mirrorAcked e k slot
    t.fd .ebbMirstat e 0 0 48 = k ∧ t.fd .ebbMirstat e 0 48 1 = slot ∧ t.flag .ebbMirstat e 0 49 = false ∧
      t.flag .ebbMirstat e 0 50 = true ∧ (t.ebb e).mirror = none ∧ DieEffect e [.ebbMirstat] s t := by
  unfold State.mirrorAcked
  dsimp only
  generalize hw : (BitVec.ofNat 64 (k % 2 ^ 48 + slot % 2 * 2 ^ 48 + 2 ^ 50) : W64) = w
  have hn : w.toNat = k + slot * 2 ^ 48 + 2 ^ 50 := by rw [← hw, BitVec.toNat_ofNat]; omega
  rw [State.ebb_modEbb_same]
  generalize hu : (s.wr .ebbMirstat e 0 w).modEbb e (fun x => { x with mirror := none, mirLate := false }) = u
  have heff : DieEffect e [.ebbMirstat] s u := hu ▸ (dieEffect_wr (by simp)).trans dieEffect_modEbb
  have hfd (lo len : Nat) : u.fd .ebbMirstat e 0 lo len = fld w lo len := hu ▸ congrArg (fld · lo len) (s.rd_wr _ _ _ _)
  refine ⟨?_, ?_, ?_, ?_, rfl, heff⟩
  · rw [hfd, fld, hn]; omega
  · rw [hfd, fld, hn]; omega
  · rw [State.flag_eq_fd, hfd, fld, hn, decide_eq_false_iff_not]; omega
  · rw [State.flag_eq_fd, hfd, fld, hn, decide_eq_true_eq]; omega

/-- An acknowledgement of no stream goes to the log. -/
theorem exec_mirrorAck_of_stray {k slot : Nat} (h : (s.ebb e).mirror ≠ some (k, slot)) :
    ∃ fc f, exec (.mirrorAck e k slot false) s = .next (State.fault { s with freeCtr := fc } f) := by
  show ∃ fc f, execMirrorAck e k slot false s = _
  rw [execMirrorAck, if_neg (by decide), if_neg h]
  exact ⟨_, _, rfl⟩

theorem exec_mirrorAck_of_refusal {k slot : Nat} (h : (s.ebb e).mirror ≠ none) :
    exec (.mirrorAck e k slot true) s = .next (s.ebbRaise e 12 0 0 0) := by
  show execMirrorAck e k slot true s = _
  rw [execMirrorAck, if_pos rfl, if_pos (Option.isSome_iff_ne_none.2 h)]
  rfl

/-! ### Late (R311) -/

/-- An acknowledgement that is late is reported. -/
def State.mirrorOverdue (s : State) (e : Nat) : State :=
  ((s.ebbRaise e 13 0 0 0).latchEbb e 0x20000).modEbb e fun x => { x with mirLate := true }

theorem exec_mirrorTimeout {us : Nat} : exec (.mirrorTimeout e us) s = .next
    (if (s.ebb e).mirror.isSome ∧ !(s.ebb e).mirLate ∧ s.fd .ebbMirwd e 0 0 32 ≠ 0 ∧ s.fd .ebbMirwd e 0 0 32 < us then s.mirrorOverdue e
      else s) := by
  show execMirrorTimeout e us s = _
  unfold execMirrorTimeout
  dsimp only
  split <;> rfl

theorem mirrorOverdue_spec (s : State) (e : Nat) :
    let t := s.mirrorOverdue e
    Recorded s t ∧ t.flag .ebbStat e 0 13 = true ∧ t.ebb e = { s.ebb e with mirLate := true, latch := (s.ebb e).latch ||| 0x20000#64 } ∧
      DieEffect e ([.ebbStat] ++ logRegs) s t := by
  obtain ⟨hflag, hrec, hebbs, -, htouch⟩ := ebbRaise_spec s e 0 0 0 (k := 13) (by decide)
  unfold State.mirrorOverdue
  generalize s.ebbRaise e 13 0 0 0 = u at *
  refine ⟨hrec, (hflag 13).trans rfl, ?_, (htouch.effect.trans (dieTouch_latchEbb u e _).effect).trans dieEffect_modEbb⟩
  rw [State.ebb_modEbb_same, State.latchEbb, State.ebb_modEbb_same, State.ebb_congr hebbs]

/-! ### EN cleared (R312) -/

theorem exec_mirrorDisable (h : MayWrite s a .ebbMircfg) :
    exec (.mirrorDisable a e) s = .next (if s.mirEn e then s.mirrorOff e else s) := by
  show Host.Outcome.next (s.gated a .ebbMircfg e 3 fun s => if s.mirEn e then s.mirrorOff e else s) = _
  rw [s.gated_of_mayWrite e 3 _ h]

theorem mirrorOff_spec (s : State) (e : Nat) :
    let t := s.mirrorOff e
    t.mirEn e = false ∧ SameBits .ebbMircfg e 3 (~~~0x1000000#64) s t ∧ t.flag .ebbMirstat e 0 49 = false ∧ (t.ebb e).mirDue = none ∧
      (t.ebb e).mirror = none ∧ DieEffect e [.ebbMircfg, .ebbMirstat] s t := by
  unfold State.mirrorOff
  dsimp only
  generalize hu : s.setF .ebbMircfg e 3 24 1 0 = u
  have hen : u.flag .ebbMircfg e 3 24 = false := hu ▸ s.flag_setF_clear _ _ _ _ (by decide)
  have hbits : SameBits .ebbMircfg e 3 (~~~0x1000000#64) s u := hu ▸ sameBits_setF s _ _ _ _ _ _ _ (by decide)
  have heff : DieEffect e [.ebbMircfg, .ebbMirstat] s u := hu ▸ dieEffect_setF (by simp)
  have hcfg : (u.setF .ebbMirstat e 0 49 1 0).rd .ebbMircfg e 3 = u.rd .ebbMircfg e 3 := u.rd_setF_reg _ _ _ _ _ _ _ _ _ (by decide)
  rw [State.ebb_modEbb_same]
  exact ⟨(congrArg (bit · 24) hcfg).trans hen, (congrArg (· &&& ~~~0x1000000#64) hcfg).trans hbits, u.flag_setF_clear _ _ _ _ (by decide),
    rfl, rfl, (heff.trans (dieEffect_setF (by simp))).trans dieEffect_modEbb⟩

end Sys2Proof.Machine
end

section
/-! SUPPORT. Restore streams (R561, R576): the image of a slot sent back, and a stream taken into the state area. -/

namespace Sys2Proof.Machine

open Sys2Proof.Claims

variable {s t u : State} {a : Agent} {e : Nat}

/-! ### SEND (R561) -/

theorem exec_restoreSend {slot : Nat} (h : MayWrite s a .ebbRestore) : exec (.restoreSend a e slot) s = .next
    (if s.ebbState e ≠ 0 then s.writeRefused e
      else (s.setF .ebbRestore e 0 4 1 slot).restoreSend e ((s.setF .ebbRestore e 0 4 1 slot).fd .ebbRestore e 0 4 1)) := by
  show Host.Outcome.next (s.gated a .ebbRestore e 0 fun s => s.restoreWrite e (setFld (s.rd .ebbRestore e 0) 4 1 slot) 1#64) = _
  rw [s.gated_of_mayWrite e 0 _ h]
  rfl

theorem wholeImage_congr {slot step len crc : Nat} (h : DieEffect e [.ebbRestore] s t) :
    WholeImage t e slot step len crc ↔ WholeImage s e slot step len crc := by
  simp only [WholeImage, State.mirRxBase, State.mirSlot, State.fd, h.sameRegs .ebbMircfg _ _ (by decide), h.bytes_eq,
    h.cellStatus_eq (by decide)]

/-- A whole image is streamed to the buddy. -/
theorem restoreSend_of_whole {slot step len crc : Nat} (h : WholeImage s e slot step len crc) (hup : s.portUp (18 + e) = true)
    (hs : s.isStranded = false) : s.restoreSend e slot =
      s.emit (.stream e 1 [s.coord, step, len, crc] (s.bytes (s.mirRxBase e + slot * s.mirSlot e) len)) := by
  unfold WholeImage at h
  unfold State.restoreSend
  dsimp only at h ⊢
  generalize s.mirSlot e = size at *
  generalize s.mirRxBase e + slot * size = base at *
  generalize s.bytes (base + size - 64) 64 = tr at *
  obtain ⟨rfl, rfl, hvalid, hcrc, hfit, hsum, hgood⟩ := h
  have hnone : s.failsAt ((List.range (natAt tr 6 5)).map (base + ·) ++ (List.range 64).map (base + size - 64 + ·)) = [] := by
    refine s.failsAt_of_cellStatus fun x hx => ?_
    rw [List.mem_append, List.mem_map, List.mem_map] at hx
    simp only [List.mem_range] at hx
    obtain ⟨i, hi, rfl⟩ | ⟨i, hi, rfl⟩ := hx <;> exact hgood _ (by omega) (by omega)
  rw [if_neg (by omega), hnone, hsum, hcrc, buddyPort, hup, hs, if_neg (by decide), if_neg (by simp)]

/-! ### A restore stream received (R561) -/

/-- The die is armed for a stream from its buddy that fits its state area. -/
def State.RestoreArmed (s : State) (e src len : Nat) : Prop :=
  s.flag .ebbRestore e 0 5 = true ∧ s.ebbState e = 0 ∧ s.fd .ebbStgcnt e 0 0 40 = 0 ∧ src = s.mirBuddy e ∧ len ≤ s.mirTxLen e ∧
    s.isStranded = false

/-- DONE is set and ARM cleared. -/
def State.restoreDone (s : State) (e : Nat) : State := (s.setF .ebbRestore e 0 6 1 1).setF .ebbRestore e 0 5 1 0

theorem restoreDone_spec (s : State) (e : Nat) :
    (s.restoreDone e).flag .ebbRestore e 0 6 = true ∧ (s.restoreDone e).flag .ebbRestore e 0 5 = false ∧
      (s.restoreDone e).ebbs = s.ebbs ∧ DieEffect e [.ebbRestore] s (s.restoreDone e) := by
  refine ⟨?_, State.flag_setF_clear _ _ _ _ _ (by decide), rfl, (dieEffect_setF (by simp)).trans (dieEffect_setF (by simp))⟩
  rw [State.restoreDone, State.flag_setF_ne _ _ (by decide)]
  exact s.flag_raise_same _ _ _ _ (by decide)

theorem restoreErr_spec (s : State) (e seg pos addr : Nat) :
    let t := s.restoreErr e seg pos addr
    t.flag .ebbRestore e 0 7 = true ∧ Recorded s t ∧ t.ebbs = s.ebbs ∧ DieEffect e ([.ebbRestore] ++ logRegs) s t := by
  unfold State.restoreErr
  dsimp only
  generalize hu : s.raise .ebbRestore e 0 7 = u
  have hflag : u.flag .ebbRestore e 0 7 = true := hu ▸ s.flag_raise_same _ _ _ _ (by decide)
  have hseq : u.rd .fltSeq 0 0 = s.rd .fltSeq 0 0 := hu ▸ s.rd_raise_reg _ _ _ _ _ _ _ (by decide)
  have heff : DieEffect e ([.ebbRestore] ++ logRegs) s u := hu ▸ dieEffect_raise (by simp)
  obtain ⟨_, huframe⟩ : OnlyRegs s u := hu ▸ onlyRegs_wr s _ _ _ _
  obtain ⟨f, hf⟩ := u.ebbFault_eq e 0x47 seg pos addr
  rw [hf]
  obtain ⟨⟨_, _, _, _, hframe⟩, -⟩ := u.fault_spec f
  have hrd : (u.fault f).rd .ebbRestore e 0 = u.rd .ebbRestore e 0 := sameRegs_fault u f _ _ _ (by decide)
  exact ⟨(congrArg (bit · 7) hrd).trans hflag, recorded_of_fltSeq hseq (recorded_fault u f), by rw [hframe, huframe],
    heff.trans (dieEffect_fault (by simp))⟩

theorem exec_restoreReceive_of_not_armed {src step len crc : Nat} {data : List Byte} (he : e < 2) (h : ¬s.RestoreArmed e src len) :
    exec (.restoreReceive e src step len crc data) s = .next (s.restoreErr e 0 0 0) := by
  show execRestoreReceive e src step len crc data s = _
  unfold execRestoreReceive
  rw [if_neg (by omega), if_pos]
  · rfl
  · by_contra hadmitted
    refine h ?_
    simpa [State.RestoreArmed, and_assoc] using hadmitted

theorem exec_restoreReceive_of_good {src step crc base : Nat} {data : List Byte} (he : e < 2) (h : s.RestoreArmed e src data.length)
    (hcrc : (crc32 data).toNat = crc) (hbase : s.mirTxBase e = base) (hgood : RangeGood s e base data.length true)
    (hst : ∀ x, base ≤ x → x < base + data.length → s.stagingDie x = none)
    (hopen : MemoryOpen s [] ((List.range data.length).map (base + ·))) :
    ∃ t, exec (.restoreReceive e src step data.length crc data) s = .next (t.restoreDone e) ∧
      Puts base data (s.setF .ebbRestore e 0 6 1 0) t := by
  obtain ⟨harm, hidle, hcnt, hsrc, hfit, hrun⟩ := h
  have heff : DieEffect e [.ebbRestore] s (s.setF .ebbRestore e 0 6 1 0) := dieEffect_setF (by simp)
  obtain ⟨t, hland, hput⟩ := (s.setF .ebbRestore e 0 6 1 0).land_puts (x := base) (bs := data)
    (fun y hy => unitGood_of_range (fun z hz hz' => ⟨(hgood z hz hz').1, (heff.cellStatus_eq (by decide) z).trans (hgood z hz hz').2⟩) hy)
    fun y hy => (heff.stagingDie_eq (by decide) (by decide) y).trans (hst y hy.1 hy.2)
  refine ⟨t, ?_, hput⟩
  show execRestoreReceive e src step data.length crc data s = _
  unfold execRestoreReceive
  dsimp only
  rw [if_neg (by omega), if_neg (by simp [harm, hidle, hcnt, hsrc, hfit, hrun]), List.take_length, hbase, s.accessing_of_open hopen, hland]
  dsimp only [State.reportUnits, List.foldl_nil]
  rw [if_pos ⟨rfl, hcrc, rfl⟩]
  rfl

end Sys2Proof.Machine
end

section
/-! SUPPORT. Weight outputs (R54, R291, R305): the bytes of codes, where they and their scales stand, and what a write of good ranges
leaves. -/

namespace Sys2Proof.Machine

open Sys2Proof.Claims

variable {s t u : State} {e : Nat} {g : SegEnt}

/-! ### Bytes of numbers and codes -/

theorem leBytes_congr {k x y : Nat} (h : x % 256 ^ k = y % 256 ^ k) : leBytes k x = leBytes k y := by
  induction k generalizing x y with
  | zero => rfl
  | succ k ih =>
    have hlow : x % 256 = y % 256 := by
      have := congrArg (· % 256) h
      simpa [Nat.mod_mod_of_dvd _ (Dvd.intro_left (256 ^ k) (pow_succ 256 k).symm)] using this
    have hhigh : x / 256 % 256 ^ k = y / 256 % 256 ^ k := by
      rw [pow_succ, Nat.mul_comm, Nat.mod_mul, Nat.mod_mul, hlow] at h
      exact Nat.eq_of_mul_eq_mul_left (by decide) (Nat.add_left_cancel h)
    rw [leBytes, leBytes, ih hhigh]
    refine congrArg (· :: _) (BitVec.eq_of_toNat_eq ?_)
    simpa using hlow

theorem leBytes_add (m n x : Nat) : leBytes (m + n) x = leBytes m x ++ leBytes n (x / 256 ^ m) := by
  induction m generalizing x with
  | zero => simp [leBytes]
  | succ m ih => rw [Nat.succ_add, leBytes, ih, leBytes, List.cons_append, Nat.div_div_eq_div_mul, pow_succ']

/-- Codes of 32 bits are packed as words (R54). -/
theorem packCodes_words (codes : List Nat) : packCodes 32 codes = codes.flatMap (leBytes 4) := by
  have hsize : cdiv (codes.length * 32) 8 = 4 * codes.length := by rw [cdiv]; omega
  rw [packCodes, hsize]
  induction codes with
  | nil => rfl
  | cons c t ih =>
    have hsize' : cdiv (t.length * 32) 8 = 4 * t.length := by rw [cdiv]; omega
    rw [List.foldr_cons, List.length_cons, Nat.mul_succ, Nat.add_comm, leBytes_add, List.flatMap_cons]
    generalize t.foldr (fun c a => c % 2 ^ 32 + 2 ^ 32 * a) 0 = rest at *
    have hdiv : (c % 2 ^ 32 + 2 ^ 32 * rest) / 256 ^ 4 = rest := by omega
    rw [hdiv, ih hsize', leBytes_congr (y := c) (by omega)]

/-- A word reads as its bytes stand. -/
theorem word32_of_onlyBytes {x o : Nat} {bs : List Byte} {v : W32} (h : OnlyBytes x bs s t) (ho : o + 4 ≤ bs.length)
    (hv : ∀ b, b < 4 → bs.getD (o + b) 0 = (leBytes 4 v.toNat).getD b 0) : t.word32 (x + o) = v := by
  have hbytes : t.bytes (x + o) 4 = leBytes 4 v.toNat := by
    refine List.ext_getElem (by rw [State.length_bytes, length_leBytes]) fun i hi hi' => ?_
    rw [length_leBytes] at hi'
    simp only [State.bytes, List.getElem_map, List.getElem_range]
    rw [h, if_pos ⟨by omega, by omega⟩, Nat.add_assoc, Nat.add_sub_cancel_left, hv i hi', List.getD_eq_getElem]
  rw [State.word32, hbytes, leNat_leBytes]
  refine BitVec.eq_of_toNat_eq ?_
  have := v.isLt
  rw [BitVec.toNat_ofNat]
  omega

theorem wordBytes_range (n : Nat) (val : Nat → W32) :
    wordBytes ((List.range n).map val) = (List.range n).flatMap fun i => leBytes 4 (val i).toNat := List.flatMap_map _ _ _

theorem length_wordBytes (n : Nat) (val : Nat → W32) : (wordBytes ((List.range n).map val)).length = 4 * n := by
  rw [wordBytes_range, length_flatMap_range _ n fun _ => length_leBytes _ _, Nat.mul_comm]

theorem getD_wordBytes {n i b : Nat} (val : Nat → W32) (hi : i < n) (hb : b < 4) :
    (wordBytes ((List.range n).map val)).getD (4 * i + b) 0 = (leBytes 4 (val i).toNat).getD b 0 := by
  rw [wordBytes_range]
  exact getD_flatMap_range (fun i => leBytes 4 (val i).toNat) (fun _ => length_leBytes _ _) hi hb 0

theorem word32_of_wordBytes {x n i : Nat} {val : Nat → W32} (h : OnlyBytes x (wordBytes ((List.range n).map val)) s t) (hi : i < n) :
    t.word32 (x + 4 * i) = val i :=
  word32_of_onlyBytes h (by rw [length_wordBytes]; omega) fun _ hb => getD_wordBytes val hi hb

/-! ### Conversion (R305) -/

theorem length_of_mem_groupsOf {α : Type} {k m : Nat} {l b : List α} (h : l.length = m * k) (hb : b ∈ groupsOf k m l) : b.length = k := by
  induction m generalizing l with
  | zero => cases hb
  | succ m ih =>
    rw [Nat.succ_mul] at h
    rw [groupsOf] at hb
    split at hb
    · cases hb
    · obtain rfl | hb := List.mem_cons.1 hb
      · rw [List.length_take]; omega
      · exact ih (by rw [List.length_drop]; omega) hb

theorem length_cvtBlock_codes (f : Fmt) (sat : Bool) (scale : Nat) (vs : List (Rm × W32)) :
    (cvtBlock f sat scale vs).codes.length = vs.length := by
  unfold cvtBlock
  dsimp only
  split <;> simp

/-- One block of 32 values more (R305). -/
def SegEnt.addBlock (g : SegEnt) (scale : Option Nat) (o : WeightOut) (b : List (Rm × W32)) : WeightOut :=
  let c := cvtBlock g.fmt g.num.sat (scale.getD (blockScale g.fmt (b.map Prod.snd))) b
  ⟨o.codes ++ c.codes, o.scales ++ [c.scale], o.ev.join c.ev⟩

/-- The values of a segment, each with its rounding. -/
def SegEnt.rounded (g : SegEnt) (step : Nat) (vs : List W32) : List (Rm × W32) :=
  vs.zipIdx.map fun v => (g.num.rmAt (g.seed ^^^ BitVec.ofNat 64 (step % 2 ^ 48)) v.2, v.1)

theorem convert_of_narrow (h : g.fmt.narrow = true) (step : Nat) (sc : Option Nat) (vs : List W32) :
    g.convert step sc vs = (groupsOf 32 (vs.length / 32) (g.rounded step vs)).foldl (g.addBlock sc) ⟨[], [], {}⟩ := if_pos h

theorem length_addBlocks (sc : Option Nat) (gs : List (List (Rm × W32))) (h : ∀ b ∈ gs, b.length = 32) (o : WeightOut) :
    (gs.foldl (g.addBlock sc) o).codes.length = o.codes.length + 32 * gs.length ∧
      (gs.foldl (g.addBlock sc) o).scales.length = o.scales.length + gs.length := by
  induction gs generalizing o with
  | nil => exact ⟨rfl, rfl⟩
  | cons b gs ih =>
    obtain ⟨hb, hgs⟩ := List.forall_mem_cons.1 h
    obtain ⟨hcodes, hscales⟩ := ih hgs (g.addBlock sc o b)
    rw [List.foldl_cons, hcodes, hscales, SegEnt.addBlock, List.length_append, List.length_append, length_cvtBlock_codes, hb,
      List.length_cons, List.length_singleton]
    omega

/-- Whole blocks give a code for each value and a scale for each block; other formats a code for each value. -/
theorem length_convert {vs : List W32} (step : Nat) (sc : Option Nat) (h : g.fmt.narrow = true → vs.length % 32 = 0) :
    (g.convert step sc vs).codes.length = vs.length ∧
      (g.convert step sc vs).scales.length = if g.fmt.narrow then vs.length / 32 else 0 := by
  have hlen : (g.rounded step vs).length = vs.length := by rw [SegEnt.rounded, List.length_map, List.length_zipIdx]
  cases hn : g.fmt.narrow with
  | true =>
    have hmod := h hn
    have hrows : (g.rounded step vs).length = vs.length / 32 * 32 := by omega
    obtain ⟨hcodes, hscales⟩ := length_addBlocks (g := g) sc (groupsOf 32 (vs.length / 32) (g.rounded step vs))
      (fun b hb => length_of_mem_groupsOf hrows hb) ⟨[], [], {}⟩
    rw [convert_of_narrow hn, hcodes, hscales, length_groupsOf (by decide) _ _ hrows, List.length_nil, if_pos rfl]
    omega
  | false =>
    rw [SegEnt.convert, if_neg (by simp [hn])]
    simp

/-- FP32 weights are the values, NaNs in their canonical form. -/
theorem convert_fp32 (h : g.fmt = .fp32) (step : Nat) (sc : Option Nat) (vs : List W32) :
    (g.convert step sc vs).codes = vs.map (fun v => (canon32 v).toNat) ∧ (g.convert step sc vs).scales = [] := by
  unfold SegEnt.convert
  rw [h]
  refine ⟨?_, rfl⟩
  show (((vs.zipIdx.map fun v => (g.num.rmAt _ v.2, v.1)).map fun v => cvtElem .fp32 v.1 g.num.sat 0 v.2).map Prod.fst) = _
  rw [List.map_map, List.map_map]
  conv_rhs => rw [← List.zipIdx_map_fst 0 vs, List.map_map]
  refine List.map_congr_left fun v _ => ?_
  simp [cvtElem]

/-! ### Where weights stand (R291) -/

theorem SegEnt.wtotal_fp32 (h : g.fmt = .fp32) : g.wtotal = 4 * g.n := by
  rw [SegEnt.wtotal, h]
  show g.wsize = _
  rw [SegEnt.wsize, h, cdiv, Fmt.width]
  omega

theorem mem_writes {o : WeightOut} (hcodes : o.codes.length = g.n) (hscales : o.scales.length = if g.fmt.narrow then g.n / 32 else 0)
    {w : MWrite} (h : w ∈ g.writes o) : Within g.w g.wtotal w.addr := by
  have hup : g.wsize ≤ up64 g.wsize := by rw [up64, cdiv]; omega
  rw [SegEnt.writes] at h
  obtain h | h := List.mem_append.1 h <;> have hin := mem_wholeWrites h
  · rw [packCodes, length_leBytes, hcodes] at hin
    refine ⟨hin.1, Nat.lt_of_lt_of_le hin.2 (Nat.add_le_add_left ?_ _)⟩
    show g.wsize ≤ _
    rw [SegEnt.wtotal]
    split <;> omega
  · rw [List.length_map, hscales] at hin
    simp only [Within, SegEnt.wtotal] at hin ⊢
    split at hin <;> rename_i hn
    · rw [if_pos hn]; omega
    · omega

/-! ### Scale records -/

/-- Lists of a record that has its form: 16 values of history, and the last 50 bytes. -/
def ScaleRec.Formed (r : ScaleRec) : Prop := r.hist.length = 16 ∧ r.tail.length = 50

theorem length_sliceB (bs : List Byte) (o n : Nat) : (sliceB bs o n).length = n := by
  rw [sliceB, List.length_append, List.length_replicate]
  exact Nat.add_sub_cancel' (by rw [List.length_take]; omega)

theorem ScaleRec.formed_ofBytes (bs : List Byte) : (ScaleRec.ofBytes bs).Formed :=
  ⟨by simp [ScaleRec.ofBytes], length_sliceB _ _ _⟩

theorem ScaleRec.Formed.startUse {r r' : ScaleRec} (h : r.Formed) {step : Nat} (hr : r.startUse step = some r') : r'.Formed := by
  have hset (l : List W32) (ks : List Nat) (f : Nat → Nat) : (ks.foldl (fun l k => l.set (f k) 0#32) l).length = l.length := by
    induction ks generalizing l with
    | nil => rfl
    | cons k ks ih => rw [List.foldl_cons, ih, List.length_set]
  unfold ScaleRec.startUse at hr
  obtain ⟨-, hr⟩ := Option.ite_none_left_eq_some.1 hr
  obtain rfl := Option.some.inj hr
  split
  · exact ⟨by rw [hset, List.length_set]; exact h.1, h.2⟩
  · exact h

theorem ScaleRec.Formed.length_toBytes {r : ScaleRec} (h : r.Formed) : r.toBytes.length = 128 := by
  have hhist : (r.hist.flatMap fun v => leBytes 4 v.toNat).length = 64 := by
    rw [List.length_flatMap]
    simp [length_leBytes, h.1]
  simp only [ScaleRec.toBytes, List.length_append, hhist, length_leBytes, List.length_take, List.length_drop, List.length_singleton, h.2]
  rfl

/-- A use that starts has a record in its form, and only a segment that uses one (R70). -/
theorem formed_of_segRec {step k : Nat} {r : ScaleRec} (h : s.segRec e g step = .inl (some (r, k))) :
    g.usesRec = true ∧ ∀ amax clip, (r.endUse amax clip).toBytes.length = 128 := by
  unfold State.segRec at h
  split at h
  · cases h
  · next huses =>
    split at h
    · cases h
    · split at h
      · cases h
      · next r' hstart =>
        simp only [Sum.inl.injEq, Option.some.injEq, Prod.mk.injEq] at h
        obtain ⟨rfl, -⟩ := h
        have hform := (ScaleRec.formed_ofBytes _).startUse hstart
        exact ⟨by simpa using huses, fun _ _ => ScaleRec.Formed.length_toBytes hform⟩

theorem segRec_of_not_usesRec {step : Nat} (h : g.usesRec = false) : s.segRec e g step = .inl none := by
  rw [State.segRec, h]
  rfl

theorem usesRec_of_fp32 (h : g.fmt = .fp32) : g.usesRec = false := by rw [SegEnt.usesRec, h]; rfl

/-! ### The write -/

/-- Where a segment's weights and its scale record stand. -/
def SegEnt.Output (g : SegEnt) (x : Nat) : Prop := Within g.w g.wtotal x ∨ (g.usesRec = true ∧ Within g.sr 128 x)

/-- Weights of a whole segment between good ranges are written, and so is its scale record. -/
theorem writeWeights_of_good {step : Nat} {sc : Option (ScaleRec × Nat)} (val : Nat → W32) (hrec : s.segRec e g step = .inl sc)
    (hw : RangeGood s e g.w g.wtotal false) (hsr : g.usesRec = true → RangeGood s e g.sr 128 true ∧ ∀ x, Within g.sr 128 x → s.stagingDie x = none)
    (hn : g.fmt.narrow = true → g.n % 32 = 0) :
    ∃ t ev, s.writeWeights e g step sc ((List.range g.n).map val) = (t, ev, none) ∧ Stores g.Output s t ∧
      (g.fmt = .fp32 → ∀ i, i < g.n → t.word32 (g.w + 4 * i) = canon32 (val i)) := by
  have hlen : ((List.range g.n).map val).length = g.n := by rw [List.length_map, List.length_range]
  obtain ⟨hcodes, hscales⟩ := length_convert (g := g) (vs := (List.range g.n).map val) step (sc.map Prod.snd) (by rwa [hlen])
  rw [hlen] at hcodes hscales
  have hfp (hf : g.fmt = .fp32) := convert_fp32 hf step (sc.map Prod.snd) ((List.range g.n).map val)
  generalize ho : g.convert step (sc.map Prod.snd) ((List.range g.n).map val) = o at *
  have haddr : ∀ w ∈ g.writes o, Within g.w g.wtotal w.addr := fun w hmem => mem_writes hcodes hscales hmem
  obtain ⟨bad, hall, hkeep⟩ := s.writeAll_of_good (g.writes o) fun w hmem => unitGood_of_range hw (haddr w hmem)
  have hoff : (g.writes o).filter (fun w => regionOf w.addr != .hbm) = [] := List.filter_eq_nil_iff.2 fun w hmem => by
    obtain ⟨hlo, hhi⟩ := haddr w hmem
    simp [(hw _ hlo hhi).1]
  obtain ⟨⟨mem, hput⟩, hbytes⟩ := s.putBytes_spec (g.writes o)
  generalize hu : ({ (g.writes o).foldl State.putByte s with bad := bad } : State) = u at hall
  have hstores : Stores g.Output s u := by
    subst hu
    exact ⟨fun x hx => hbytes x fun w hmem hwx => hx (.inl (hwx ▸ haddr w hmem)), hkeep, mem, bad, by rw [hput]⟩
  have hwords (hf : g.fmt = .fp32) {i : Nat} (hi : i < g.n) : u.word32 (g.w + 4 * i) = canon32 (val i) := by
    obtain ⟨hc, hs⟩ := hfp hf
    have hpack : g.writes o = wholeWrites g.w (wordBytes ((List.range g.n).map fun i => canon32 (val i))) := by
      rw [SegEnt.writes, hc, hs, hf, Fmt.width, packCodes_words, List.map_map, List.flatMap_map, wordBytes_range]
      exact List.append_nil _
    refine word32_of_wordBytes (s := s) (n := g.n) (val := fun i => canon32 (val i)) (fun x => ?_) hi
    rw [← byte_wholeWrites, ← hpack, ← hu]
    rfl
  unfold State.writeWeights
  dsimp only
  rw [ho, hall, hoff]
  dsimp only [List.map_nil, List.append_nil]
  cases sc with
  | none => exact ⟨u, o.ev, rfl, hstores, fun hf i hi => hwords hf hi⟩
  | some p =>
    obtain ⟨r, k⟩ := p
    obtain ⟨huses, hsize⟩ := formed_of_segRec hrec
    obtain ⟨hgood, hst⟩ := hsr huses
    obtain ⟨v, hland, hrecput⟩ := u.land_puts (x := g.sr) (bs := (r.endUse (amaxOf ((List.range g.n).map val)) o.ev.clip).toBytes)
      (fun y hy => hstores.unitGood (unitGood_of_range hgood (by rwa [hsize] at hy)))
      fun y hy => (hstores.stagingDie_eq y).trans (hst y (by rwa [hsize] at hy))
    refine ⟨v, o.ev, ?_, hstores.trans (hrecput.stores.mono fun x hx => .inr ⟨huses, by rwa [hsize] at hx⟩), fun hf => ?_⟩
    · show ((if ((List.range g.n).map val).length = g.n then (u.land (wholeWrites g.sr _)).1 else u), o.ev, none) = _
      rw [if_pos hlen, hland]
    · rw [usesRec_of_fp32 hf] at huses
      cases huses

end Sys2Proof.Machine
end

section
/-! SUPPORT. EBB_RESTORE.BUILD (R562): the FP32 weights of a segment from its state; and what weight events leave. -/

namespace Sys2Proof.Machine

open Sys2Proof.Claims

variable {s t u : State} {a : Agent} {e : Nat} {g : SegEnt} {rs : List Reg}

theorem DieEffect.rangeGood (h : DieEffect e rs s t) (hr : .spdBankst ∉ rs) {d x n : Nat} {slow : Bool} (hgood : RangeGood s d x n slow) :
    RangeGood t d x n slow := fun y hlo hhi => ⟨(hgood y hlo hhi).1, (h.cellStatus_eq hr y).trans (hgood y hlo hhi).2⟩

theorem DieEffect.segments_eq (h : DieEffect e rs s t) (hseg : .ebbSeg ∉ rs) (hcnt : .ebbSegcnt ∉ rs) (d : Nat) :
    t.segments d = s.segments d := by
  have hent (i : Nat) : t.segEnt d i = s.segEnt d i := by simp only [State.segEnt, h.sameRegs .ebbSeg _ _ hseg]
  simp only [State.segments, State.fd, h.sameRegs .ebbSegcnt _ _ hcnt, hent]

theorem DieEffect.word32_eq (h : DieEffect e rs s t) (x : Nat) : t.word32 x = s.word32 x := by
  rw [State.word32, h.bytes_eq, State.word32]

/-! ### Events -/

/-- Flags of EBB_STAT below STATE are set. -/
theorem dieTouch_raiseMask {m : W64} (hr : .ebbStat ∈ rs) (hm : m.toNat < 2 ^ 16) : DieTouch e rs s (s.raiseMask .ebbStat e 0 m) := by
  refine ⟨dieEffect_wr hr, ⟨_, rfl⟩, ?_⟩
  have hrd : (s.raiseMask .ebbStat e 0 m).rd .ebbStat e 0 = s.rd .ebbStat e 0 ||| m := s.rd_wr _ _ _ _
  refine Nat.eq_of_testBit_eq fun j => ?_
  rw [State.ebbState, State.fd, hrd, State.ebbState, State.fd, testBit_fld, testBit_fld, BitVec.getLsbD_or]
  have hbit : m.getLsbD (16 + j) = false :=
    Nat.testBit_lt_two_pow (Nat.lt_of_lt_of_le hm (Nat.pow_le_pow_right (by decide) (Nat.le_add_right 16 j)))
  rw [hbit, Bool.or_false]

theorem dieTouch_weightEvents (s : State) (e : Nat) (ev : CvtEv) : DieTouch e [.ebbStat] s (s.weightEvents e ev) := by
  refine (dieTouch_raiseMask (by simp) ?_).trans (dieTouch_latchEbb _ e _)
  cases ev.ovf <;> cases ev.inv <;> cases ev.clip <;> decide

/-! ### BUILD (R562) -/

theorem exec_restoreBuild (h : MayWrite s a .ebbRestore) : exec (.restoreBuild a e) s = .next
    (if s.ebbState e ≠ 0 then s.writeRefused e
      else s.accessing (s.buildAddrs e).1 (s.buildAddrs e).2 fun s =>
        (s.wr .ebbRestore e 0 (s.rd .ebbRestore e 0)).restoreBuild e) := by
  have hwrite (hidle : s.ebbState e = 0) : s.restoreWrite e (s.rd .ebbRestore e 0) 2#64 =
      (s.wr .ebbRestore e 0 (s.rd .ebbRestore e 0)).restoreBuild e := by
    rw [State.restoreWrite, if_neg (by simp [hidle])]
    rfl
  show Host.Outcome.next (s.gated a .ebbRestore e 0 fun s => if s.ebbState e ≠ 0 then s.writeRefused e
    else s.accessing (s.buildAddrs e).1 (s.buildAddrs e).2 fun s => s.restoreWrite e (s.rd .ebbRestore e 0) 2#64) = _
  rw [s.gated_of_mayWrite e 0 _ h]
  split
  · rfl
  · next hidle =>
    rw [not_not] at hidle
    unfold State.accessing
    split
    · rfl
    · exact congrArg _ (hwrite hidle)

theorem buildAddrs_of_one (hseg : s.segments e = [(0, g)]) (hwen : g.wen = true) (hfmt : g.fmt = .fp32) :
    s.buildAddrs e = ((List.range (4 * g.n)).map (g.st + ·), (List.range (4 * g.n)).map (g.w + ·)) := by
  have hgs : ((s.segments e).map Prod.snd).filter (·.wen) = [g] := by rw [hseg]; simp [hwen]
  rw [State.buildAddrs, hgs, List.flatMap_singleton, List.flatMap_singleton, SegEnt.wtotal_fp32 hfmt]

/-- A segment of FP32 weights between good ranges is built. -/
theorem buildFrom_of_good {step : Nat} (hwen : g.wen = true) (hfmt : g.fmt = .fp32) (hst : RangeGood s e g.st (4 * g.n) true)
    (hw : RangeGood s e g.w (4 * g.n) false) :
    ∃ t ev, State.buildFrom e step [(0, g)] s = (t.weightEvents e ev).raise .ebbRestore e 0 6 ∧ Stores (Within g.w (4 * g.n)) s t ∧
      ∀ i, i < g.n → t.word32 (g.w + 4 * i) = canon32 (s.word32 (g.st + 4 * i)) := by
  have hnot := usesRec_of_fp32 hfmt
  have hrec : s.segRec e g step = .inl none := segRec_of_not_usesRec hnot
  obtain ⟨t, ev, hweights, hstores, hwords⟩ := writeWeights_of_good (fun j => s.word32 (g.st + 4 * j)) hrec
    (by rwa [SegEnt.wtotal_fp32 hfmt]) (fun h => absurd h (by simp [hnot])) fun h => absurd h (by simp [hfmt, Fmt.narrow])
  refine ⟨t, ev, ?_, hstores.mono fun x hx => ?_, hwords hfmt⟩
  · rw [State.buildFrom, hwen, if_neg (by decide), hrec]
    dsimp only
    rw [s.failsAt_of_good fun _ hx => unitGood_of_rangeGood hst hx]
    dsimp only
    rw [hweights]
    rfl
  · rw [SegEnt.Output, SegEnt.wtotal_fp32 hfmt, hnot] at hx
    simpa using hx

/-- BUILD of one segment: its weights stand, and DONE is set. -/
theorem restoreBuild_of_good (hseg : s.segments e = [(0, g)]) (hwen : g.wen = true) (hfmt : g.fmt = .fp32)
    (hst : RangeGood s e g.st (4 * g.n) true) (hw : RangeGood s e g.w (4 * g.n) false) :
    let t := (s.wr .ebbRestore e 0 (s.rd .ebbRestore e 0)).restoreBuild e
    t.flag .ebbRestore e 0 6 = true ∧ (∀ i, i < g.n → t.word32 (g.w + 4 * i) = canon32 (s.word32 (g.st + 4 * i))) ∧
      (∀ x, ¬(g.w ≤ x ∧ x < g.w + 4 * g.n) → t.byte x = s.byte x) ∧ DieWrites e [.ebbRestore, .ebbStat] s t := by
  unfold State.restoreBuild
  dsimp only
  generalize hu : (s.wr .ebbRestore e 0 (s.rd .ebbRestore e 0)).setF .ebbRestore e 0 6 1 0 = u
  have heff : DieEffect e [.ebbRestore, .ebbStat] s u := hu ▸ (dieEffect_wr (by simp)).trans (dieEffect_setF (by simp))
  rw [heff.segments_eq (by decide) (by decide), hseg]
  obtain ⟨v, ev, hbuild, hstores, hwords⟩ := buildFrom_of_good (step := u.fd .ebbRestore e 0 16 48) hwen hfmt
    (heff.rangeGood (by decide) hst) (heff.rangeGood (by decide) hw)
  rw [hbuild]
  have hlast : DieEffect e [.ebbRestore, .ebbStat] v ((v.weightEvents e ev).raise .ebbRestore e 0 6) :=
    ((dieTouch_weightEvents v e ev).effect.mono (by simp)).trans (dieEffect_raise (by simp))
  refine ⟨State.flag_raise_same _ _ _ _ _ (by decide), fun i hi => ?_, fun x hx => ?_, (heff.dieWrites.trans hstores.dieWrites).trans hlast.dieWrites⟩
  · rw [hlast.word32_eq, hwords i hi, heff.word32_eq]
  · rw [hlast.sameMem.1, hstores.bytes x hx, heff.sameMem.1]

end Sys2Proof.Machine
end

section
/-! SUPPORT. Mirrors and restores together (R309 to R312, R561, R562, R566, R576, R611). -/

namespace Sys2Proof.Machine

open Sys2Proof.Claims

variable {s : State} {a : Agent} {e : Nat}

/-- An image that is sent back (R561). -/
theorem exec_restoreSend_of_whole {slot step len crc : Nat} (hmay : MayWrite s a .ebbRestore) (hslot : slot < 2) (hidle : s.ebbState e = 0)
    (hwhole : WholeImage s e slot step len crc) (hup : s.portUp (18 + e) = true) (hs : s.isStranded = false) :
    ∃ t, exec (.restoreSend a e slot) s = .next t ∧ t.fd .ebbRestore e 0 4 1 = slot ∧
      t.outbox = s.outbox ++ [.stream e 1 [s.coord, step, len, crc] (s.bytes (s.mirRxBase e + slot * s.mirSlot e) len)] ∧
      SameBits .ebbRestore e 0 (~~~0x10#64) s t ∧ t.ebbs = s.ebbs ∧ DieEffect e [.ebbRestore] s t := by
  have hexec := exec_restoreSend (e := e) (slot := slot) hmay
  rw [if_neg (by simp [hidle])] at hexec
  have hbits : SameBits .ebbRestore e 0 (~~~0x10#64) s (s.setF .ebbRestore e 0 4 1 slot) := sameBits_setF s _ _ _ _ _ _ _ (by decide)
  have hfd : (s.setF .ebbRestore e 0 4 1 slot).fd .ebbRestore e 0 4 1 = slot :=
    (s.fd_setF_same _ _ _ _ _ _ (by decide)).trans (Nat.mod_eq_of_lt hslot)
  have heff : DieEffect e [.ebbRestore] s (s.setF .ebbRestore e 0 4 1 slot) := dieEffect_setF (by simp)
  have hrd (r : Reg) (hr : r ∉ [Reg.ebbRestore]) (n i : Nat) := heff.sameRegs r n i hr
  have hebbs : (s.setF .ebbRestore e 0 4 1 slot).ebbs = s.ebbs := State.setF_ebbs _ _ _ _ _ _ _
  have hout : (s.setF .ebbRestore e 0 4 1 slot).outbox = s.outbox := State.setF_outbox _ _ _ _ _ _ _
  generalize s.setF .ebbRestore e 0 4 1 slot = u at *
  have hup' : u.portUp (18 + e) = true := by
    rw [← hup]
    simp only [State.portUp, State.linkState, State.flag, State.fd, hrd .lnkStat (by decide)]
  have hs' : u.isStranded = false := by
    rw [← hs]
    simp only [State.isStranded, State.sec, State.fd, hrd .secState (by decide)]
  rw [hfd, restoreSend_of_whole ((wholeImage_congr heff).2 hwhole) hup' hs'] at hexec
  refine ⟨_, hexec, hfd, ?_, hbits, hebbs, heff.trans dieEffect_emit⟩
  simp only [State.emit, hout, State.coord, State.mirRxBase, State.mirSlot, State.fd, hrd .rteCoord (by decide), hrd .ebbMircfg (by decide),
    heff.bytes_eq]

/-- Settles O51: each command is its stages on good ranges, or its refusal. -/
theorem mirrorsAndRestoresComplete : Obligations.MirrorsAndRestoresComplete := by
  unfold Obligations.MirrorsAndRestoresComplete
  intro s e he
  dsimp only
  refine ⟨fun k hdue hen hnone hup hs hgood hopen => ?_,
    fun src step len slot data hlen _ _ hslot => ⟨fun hs hsrc hfit hgood hst hopen => ?_, fun h => ?_⟩,
    fun step slot hstep hslot => ⟨fun h => ?_, fun h => ?_, fun h => ?_⟩, fun us hsome hlate hlim hover => ?_,
    fun a hmay => ⟨fun hen => ?_, fun hoff => ?_⟩,
    fun a hmay => ⟨fun slot step len crc hslot hidle hwhole hup hs => ?_, fun slot hbusy => ?_, ?_, fun hbusy => ?_⟩,
    fun src step len crc data => ⟨fun harmed hlen hcrc hgood hst hopen => ?_, fun hnot => ?_⟩⟩
  · obtain ⟨hout, hmirror, hdue', hflag, heff⟩ := mirrorSent_spec s e k
    exact ⟨_, exec_mirrorStream_of_good hdue hen hnone hup hs hgood hopen, hout, hmirror, hdue', hflag, heff.onlyDie, heff.sameMem,
      heff.gate_eq, (heff.mono (by simp)).ebbFrame⟩
  · obtain ⟨t, hexec, hbytes, htrailer, hstores⟩ := exec_mirrorReceive_of_good (step := step) he hlen hslot rfl rfl hs hsrc hfit hgood hst hopen
    have hall : DieWrites e ([] ++ logRegs) s (t.emit (.streamAck e 1 step slot)) := hstores.dieWrites.trans dieEffect_emit.dieWrites
    refine ⟨_, hexec, hbytes, htrailer, ?_, fun x hx hx' => hstores.bytes x fun h => h.elim hx hx', ?_, hall.gate_eq, hall.ebbFrame⟩ <;>
      obtain ⟨_, _, hframe⟩ := hstores.frame <;> rw [hframe] <;> rfl
  · exact exec_mirrorReceive_of_refused he hslot h
  · obtain ⟨hfd, hslot', hpend, hval, hnone, heff⟩ := mirrorAcked_spec s e hstep hslot
    exact ⟨_, exec_mirrorAck_of_match h, hfd, hslot', hpend, hval, hnone, heff.onlyDie, heff.sameMem, (heff.mono (by simp)).ebbFrame⟩
  · obtain ⟨fc, f, hexec⟩ := exec_mirrorAck_of_stray h
    have heff : DieEffect e ([] ++ logRegs) { s with freeCtr := fc } (State.fault { s with freeCtr := fc } f) := dieEffect_fault (by simp)
    obtain ⟨⟨_, _, _, _, hframe⟩, -⟩ := State.fault_spec { s with freeCtr := fc } f
    exact ⟨_, hexec, recorded_fault { s with freeCtr := fc } f, by rw [hframe], heff.sameMem, heff.ebbFrame⟩
  · obtain ⟨hflag, hrec, hebbs, -, htouch⟩ := ebbRaise_spec s e 0 0 0 (k := 12) (by decide)
    exact ⟨_, exec_mirrorAck_of_refusal h, hrec, (hflag 12).trans rfl, hebbs, htouch.effect.sameMem, htouch.effect.ebbFrame⟩
  · obtain ⟨hrec, hflag, hebb, heff⟩ := mirrorOverdue_spec s e
    refine ⟨_, exec_mirrorTimeout.trans (congrArg _ (if_pos ⟨Option.isSome_iff_ne_none.2 hsome, by simp [hlate], hlim, hover⟩)), hrec, hflag,
      by rw [hebb], by rw [hebb], by rw [hebb], heff.onlyDie, heff.sameMem, heff.ebbFrame,
      exec_mirrorTimeout.trans (congrArg _ (if_neg fun ⟨_, hopen, _⟩ => ?_))⟩
    rw [hebb] at hopen
    exact absurd hopen (by simp)
  · obtain ⟨hclear, hbits, hpend, hdue, hnone, heff⟩ := mirrorOff_spec s e
    exact ⟨_, (exec_mirrorDisable hmay).trans (congrArg _ (if_pos hen)), hclear, hbits, hpend, hdue, hnone, heff.onlyDie, heff.sameMem,
      (heff.mono (by simp)).ebbFrame⟩
  · exact (exec_mirrorDisable hmay).trans (congrArg _ (if_neg (by simp [hoff])))
  · obtain ⟨t, hexec, hslot', hout, hbits, hebbs, heff⟩ := exec_restoreSend_of_whole hmay hslot hidle hwhole hup hs
    exact ⟨t, hexec, hslot', hout, hbits, hebbs, heff.sameMem, (heff.mono (by simp)).ebbFrame⟩
  · obtain ⟨hflag, hrec, hebbs, hout, htouch⟩ := ebbRaise_spec s e 0 0 0 (k := 11) (by decide)
    exact ⟨_, (exec_restoreSend hmay).trans (congrArg _ (if_pos hbusy)), (hflag 11).trans rfl, hrec, hebbs, htouch.effect.sameMem, hout,
      htouch.effect.ebbFrame⟩
  · intro g hseg hwen hfmt hidle hst hw hopen
    obtain ⟨hdone, hwords, hbytes, hwrites⟩ := restoreBuild_of_good hseg hwen hfmt hst hw
    refine ⟨_, (exec_restoreBuild hmay).trans (congrArg _ ((if_neg (by simp [hidle])).trans ?_)), hdone, hwords, hbytes, hwrites.onlyDie,
      (hwrites.mono (by simp)).ebbFrame⟩
    rw [buildAddrs_of_one hseg hwen hfmt, s.accessing_of_open hopen]
  · obtain ⟨hflag, hrec, hebbs, heff⟩ := writeRefused_spec s e
    exact ⟨_, (exec_restoreBuild hmay).trans (congrArg _ (if_pos hbusy)), hflag, hrec, hebbs, heff.sameMem, heff.ebbFrame⟩
  · subst hlen
    obtain ⟨t, hexec, hput⟩ := exec_restoreReceive_of_good (step := step) he harmed hcrc rfl hgood hst hopen
    obtain ⟨hdone, harm, hebbs, heff⟩ := restoreDone_spec t e
    have hall : DieWrites e ([.ebbRestore] ++ logRegs) s (t.restoreDone e) :=
      ((dieEffect_setF (by simp)).dieWrites.trans hput.stores.dieWrites).trans (heff.mono (by simp)).dieWrites
    obtain ⟨_, _, hframe⟩ := hput.frame
    exact ⟨_, hexec, fun x => (heff.sameMem.1 x).trans (hput.only x), hdone, harm, hebbs.trans (by rw [hframe]; rfl), hall.ebbFrame⟩
  · obtain ⟨hflag, hrec, hebbs, heff⟩ := restoreErr_spec s e 0 0 0
    exact ⟨_, exec_restoreReceive_of_not_armed he hnot, hflag, hrec, hebbs, heff.sameMem, heff.ebbFrame⟩

end Sys2Proof.Machine
end

section
/-! SUPPORT. Staging writes (R283 to R287): the check of the elements that land, their count, and what EBB_STAT shows of them. -/

namespace Sys2Proof.Machine

open Sys2Proof.Claims

variable {s t u : State} {e : Nat}

/-! ### Elements -/

/-- Exponent all ones and fraction zero: an infinity. -/
theorem inf_iff_fields (w : W32) : w &&& 0x7FFFFFFF#32 = 0x7F800000#32 ↔ fld w 23 8 = 255 ∧ fld w 0 23 = 0 := by
  have hmask : (w &&& 0x7FFFFFFF#32).toNat = w.toNat % 2 ^ 31 := by
    rw [BitVec.toNat_and]
    exact Nat.and_two_pow_sub_one_eq_mod w.toNat 31
  rw [← BitVec.toNat_inj, hmask, fld, fld]
  have := w.isLt
  show w.toNat % 2 ^ 31 = 0x7F800000 ↔ _
  omega

theorem isNan32_iff_fields (w : W32) : isNan32 w = true ↔ fld w 23 8 = 255 ∧ fld w 0 23 ≠ 0 := by
  have hfin (n : Bool) (ef m : Nat) : (finOf 23 127 n ef m).isNan = false := by
    unfold finOf
    split <;> rfl
  unfold isNan32 fvOf32
  dsimp only
  by_cases he : fld w 23 8 = 255
  · by_cases hm : fld w 0 23 = 0 <;> simp [he, hm, Fv.isNan]
  · simp [he, hfin]

/-- What EBB_STAT shows once elements have been checked: INF for an infinity, NAN for a NaN (R284). -/
def StagingFlags (e : Nat) (inf nan : Prop) (s t : State) : Prop :=
  ∀ j, t.flag .ebbStat e 0 j = true ↔ s.flag .ebbStat e 0 j = true ∨ (j = 1 ∧ inf) ∨ (j = 0 ∧ nan)

theorem stageCheck_spec (s : State) (e a : Nat) :
    StagingFlags e (s.word32 a &&& 0x7FFFFFFF#32 = 0x7F800000#32) (isNan32 (s.word32 a) = true) s (s.stageCheck e a) ∧
      DieTouch e [.ebbStat] s (s.stageCheck e a) := by
  rw [inf_iff_fields, isNan32_iff_fields]
  unfold State.stageCheck State.word32
  dsimp only
  generalize (BitVec.ofNat 32 (leNat (s.bytes a 4)) : W32) = w
  have hraise {k : Nat} (m : Nat) (hk : k < 16) : (∀ j, ((s.raise .ebbStat e 0 k).latchEbb e m).flag .ebbStat e 0 j =
      (decide (j = k) || s.flag .ebbStat e 0 j)) ∧ DieTouch e [.ebbStat] s ((s.raise .ebbStat e 0 k).latchEbb e m) :=
    ⟨fun j => s.flag_raise _ _ _ _ j (by omega), (dieTouch_raise_ebbStat (by simp) hk).trans (dieTouch_latchEbb _ _ _)⟩
  by_cases he : fld w 23 8 = 255
  · rw [if_pos he]
    by_cases hm : fld w 0 23 = 0
    · rw [if_pos hm]
      obtain ⟨hflag, htouch⟩ := hraise (k := 1) 0x10 (by decide)
      exact ⟨fun j => by rw [hflag]; simp [he, hm, or_comm], htouch⟩
    · rw [if_neg hm]
      obtain ⟨hflag, htouch⟩ := hraise (k := 0) 0x1000 (by decide)
      exact ⟨fun j => by rw [hflag]; simp [he, hm, or_comm], htouch⟩
  · rw [if_neg he]
    exact ⟨fun j => by simp [he], .refl e _ s⟩

theorem stageChecks_spec (s : State) (e : Nat) (els : List Nat) :
    let t := els.foldl (fun s a => s.stageCheck e a) s
    StagingFlags e (∃ a ∈ els, s.word32 a &&& 0x7FFFFFFF#32 = 0x7F800000#32) (∃ a ∈ els, isNan32 (s.word32 a) = true) s t ∧
      DieTouch e [.ebbStat] s t := by
  induction els generalizing s with
  | nil => exact ⟨fun j => by simp, .refl e _ s⟩
  | cons a els ih =>
    obtain ⟨hflag, htouch⟩ := stageCheck_spec s e a
    obtain ⟨hflags, htouch'⟩ := ih (s.stageCheck e a)
    refine ⟨fun j => ?_, htouch.trans htouch'⟩
    rw [List.foldl_cons, hflags j, hflag j]
    simp only [htouch.effect.word32_eq, List.exists_mem_cons_iff, and_or_left]
    simp only [or_assoc, or_left_comm]

/-! ### The bytes of a write in one staging area -/

/-- The FP32 element that a byte of the staging area belongs to. -/
def State.stagedElem (s : State) (e a : Nat) : Nat := s.fd .ebbStgbase e 0 0 44 + (a - s.fd .ebbStgbase e 0 0 44) / 4 * 4

/-- What bytes that land leave: their elements' flags, their count, and STGOVF if they are too many (R283, R284, R286). -/
theorem stageDie_spec (s : State) (e : Nat) (as : List Nat) :
    let t := s.stageDie e as
    t.fd .ebbStgcnt e 0 0 40 = (s.fd .ebbStgcnt e 0 0 40 + as.length) % 2 ^ 40 ∧
      (∀ j, t.flag .ebbStat e 0 j = true ↔ s.flag .ebbStat e 0 j = true ∨
        (j = 1 ∧ ∃ a ∈ as, s.word32 (s.stagedElem e a) &&& 0x7FFFFFFF#32 = 0x7F800000#32) ∨
        (j = 0 ∧ ∃ a ∈ as, isNan32 (s.word32 (s.stagedElem e a)) = true) ∨
        (j = 9 ∧ as ≠ [] ∧ s.fd .ebbStglen e 0 0 40 < s.fd .ebbStgcnt e 0 0 40 + as.length)) ∧
      DieTouch e ([.ebbStgcnt, .ebbStat] ++ logRegs) s t := by
  unfold State.stageDie
  dsimp only
  have hlt := s.fd_lt .ebbStgcnt e 0 0 40
  split
  case isTrue hempty =>
    obtain rfl := List.isEmpty_iff.1 hempty
    exact ⟨(Nat.mod_eq_of_lt hlt).symm, fun j => by simp, .refl e _ s⟩
  case isFalse hempty =>
    have hne : as ≠ [] := fun h => hempty (List.isEmpty_iff.2 h)
    have hels (p : Nat → Prop) :
        (∃ x ∈ (as.map fun a => s.fd .ebbStgbase e 0 0 44 + (a - s.fd .ebbStgbase e 0 0 44) / 4 * 4).eraseDups, p x) ↔
          ∃ a ∈ as, p (s.stagedElem e a) := by simp [State.stagedElem]
    obtain ⟨hflags, htouch⟩ := stageChecks_spec s e
      (as.map fun a => s.fd .ebbStgbase e 0 0 44 + (a - s.fd .ebbStgbase e 0 0 44) / 4 * 4).eraseDups
    rw [hels, hels] at hflags
    generalize List.foldl _ s _ = u at *
    generalize hcnt : s.fd .ebbStgcnt e 0 0 40 = cnt at *
    generalize s.fd .ebbStglen e 0 0 40 = len
    generalize hv : u.setF .ebbStgcnt e 0 0 40 (cnt + as.length) = v
    have hcount : v.fd .ebbStgcnt e 0 0 40 = (cnt + as.length) % 2 ^ 40 := hv ▸ u.fd_setF_same _ _ _ _ _ _ (by decide)
    have hvflag (j : Nat) : v.flag .ebbStat e 0 j = u.flag .ebbStat e 0 j :=
      congrArg (bit · j) (hv ▸ u.rd_setF_reg .ebbStgcnt .ebbStat _ _ _ _ _ _ _ (by decide))
    have hall : DieTouch e ([.ebbStgcnt, .ebbStat] ++ logRegs) s v :=
      (htouch.mono (by simp)).trans (hv ▸ dieTouch_setF (by simp) (by decide))
    by_cases hover : len < cnt + as.length
    · rw [if_pos hover]
      obtain ⟨hraise, -, -, -, htouch'⟩ := ebbRaise_spec v e 0 0 (as.getD (len - cnt) 0) (k := 9) (by decide)
      generalize v.ebbRaise e 9 0 0 (as.getD (len - cnt) 0) = w at *
      have hwcnt : w.fd .ebbStgcnt e 0 0 40 = v.fd .ebbStgcnt e 0 0 40 := congrArg (fld · 0 40) (htouch'.effect.sameRegs _ _ _ (by decide))
      refine ⟨hwcnt.trans hcount, fun j => ?_, (hall.trans (htouch'.mono (by simp [logRegs]))).trans (dieTouch_latchEbb w e _)⟩
      have hwflag : (w.latchEbb e 0x10000).flag .ebbStat e 0 j = w.flag .ebbStat e 0 j := rfl
      rw [hwflag, hraise j, Bool.or_eq_true, hvflag j, hflags j, decide_eq_true_eq]
      simp only [hne, hover, ne_eq, not_false_eq_true, and_self, and_true]
      simp only [or_comm, or_left_comm]
    · rw [if_neg hover]
      refine ⟨hcount, fun j => ?_, hall⟩
      rw [hvflag j, hflags j]
      simp only [hover, and_false, or_false]

/-! ### The write -/

theorem regionOf_of_stagingDie {a d : Nat} (h : s.stagingDie a = some d) : regionOf a = .slow d := by
  unfold State.stagingDie at h
  split at h
  · next e hr =>
    dsimp only at h
    split at h
    · rw [hr, Option.some.inj h]
    · cases h
  · cases h

/-- Bytes that land in one die's slow tier are staged there alone. -/
theorem staged_of_die {as : List Nat} (he : e < 2) (h : ∀ a ∈ as, ∀ d, regionOf a = .slow d → d = e) :
    s.staged as = s.stageDie e (as.filter fun a => s.stagingDie a == some e) := by
  have hother (v : State) {d : Nat} (hd : d ≠ e) : v.stageDie d (as.filter fun a => v.stagingDie a == some d) = v := by
    have hnil : (as.filter fun a => v.stagingDie a == some d) = [] :=
      List.filter_eq_nil_iff.2 fun a ha => by
        rw [beq_iff_eq]
        exact fun hs => hd (h a ha d (regionOf_of_stagingDie hs))
    rw [hnil]
    rfl
  rw [State.staged, List.foldl_cons, List.foldl_cons, List.foldl_nil]
  obtain rfl | rfl : e = 0 ∨ e = 1 := by omega
  · rw [hother _ (by decide)]
  · rw [hother s (by decide)]

/-- Writes of which none fails are staged whole. -/
theorem land_of_writeAll {ws : List MWrite} (h : s.writeAll ws = (u, [])) : s.land ws = (u.staged (ws.map (·.addr)), []) := by
  have hfilter : (ws.filter fun w => !([] : List (Nat × Nat)).any fun f => f.1 == granule w.addr) = ws := by simp
  rw [State.land, h]
  dsimp only
  rw [hfilter]

theorem exec_stagingWrite_of_good {addr : Nat} {data : List Byte} (he : e < 2) (hin : inSlow e addr data.length = true)
    (hgood : RangeGood s e addr data.length true) (hopen : MemoryOpen s [] ((List.range data.length).map (addr + ·))) :
    ∃ u, Puts addr data s u ∧ exec (.stagingWrite e addr data) s = .next
      (u.stageDie e (((List.range data.length).map (addr + ·)).filter fun a => s.stagingDie a == some e)) := by
  obtain ⟨u, hall, hput⟩ := s.writeAll_puts (x := addr) (bs := data) fun y hy => unitGood_of_range hgood hy
  have hdie : ∀ a ∈ (List.range data.length).map (addr + ·), ∀ d, regionOf a = .slow d → d = e := fun a ha d hr => by
    obtain ⟨i, hi, rfl⟩ := List.mem_map.1 ha
    have hi' := List.mem_range.1 hi
    have hr' := (hgood (addr + i) (by omega) (by omega)).1
    rw [hr] at hr'
    exact Region.slow.inj hr'
  have hland : s.land (wholeWrites addr data) =
      (u.stageDie e (((List.range data.length).map (addr + ·)).filter fun a => s.stagingDie a == some e), []) := by
    rw [land_of_writeAll hall, wholeWrites_addr, staged_of_die he hdie]
    simp only [hput.stores.stagingDie_eq]
  refine ⟨u, hput, ?_⟩
  show execStagingWrite e addr data s = _
  rw [execStagingWrite, if_pos ⟨he, hin⟩, s.holding_of_open hopen, State.slowWrite, hland]
  rfl

/-- A write into a staging area on hold is kept (R287). -/
theorem exec_stagingWrite_of_held {addr j : Nat} {data : List Byte} (he : e < 2) (hin : inSlow e addr data.length = true)
    (hclosed : s.chip.closed = false) (hj : j < data.length) (hdie : s.stagingDie (addr + j) = some e) (hhold : (s.ebb e).hold = true) :
    exec (.stagingWrite e addr data) s = .next { s with held := s.held ++ [.stagingWrite e addr data] } := by
  have hheld : ((List.range data.length).map (addr + ·)).any s.stageHeld = true :=
    List.any_eq_true.2 ⟨addr + j, List.mem_map_of_mem (List.mem_range.2 hj), by rw [State.stageHeld, hdie]; exact hhold⟩
  show execStagingWrite e addr data s = _
  rw [execStagingWrite, if_pos ⟨he, hin⟩, State.holding, State.heldBack, hclosed, hheld]
  simp [ok, State.hold]

end Sys2Proof.Machine
end

section
/-! SUPPORT. The gate word of a die (R285, R288, R400), and staging writes and gate words together. -/

namespace Sys2Proof.Machine

open Sys2Proof.Claims

variable {s t u : State} {e : Nat} {rs : List Reg}

/-- The command does not depend on what the collector holds. -/
theorem DieEffect.with_gate (h : DieEffect e rs s t) (gate : GateSt) : DieEffect e rs { s with gate := gate } { t with gate := gate } where
  regs := h.regs
  dies := h.dies
  frame := by
    obtain ⟨_, _, _, _, _, _, _, rfl⟩ := h.frame
    exact ⟨_, _, _, _, _, _, _, rfl⟩

/-- The outcome of the checks: CFGERR, and the invalid field in the latch (R288). -/
theorem ebbChecked_spec (s : State) (e : Nat) :
    let t := s.ebbChecked e
    (t.flag .ebbStat e 0 10 = true ↔ s.flag .ebbStat e 0 10 = true ∨ (s.ebbChecks e).isSome = true) ∧
      (t.ebb e).latch = ((s.ebb e).latch ||| if (s.ebbChecks e).isSome then 0x1000#64 else 0#64) ∧
      DieTouch e ([.ebbStat] ++ logRegs) s t := by
  unfold State.ebbChecked
  cases s.ebbChecks e with
  | none => exact ⟨by simp, by simp, .refl e _ s⟩
  | some x =>
    obtain ⟨hflag, -, hebbs, -, htouch⟩ := ebbRaise_spec s e x.1 0 x.2 (k := 10) (by decide)
    dsimp only
    generalize s.ebbRaise e 10 x.1 0 x.2 = u at *
    have hflag' : (u.latchEbb e 0x1000).flag .ebbStat e 0 10 = true := (hflag 10).trans rfl
    refine ⟨by simp [hflag'], ?_, htouch.trans (dieTouch_latchEbb u e _)⟩
    rw [State.latchEbb, State.ebb_modEbb_same, State.ebb_congr hebbs]
    rfl

/-- A die's word goes to the collector with its latch, which is cleared (R285, R400). -/
def State.wordSent (s : State) (e : Nat) : State :=
  { s.modEbb e fun x => { x with latch := 0#64, checked := true } with
    gate := { s.gate with ebb := Sparse.set 0#64 s.gate.ebb e (0xFFFF000001000000#64 ||| (s.ebb e).latch) } }

/-- The registers show a word that was delivered. -/
def State.wordShown (s : State) (e : Nat) : State :=
  let u := (s.raise .gateStat 0 0 (14 + e)).setEbbState e 1
  if u.fd .gateStat 0 0 0 2 = 0 then u.setF .gateStat 0 0 0 2 1 else u

theorem ebbDeliver_eq (s : State) (e : Nat) : s.ebbDeliver e = (s.wordSent e).wordShown e := rfl

theorem wordSent_spec (s : State) (e : Nat) :
    let t := s.wordSent e
    t.ebb e = { s.ebb e with latch := 0#64, checked := true } ∧
      t.gate = { s.gate with ebb := Sparse.set 0#64 s.gate.ebb e (0xFFFF000001000000#64 ||| (s.ebb e).latch) } ∧ t.regs = s.regs ∧
      DieEffect e rs { s with gate := t.gate } t :=
  ⟨s.ebb_modEbb_same e fun x => { x with latch := 0#64, checked := true }, rfl, rfl, dieEffect_modEbb.with_gate _⟩

theorem wordShown_spec (s : State) (he : e < 2) :
    let t := s.wordShown e
    t.ebbState e = 1 ∧ t.flag .gateStat 0 0 (14 + e) = true ∧ t.fd .gateStat 0 0 0 2 = max 1 (s.fd .gateStat 0 0 0 2) ∧
      t.flag .ebbStat e 0 10 = s.flag .ebbStat e 0 10 ∧ t.ebbs = s.ebbs ∧ DieEffect e [.ebbStat, .gateStat] s t := by
  unfold State.wordShown
  dsimp only
  generalize hv : s.raise .gateStat 0 0 (14 + e) = v
  have hvflag : v.flag .gateStat 0 0 (14 + e) = true := hv ▸ s.flag_raise_same _ _ _ _ (by omega)
  have hvphase : v.fd .gateStat 0 0 0 2 = s.fd .gateStat 0 0 0 2 := hv ▸ s.fd_setF_of_disjoint _ _ _ _ _ _ _ _ (by omega)
  have hvstat : v.rd .ebbStat e 0 = s.rd .ebbStat e 0 := hv ▸ s.rd_raise_reg _ _ _ _ _ _ _ (by decide)
  have hveff : DieEffect e [.ebbStat, .gateStat] s v := hv ▸ dieEffect_wr_outside (by simp) (by decide)
  generalize hu : v.setEbbState e 1 = u
  have hstate : u.ebbState e = 1 := hu ▸ v.fd_setF_same _ _ _ _ _ _ (by decide)
  have hgate : u.rd .gateStat 0 0 = v.rd .gateStat 0 0 := hu ▸ v.rd_setF_reg _ _ _ _ _ _ _ _ _ (by decide)
  have hcfg : u.flag .ebbStat e 0 10 = s.flag .ebbStat e 0 10 := by
    rw [State.flag_eq_fd, State.flag_eq_fd, ← hu, State.setEbbState, v.fd_setF_of_disjoint _ _ _ _ _ _ _ _ (by decide), State.fd, hvstat,
      State.fd]
  have hueff : DieEffect e [.ebbStat, .gateStat] s u := hveff.trans (hu ▸ dieEffect_setF (by simp))
  have hebbs : u.ebbs = s.ebbs := by rw [← hu, ← hv]; rfl
  have hword : u.flag .gateStat 0 0 (14 + e) = true := (congrArg (bit · (14 + e)) hgate).trans hvflag
  have hphase : u.fd .gateStat 0 0 0 2 = s.fd .gateStat 0 0 0 2 := (congrArg (fld · 0 2) hgate).trans hvphase
  by_cases hzero : u.fd .gateStat 0 0 0 2 = 0
  · rw [if_pos hzero]
    have hrd : (u.setF .gateStat 0 0 0 2 1).rd .ebbStat e 0 = u.rd .ebbStat e 0 := u.rd_setF_reg _ _ _ _ _ _ _ _ _ (by decide)
    refine ⟨(congrArg (fld · 16 3) hrd).trans hstate, ?_, ?_, (congrArg (bit · 10) hrd).trans hcfg, hebbs,
      hueff.trans (dieEffect_wr_outside (by simp) (by decide))⟩
    · rw [State.flag_eq_fd, u.fd_setF_of_disjoint _ _ _ _ _ _ _ _ (by omega), ← State.flag_eq_fd, hword]
    · rw [u.fd_setF_same _ _ _ _ _ _ (by decide), ← hphase, hzero]
      rfl
  · rw [if_neg hzero]
    exact ⟨hstate, hword, by omega, hcfg, hebbs, hueff⟩

/-- A delivered word: the collector has it with the latch, and the die is STAGED (R285, R400). -/
theorem ebbDeliver_spec (s : State) (he : e < 2) :
    let t := s.ebbDeliver e
    t.ebbState e = 1 ∧ t.ebb e = { s.ebb e with latch := 0#64, checked := true } ∧
      t.gate = { s.gate with ebb := Sparse.set 0#64 s.gate.ebb e (0xFFFF000001000000#64 ||| (s.ebb e).latch) } ∧
      t.flag .gateStat 0 0 (14 + e) = true ∧ t.fd .gateStat 0 0 0 2 = max 1 (s.fd .gateStat 0 0 0 2) ∧
      t.flag .ebbStat e 0 10 = s.flag .ebbStat e 0 10 ∧ DieEffect e [.ebbStat, .gateStat] { s with gate := t.gate } t := by
  dsimp only
  rw [ebbDeliver_eq]
  obtain ⟨hebb, hgate, hregs, heff⟩ := wordSent_spec (rs := [.ebbStat, .gateStat]) s e
  generalize s.wordSent e = u at *
  obtain ⟨hstate, hflag, hphase, hcfg, hebbs, heff'⟩ := wordShown_spec u he
  have hrd (r : Reg) (n i : Nat) : u.rd r n i = s.rd r n i := by rw [State.rd, hregs, State.rd]
  refine ⟨hstate, (State.ebb_congr hebbs e).trans hebb, heff'.gate_eq.trans hgate, hflag, ?_, ?_, ?_⟩
  · rw [hphase, State.fd, hrd, State.fd]
  · rw [hcfg, State.flag, hrd, State.flag]
  · rw [heff'.gate_eq]
    exact heff.trans heff'

theorem exec_ebbGateWord (s : State) (he : e < 2) : exec (.ebbGateWord e) s = .next
    (if s.flag .gateCfg 0 0 0 = true ∧ s.ebbState e = 0 ∧ s.isStranded = false ∧ s.fd .ebbStglen e 0 0 40 ≤ s.fd .ebbStgcnt e 0 0 40 then
      (s.ebbChecked e).ebbDeliver e else s) := by
  show execEbbGateWord e s = _
  simp only [execEbbGateWord, he, decide_true, Bool.true_and, Bool.and_eq_true, beq_iff_eq, Bool.not_eq_true', decide_eq_true_eq, and_assoc]
  split <;> rfl

/-- Settles O49: the bytes land and are checked as staged, or wait; the word is that of the checked latch. -/
theorem stagingAndGateWords : Obligations.StagingAndGateWords := by
  unfold Obligations.StagingAndGateWords
  intro s e he
  refine ⟨fun addr data hin hgood hopen => ?_, fun addr data j hin hclosed hj hdie hhold => ?_, fun hready => ?_, fun hnot => ?_⟩
  · dsimp only
    obtain ⟨u, hput, hexec⟩ := exec_stagingWrite_of_good he hin hgood hopen
    generalize ((List.range data.length).map (addr + ·)).filter (fun a => s.stagingDie a == some e) = as at *
    obtain ⟨hcount, hflags, htouch⟩ := stageDie_spec u e as
    generalize u.stageDie e as = t at *
    have hrd := hput.stores.rd_eq
    have hall : DieWrites e ([.ebbStgcnt, .ebbStat] ++ logRegs) s t := hput.stores.dieWrites.trans htouch.effect.dieWrites
    simp only [State.stagedElem, ← htouch.effect.word32_eq, State.fd, State.flag, hrd] at hcount hflags
    refine ⟨t, hexec, fun x => (htouch.effect.sameMem.1 x).trans (hput.only x), hcount, ?_, ?_, ?_, ?_, hall.onlyDie, hall.gate_eq, hall.ebbFrame⟩
    · exact (hflags 1).trans (by simp [State.flag, State.fd])
    · exact (hflags 0).trans (by simp [State.flag, State.fd])
    · exact (hflags 9).trans (by simp [State.flag, State.fd])
    · rw [htouch.state, State.ebbState, State.fd, hrd, State.ebbState, State.fd]
  · exact exec_stagingWrite_of_held he hin hclosed hj hdie hhold
  · obtain ⟨hflag, hlatch, htouch⟩ := ebbChecked_spec s e
    obtain ⟨hstate, hebb, hgate, hwords, hphase, hcfg, heff⟩ := ebbDeliver_spec (s.ebbChecked e) he
    have hstat : (s.ebbChecked e).rd .gateStat 0 0 = s.rd .gateStat 0 0 := htouch.effect.sameRegs _ _ _ (by decide)
    have hall : DieEffect e ([.ebbStat, .gateStat] ++ logRegs) { s with gate := ((s.ebbChecked e).ebbDeliver e).gate }
        ((s.ebbChecked e).ebbDeliver e) := ((htouch.effect.with_gate _).mono (by simp)).trans (heff.mono (by simp))
    refine ⟨_, (exec_ebbGateWord s he).trans (congrArg _ (if_pos hready)), hstate, by rw [hebb], by rw [hebb], ?_, hcfg ▸ hflag, hwords,
      hphase.trans (by rw [State.fd, hstat, State.fd]), ?_, hall.onlyDie, hall.sameMem, hall.ebbFrame⟩
    · rw [hgate, hlatch, BitVec.or_assoc]
      exact (Sparse.get_set _ _ _ _ _).trans (if_pos rfl)
    · rw [hgate, htouch.effect.gate_eq]
  · exact (exec_ebbGateWord s he).trans (congrArg _ (if_neg hnot))

end Sys2Proof.Machine
end

section
/-! SUPPORT. How a step ends at a die (R287, R303, R306, R554): the completion marks, the end of the hold, IDLE, and the strandline entry. -/

namespace Sys2Proof.Machine

open Sys2Proof.Claims

variable {s t u : State} {e : Nat} {rs : List Reg}

/-! ### Completion marks (R306) -/

theorem dieEffect_markChange {n m : Nat} {d : Int} (hmark : .mark ∈ rs) (hstat : .coreStat ∈ rs) :
    DieEffect e rs s (s.markChange n m d) := by
  unfold State.markChange
  dsimp only
  have hset := dieEffect_wr_outside (e := e) (s := s) (n := n) (i := m)
    (v := setFld (s.rd .mark n m) 0 16 (min ((s.markCount n m : Int) + d).toNat 0xFFFF)) hmark (by decide)
  exact .ite _ (hset.trans (dieEffect_wr_outside hstat (by decide))) hset

/-- Is this mark of core `n` signalled when die `e` completes. -/
def State.markDue (s : State) (e n m : Nat) : Bool := s.flag .ebbDonecore e (n / 64) (n % 64) && s.fd .ebbDone e 0 0 6 == m

theorem State.markDue_congr (hcore : ∀ i, t.rd .ebbDonecore e i = s.rd .ebbDonecore e i) (hdone : t.rd .ebbDone e 0 = s.rd .ebbDone e 0)
    (n m : Nat) : t.markDue e n m = s.markDue e n m := by
  simp only [State.markDue, State.flag, State.fd, hcore, hdone]

theorem DieEffect.markDue_eq (h : DieEffect e rs s t) (hcore : .ebbDonecore ∉ rs) (hdone : .ebbDone ∉ rs) (d n m : Nat) :
    t.markDue d n m = s.markDue d n m :=
  State.markDue_congr (fun i => h.sameRegs .ebbDonecore d i hcore) (h.sameRegs .ebbDone d 0 hdone) n m

/-- The completion of a die at one core. -/
def State.ebbMark (s : State) (e n : Nat) : State :=
  if s.flag .ebbDonecore e (n / 64) (n % 64) then s.signal n (s.fd .ebbDone e 0 0 6) else s

theorem ebbMark_spec (s : State) (e n : Nat) :
    let t := s.ebbMark e n
    (∀ k m, t.markCount k m = if k = n then min (s.markCount k m + b2n (s.markDue e k m)) 0xFFFF else s.markCount k m) ∧ t.ebbs = s.ebbs ∧
      DieEffect e [.mark, .coreStat] s t := by
  unfold State.ebbMark
  dsimp only
  by_cases hcore : s.flag .ebbDonecore e (n / 64) (n % 64) = true
  · rw [if_pos hcore]
    obtain ⟨⟨_, hframe⟩, hrd⟩ := s.markChange_spec n (s.fd .ebbDone e 0 0 6) 1
    refine ⟨fun k m => ?_, by rw [State.signal, hframe], dieEffect_markChange (by simp) (by simp)⟩
    split
    case isTrue hk =>
      subst hk
      rw [State.signal, State.markCount_markChange, State.markDue, hcore, Bool.true_and]
      have hle := s.markCount_le k m
      by_cases hm : m = s.fd .ebbDone e 0 0 6
      · subst hm
        rw [if_pos rfl, beq_self_eq_true, b2n, Bool.toNat_true]
        omega
      · rw [if_neg hm, beq_false_of_ne (Ne.symm hm), b2n, Bool.toNat_false]
        omega
    case isFalse hk =>
      rw [State.signal, State.markCount, State.fd, hrd .mark k m (by simp [hk]) (by decide), State.markCount, State.fd]
  · rw [if_neg hcore]
    refine ⟨fun k m => ?_, rfl, .refl e _ s⟩
    split
    case isTrue hk =>
      subst hk
      have hle := s.markCount_le k m
      rw [State.markDue, Bool.eq_false_of_not_eq_true hcore, Bool.false_and, b2n, Bool.toNat_false]
      omega
    case isFalse hk => rfl

theorem ebbMarks_upTo (s : State) (e k : Nat) :
    let t := (List.range k).foldl (fun s n => s.ebbMark e n) s
    (∀ n m, t.markCount n m = if n < k then min (s.markCount n m + b2n (s.markDue e n m)) 0xFFFF else s.markCount n m) ∧ t.ebbs = s.ebbs ∧
      DieEffect e [.mark, .coreStat] s t := by
  induction k with
  | zero => exact ⟨fun _ _ => rfl, rfl, .refl e _ s⟩
  | succ k ih =>
    obtain ⟨hcount, hebbs, heff⟩ := ih
    rw [List.range_succ, List.foldl_append, List.foldl_cons, List.foldl_nil]
    generalize (List.range k).foldl (fun s n => s.ebbMark e n) s = u at *
    obtain ⟨hcount', hebbs', heff'⟩ := ebbMark_spec u e k
    refine ⟨fun n m => ?_, hebbs'.trans hebbs, heff.trans heff'⟩
    rw [hcount', hcount, heff.markDue_eq (by decide) (by decide)]
    obtain hlt | rfl | hgt := Nat.lt_trichotomy n k
    · rw [if_neg (by omega), if_pos hlt, if_pos (by omega)]
    · rw [if_pos rfl, if_neg (by omega), if_pos (by omega)]
    · rw [if_neg (by omega), if_neg (by omega), if_neg (by omega)]

theorem ebbMarks_spec (s : State) (e : Nat) :
    let t := s.ebbMarks e
    (∀ n m, n < 256 → t.markCount n m = min (s.markCount n m + b2n (s.markDue e n m)) 0xFFFF) ∧ t.ebbs = s.ebbs ∧
      DieEffect e [.mark, .coreStat] s t := by
  obtain ⟨hcount, hebbs, heff⟩ := ebbMarks_upTo s e 256
  exact ⟨fun n m hn => (hcount n m).trans (if_pos hn), hebbs, heff⟩

/-- The dies whose completion adds to a mark. -/
theorem length_filter_markDue (s : State) (es : List Nat) (n m : Nat) :
    (es.filter fun e => s.flag .ebbDonecore e (n / 64) (n % 64) && s.fd .ebbDone e 0 0 6 == m).length =
      (es.map fun e => b2n (s.markDue e n m)).sum := by
  show (es.filter fun e => s.markDue e n m).length = _
  induction es with
  | nil => rfl
  | cons e es ih =>
    rw [List.map_cons, List.sum_cons, ← ih]
    cases h : s.markDue e n m <;> simp [h, b2n, Nat.add_comm]

/-! ### The end of the hold, and IDLE -/

theorem endHold_spec (s : State) (e : Nat) :
    let t := s.endHold e
    t.ebb e = { s.ebb e with hold := false } ∧ HoldEnded e s t ∧ t.rd .ebbStat e 0 = s.rd .ebbStat e 0 ∧ DieEffect e [.ebbStgcnt] s t := by
  unfold State.endHold HoldEnded
  dsimp only
  split
  case isTrue hhold =>
    have hebb := (s.setF .ebbStgcnt e 0 0 40 0).ebb_modEbb_same e fun x => { x with hold := false }
    refine ⟨hebb, ⟨by rw [hebb], ?_⟩, ?_, (dieEffect_setF (by simp)).trans dieEffect_modEbb⟩
    · exact s.fd_setF_same .ebbStgcnt e 0 0 40 0 (by decide)
    · exact s.rd_setF_reg .ebbStgcnt .ebbStat _ _ _ _ _ _ _ (by decide)
  case isFalse hhold =>
    have hfree := Bool.eq_false_of_not_eq_true hhold
    exact ⟨by rw [← hfree], ⟨hfree, rfl⟩, rfl, .refl e _ s⟩

/-- The hold ends between steps that leave it and the count. -/
theorem holdEnded_congr {s' t' : State} (h : HoldEnded e s t) (hhold : (s.ebb e).hold = (s'.ebb e).hold)
    (hcnt : s.rd .ebbStgcnt e 0 = s'.rd .ebbStgcnt e 0) (hhold' : (t'.ebb e).hold = (t.ebb e).hold)
    (hcnt' : t'.rd .ebbStgcnt e 0 = t.rd .ebbStgcnt e 0) : HoldEnded e s' t' := by
  simpa only [HoldEnded, State.fd, hhold, hcnt, hhold', hcnt'] using h

theorem ebbIdle_spec (s : State) (e : Nat) :
    let t := s.ebbIdle e
    t.ebbState e = 0 ∧ t.ebb e = { s.ebb e with checked := false, passed := false, strand := false } ∧ DieEffect e [.ebbStat] s t := by
  have hstate : (s.setEbbState e 0).ebbState e = 0 := s.fd_setF_same _ _ _ _ _ _ (by decide)
  exact ⟨hstate, (s.setEbbState e 0).ebb_modEbb_same e fun x => { x with checked := false, passed := false, strand := false },
    (dieEffect_setF (by simp)).trans dieEffect_modEbb⟩

/-! ### The command's clauses -/

theorem exec_passComplete_of_passed (hstate : s.ebbState e = 3) (hpassed : (s.ebb e).passed = true) (hnoise : s.noiseDue = false) :
    ∃ t, exec (.passComplete e) s = .next t ∧ t.ebbState e = 0 ∧ (t.ebb e).checked = false ∧ (t.ebb e).passed = false ∧
      (t.ebb e).mirDue = (if s.mirEn e then some (s.ebb e).step else none) ∧ MarksSignalled [e] s t ∧
      DieEffect e [.ebbStat, .mark, .coreStat] s t := by
  obtain ⟨hcount, hebbs, heff⟩ := ebbMarks_spec s e
  obtain ⟨hidle, hebb, heff'⟩ := ebbIdle_spec (s.ebbMarks e) e
  have hfinal := ((s.ebbMarks e).ebbIdle e).ebb_modEbb_same e fun x => { x with mirDue := if s.mirEn e then some x.step else none }
  refine ⟨_, if_pos ⟨hstate, hpassed, by simp [hnoise]⟩, hidle, by rw [hfinal, hebb], by rw [hfinal, hebb], ?_, fun n m hn => ?_,
    ((heff.mono (by simp)).trans (heff'.mono (by simp))).trans dieEffect_modEbb⟩
  · rw [hfinal, hebb, State.ebb_congr hebbs]
  · have hmark : ((s.ebbMarks e).ebbIdle e).markCount n m = (s.ebbMarks e).markCount n m :=
      congrArg (fld · 0 16) (heff'.sameRegs .mark n m (by decide))
    rw [length_filter_markDue, List.map_singleton, List.sum_singleton]
    exact hmark.trans (hcount n m hn)

theorem exec_clrflt {a : Agent} (h : MayWrite s a .ebbCtl) : exec (.clrflt a e) s = .next (s.clearFault e) :=
  congrArg Host.Outcome.next (s.gated_of_mayWrite e 0 (fun s => s.clearFault e) h)

/-- A die in FAULT is IDLE; its hold ends, or lasts with the step it skipped (R308). -/
theorem clearFault_spec (hstate : s.ebbState e = 4) :
    let t := s.clearFault e
    t.ebbState e = 0 ∧ (t.ebb e).checked = false ∧
      (if (s.ebb e).strand = true ∧ (s.ebb e).commit = false then (t.ebb e).hold = (s.ebb e).hold ∧ (t.ebb e).strand = true else HoldEnded e s t) ∧
      DieEffect e [.ebbStat, .ebbStgcnt] s t := by
  unfold State.clearFault
  rw [if_neg (by simp [hstate])]
  dsimp only
  by_cases hskip : (s.ebb e).strand = true ∧ (s.ebb e).commit = false
  · rw [if_pos hskip, if_pos (by simp [hskip])]
    obtain ⟨hidle, hebb, heff⟩ := ebbIdle_spec s e
    have hfinal := (s.ebbIdle e).ebb_modEbb_same e fun x => { x with strand := true }
    exact ⟨hidle, by rw [hfinal, hebb], ⟨by rw [hfinal, hebb], by rw [hfinal]⟩, (heff.mono (by simp)).trans dieEffect_modEbb⟩
  · rw [if_neg hskip, if_neg (by simpa using hskip)]
    obtain ⟨hebb, hended, -, heff⟩ := endHold_spec s e
    obtain ⟨hidle, hebb', heff'⟩ := ebbIdle_spec (s.endHold e) e
    exact ⟨hidle, by rw [hebb'], holdEnded_congr hended rfl rfl (by rw [hebb']) (heff'.sameRegs _ _ _ (by decide)),
      (heff.mono (by simp)).trans (heff'.mono (by simp))⟩

end Sys2Proof.Machine
end

section
/-! SUPPORT. The strandline entry (R303, R554, R555) and EABORT (R558): what each of the two dies makes of them. -/

namespace Sys2Proof.Machine

open Sys2Proof.Claims

variable {s t u : State} {e : Nat} {rs : List Reg}

theorem ebbFrame_trans (h : EbbFrame rs s t) (h' : EbbFrame rs t u) : EbbFrame rs s u := by
  obtain ⟨hregs, ⟨h1, h2, h3, h4, h5, h6, h7, h8⟩, hcores, hinbox, hxfers, hsources, hbores, hchip, hrings, hcqs⟩ := h
  obtain ⟨hregs', ⟨h1', h2', h3', h4', h5', h6', h7', h8'⟩, hcores', hinbox', hxfers', hsources', hbores', hchip', hrings', hcqs'⟩ := h'
  exact ⟨sameRegs_trans hregs hregs', ⟨h1'.trans h1, h2'.trans h2, h3'.trans h3, h4'.trans h4, h5'.trans h5, h6'.trans h6, h7'.trans h7,
    h8'.trans h8⟩, hcores'.trans hcores, hinbox'.trans hinbox, hxfers'.trans hxfers, hsources'.trans hsources, hbores'.trans hbores,
    hchip'.trans hchip, hrings'.trans hrings, hcqs'.trans hcqs⟩

theorem ebbFrame_mono {rs' : List Reg} (h : EbbFrame rs s t) (hsub : rs ⊆ rs') : EbbFrame rs' s t :=
  ⟨fun r n i hr => h.1 r n i fun hmem => hr ((List.append_subset.2
    ⟨List.subset_append_of_subset_left _ hsub, List.subset_append_right _ _⟩) hmem), h.2⟩

/-! ### EABORT (R558) -/

/-- EABORT at one die. -/
def State.eabortDie (s : State) (e : Nat) : State :=
  if s.ebbState e < 2 then ((s.ebbIdle e).setF .ebbStgcnt e 0 0 40 0).modEbb e fun x => { x with latch := 0#64 } else s

/-- What EABORT leaves of a die: one that waits for the gate starts anew, another goes on. -/
def Aborted (e : Nat) (s t : State) : Prop :=
  (s.ebbState e < 2 → t.ebbState e = 0 ∧ t.fd .ebbStgcnt e 0 0 40 = 0 ∧ (t.ebb e).latch = 0#64 ∧ (t.ebb e).checked = false) ∧
    (2 ≤ s.ebbState e → t.ebb e = s.ebb e ∧ t.rd .ebbStat e 0 = s.rd .ebbStat e 0 ∧ t.rd .ebbStgcnt e 0 = s.rd .ebbStgcnt e 0)

theorem eabortDie_spec (s : State) (e : Nat) : Aborted e s (s.eabortDie e) ∧ DieEffect e [.ebbStat, .ebbStgcnt] s (s.eabortDie e) := by
  unfold State.eabortDie
  split
  case isTrue hwait =>
    obtain ⟨hidle, hebb, heff⟩ := ebbIdle_spec s e
    generalize s.ebbIdle e = u at *
    have hfinal := (u.setF .ebbStgcnt e 0 0 40 0).ebb_modEbb_same e fun x => { x with latch := 0#64 }
    have hstat : (u.setF .ebbStgcnt e 0 0 40 0).rd .ebbStat e 0 = u.rd .ebbStat e 0 := u.rd_setF_reg _ _ _ _ _ _ _ _ _ (by decide)
    have hcheck : ((u.setF .ebbStgcnt e 0 0 40 0).ebb e).checked = false := congrArg EbbSt.checked hebb
    exact ⟨⟨fun _ => ⟨(congrArg (fld · 16 3) hstat).trans hidle, u.fd_setF_same .ebbStgcnt e 0 0 40 0 (by decide), by rw [hfinal],
      by rw [hfinal]; exact hcheck⟩, fun h => absurd hwait (by omega)⟩,
      ((heff.mono (by simp)).trans (dieEffect_setF (by simp))).trans dieEffect_modEbb⟩
  case isFalse hwork => exact ⟨⟨fun h => absurd h hwork, fun _ => ⟨rfl, rfl, rfl⟩⟩, .refl e _ s⟩

/-- Only the die's own state and registers count. -/
theorem aborted_congr {s' t' : State} (h : Aborted e s t) (hebb : s.ebb e = s'.ebb e) (hrd : ∀ r, r.info.blk = .ebb → s.rd r e 0 = s'.rd r e 0)
    (hebb' : t'.ebb e = t.ebb e) (hrd' : ∀ r, r.info.blk = .ebb → t'.rd r e 0 = t.rd r e 0) : Aborted e s' t' := by
  simpa only [Aborted, State.ebbState, State.fd, hebb, hebb', hrd .ebbStat (by decide), hrd .ebbStgcnt (by decide), hrd' .ebbStat (by decide),
    hrd' .ebbStgcnt (by decide)] using h

theorem eabort_spec (s : State) :
    let t := s.eabort
    (∀ e, e < 2 → Aborted e s t) ∧ SameMem s t ∧ t.gate = s.gate ∧ EbbFrame [.ebbStat, .ebbStgcnt] s t := by
  dsimp only
  have hsteps : s.eabort = (s.eabortDie 0).eabortDie 1 := rfl
  rw [hsteps]
  obtain ⟨hzero, heff⟩ := eabortDie_spec s 0
  generalize s.eabortDie 0 = u at *
  obtain ⟨hone, heff'⟩ := eabortDie_spec u 1
  generalize u.eabortDie 1 = t at *
  refine ⟨fun e he => ?_, sameMem_trans heff.sameMem heff'.sameMem, heff'.gate_eq.trans heff.gate_eq,
    ebbFrame_trans (heff.mono (by simp)).ebbFrame (heff'.mono (by simp)).ebbFrame⟩
  obtain rfl | rfl : e = 0 ∨ e = 1 := by omega
  · exact aborted_congr hzero rfl (fun _ _ => rfl) (heff'.dies 0 (by decide)) fun r hr => heff'.onlyDie.2 r 0 0 (by decide) hr
  · exact aborted_congr hone (heff.dies 1 (by decide)) (fun r hr => heff.onlyDie.2 r 1 0 (by decide) hr) rfl fun _ _ => rfl

theorem exec_eabort {a : Agent} (h : MayWrite s a .rcvCtl) (hquiet : s.quiet = true) : exec (.eabort a) s = .next s.eabort := by
  have hwrite : s.rcvWrite 8 = s.eabort := by
    rw [State.rcvWrite, hquiet]
    rfl
  rw [← hwrite]
  exact congrArg Host.Outcome.next (s.gated_of_mayWrite 0 0 (fun s => s.rcvWrite 8) h)

/-! ### A die at the strandline entry (R303, R306, R308) -/

/-- Does the entry end a step that a die skips. -/
def State.skips (s : State) (e : Nat) : Bool := s.ebbState e == 2 && (s.ebb e).strand && !(s.ebb e).commit

/-- A die when the entry stands in HBM. -/
def State.strandDie (s : State) (e : Nat) : State :=
  if !(s.ebb e).strand then s
  else if (s.ebb e).commit then s.modEbb e fun x => { x with strand := false }
  else if s.ebbState e = 2 then ((s.ebbMarks e).endHold e).ebbIdle e
  else (s.endHold e).modEbb e fun x => { x with strand := false }

/-- What the entry leaves of a die: its wait is over, and so is a step that it skips. -/
def StrandDone (e : Nat) (s t : State) : Prop :=
  (s.skips e = true → t.ebbState e = 0 ∧ (t.ebb e).checked = false ∧ HoldEnded e s t) ∧
    (s.skips e = false → t.ebbState e = s.ebbState e) ∧ (t.ebb e).strand = false ∧
    (if (s.ebb e).strand = true ∧ (s.ebb e).commit = false then HoldEnded e s t else (t.ebb e).hold = (s.ebb e).hold)

theorem strandDie_spec (s : State) (e : Nat) :
    let t := s.strandDie e
    StrandDone e s t ∧ (t.ebb e).entry = (s.ebb e).entry ∧ (t.ebb e).srm = (s.ebb e).srm ∧
      (∀ n m, n < 256 → t.markCount n m = min (s.markCount n m + if s.skips e then b2n (s.markDue e n m) else 0) 0xFFFF) ∧
      DieEffect e [.ebbStat, .ebbStgcnt, .mark, .coreStat] s t := by
  have hclear (u : State) : (u.modEbb e fun x => { x with strand := false }).ebb e = { u.ebb e with strand := false } :=
    u.ebb_modEbb_same e fun x => { x with strand := false }
  have hle (n m : Nat) : s.markCount n m = min (s.markCount n m + 0) 0xFFFF := by have := s.markCount_le n m; omega
  unfold State.strandDie StrandDone State.skips
  dsimp only
  cases hstrand : (s.ebb e).strand with
  | false => exact ⟨by simp [hstrand], rfl, rfl, fun n m _ => by simpa using hle n m, .refl e _ s⟩
  | true =>
    cases hcommit : (s.ebb e).commit with
    | true =>
      rw [if_neg (by simp), if_pos rfl]
      exact ⟨⟨by simp, fun _ => rfl, by rw [hclear], by simp [hclear]⟩, by rw [hclear], by rw [hclear],
        fun n m _ => (hle n m).trans (by simp), dieEffect_modEbb⟩
    | false =>
      rw [if_neg (by simp), if_neg (by simp)]
      by_cases hstate : s.ebbState e = 2
      · rw [if_pos hstate]
        obtain ⟨hcount, hebbs, heff⟩ := ebbMarks_spec s e
        generalize s.ebbMarks e = u at *
        obtain ⟨hebb, hended, -, heff'⟩ := endHold_spec u e
        generalize u.endHold e = v at *
        obtain ⟨hidle, hebb', heff''⟩ := ebbIdle_spec v e
        have hdie := State.ebb_congr hebbs e
        have hheld : HoldEnded e s (v.ebbIdle e) :=
          holdEnded_congr hended (by rw [hdie]) (heff.sameRegs _ _ _ (by decide)) (by rw [hebb']) (heff''.sameRegs _ _ _ (by decide))
        refine ⟨⟨fun _ => ⟨hidle, by rw [hebb'], hheld⟩, by simp [hstate], by rw [hebb'], by simpa using hheld⟩, by rw [hebb', hebb, hdie],
          by rw [hebb', hebb, hdie], fun n m hn => ?_, ((heff.mono (by simp)).trans (heff'.mono (by simp))).trans (heff''.mono (by simp))⟩
        have hmark : (v.ebbIdle e).markCount n m = u.markCount n m :=
          congrArg (fld · 0 16) ((heff''.sameRegs .mark n m (by decide)).trans (heff'.sameRegs .mark n m (by decide)))
        rw [hmark, hcount n m hn]
        simp [hstate]
      · rw [if_neg hstate]
        obtain ⟨hebb, hended, hstat, heff⟩ := endHold_spec s e
        generalize s.endHold e = v at *
        have hheld : HoldEnded e s (v.modEbb e fun x => { x with strand := false }) := holdEnded_congr hended rfl rfl (by rw [hclear]) rfl
        refine ⟨⟨by simp [hstate], fun _ => congrArg (fld · 16 3) hstat, by rw [hclear], by simpa using hheld⟩, by rw [hclear, hebb],
          by rw [hclear, hebb], fun n m hn => ?_, (heff.mono (by simp)).trans dieEffect_modEbb⟩
        have hmark : (v.modEbb e fun x => { x with strand := false }).markCount n m = s.markCount n m :=
          congrArg (fld · 0 16) (heff.sameRegs .mark n m (by decide))
        rw [hmark]
        simpa [hstate] using hle n m

/-- Only the die's state but for its entry counts, and its registers. -/
theorem strandDone_congr {s' t' : State} (h : StrandDone e s t)
    (hebb : (s.ebb e).strand = (s'.ebb e).strand ∧ (s.ebb e).commit = (s'.ebb e).commit ∧ (s.ebb e).hold = (s'.ebb e).hold)
    (hrd : ∀ r, r.info.blk = .ebb → s.rd r e 0 = s'.rd r e 0) (hebb' : t'.ebb e = t.ebb e)
    (hrd' : ∀ r, r.info.blk = .ebb → t'.rd r e 0 = t.rd r e 0) : StrandDone e s' t' := by
  obtain ⟨hstrand, hcommit, hhold⟩ := hebb
  simpa only [StrandDone, State.skips, HoldEnded, State.ebbState, State.fd, hstrand, hcommit, hhold, hebb', hrd .ebbStat (by decide),
    hrd .ebbStgcnt (by decide), hrd' .ebbStat (by decide), hrd' .ebbStgcnt (by decide)] using h

end Sys2Proof.Machine
end

section
/-! SUPPORT. STRANDLINE_WRITE (R303, R306, R554, R555): the entry stands in HBM, and both dies go on. -/

namespace Sys2Proof.Machine

open Sys2Proof.Claims

variable {s t u : State} {e : Nat}

/-- Where a step's entry stands (R303). -/
def entryBase (b : List Byte) : Nat := 0x7FFF000000 + 256 * (natAt b 96 6 % 65536)

/-- A step record that did not match is reported (R555). -/
def State.entryReported (s : State) : State :=
  if (s.ebb 0).srm then s.free.2.ebbFault 0 (fld s.free.1 0 8) 0 0 0 else s

/-- The entry is taken from die 0. -/
def State.entryTaken (s : State) : State := s.entryReported.modEbb 0 fun x => { x with entry := none, srm := false }

theorem exec_strandlineWrite_of_open {b : List Byte} (hentry : (s.ebb 0).entry = some b) (hdue : (s.ebb 0).srecDue = false)
    (hnoise : s.noiseDue = false) (hopen : MemoryOpen s [] ((List.range 256).map (entryBase b + ·))) :
    exec .strandlineWrite s = .next (((s.writeAll (wholeWrites (entryBase b) b)).1.entryTaken.strandDie 0).strandDie 1) := by
  show execStrandlineWrite s = _
  unfold execStrandlineWrite
  dsimp only
  rw [if_neg (by simp [hdue]), hentry]
  dsimp only
  rw [if_neg (by simp [hdue, hnoise])]
  exact congrArg Host.Outcome.next (s.accessing_of_open hopen)

theorem exec_strandlineWrite_of_none (hentry : (s.ebb 0).entry = none) : exec .strandlineWrite s = .next s := by
  have htake : (if (s.ebb 0).srecDue then s.takeSrec else s) = s := by rw [State.takeSrec, hentry, ite_self]
  show execStrandlineWrite s = _
  unfold execStrandlineWrite
  dsimp only
  rw [htake, hentry]
  rfl

theorem entryTaken_spec (s : State) :
    let t := s.entryTaken
    t.ebb 0 = { s.ebb 0 with entry := none, srm := false } ∧ t.ebb 1 = s.ebb 1 ∧
      (∀ x, t.byte x = s.byte x) ∧ t.gate = s.gate ∧ EbbFrame [] s t := by
  have hreport : s.entryReported.ebbs = s.ebbs ∧ SameMem s s.entryReported ∧ s.entryReported.gate = s.gate ∧ EbbFrame [] s s.entryReported := by
    unfold State.entryReported
    split
    case isTrue =>
      obtain ⟨f, hf⟩ := s.free.2.ebbFault_eq 0 (fld s.free.1 0 8) 0 0 0
      have heff : DieEffect 0 ([] ++ logRegs) s.free.2 (s.free.2.fault f) := dieEffect_fault (by simp)
      obtain ⟨⟨_, _, _, _, hframe⟩, -⟩ := s.free.2.fault_spec f
      rw [hf]
      exact ⟨by rw [hframe]; rfl, heff.sameMem, heff.gate_eq, heff.ebbFrame⟩
    case isFalse => exact ⟨rfl, (DieEffect.refl 0 ([] ++ logRegs) s).sameMem, rfl, (DieEffect.refl 0 ([] ++ logRegs) s).ebbFrame⟩
  obtain ⟨hebbs, hmem, hgate, hframe⟩ := hreport
  have heff : DieEffect 0 ([] ++ logRegs) s.entryReported s.entryTaken := dieEffect_modEbb
  have htaken : s.entryTaken.ebb 0 = { s.entryReported.ebb 0 with entry := none, srm := false } :=
    s.entryReported.ebb_modEbb_same 0 fun x => { x with entry := none, srm := false }
  exact ⟨by rw [htaken, State.ebb_congr hebbs], (heff.dies 1 (by decide)).trans (State.ebb_congr hebbs 1),
    fun x => (heff.sameMem.1 x).trans (hmem.1 x), heff.gate_eq.trans hgate, ebbFrame_trans hframe heff.ebbFrame⟩

/-- The entry is in HBM, outside the scratchpads. -/
theorem unitGood_of_entry {b : List Byte} (hlen : b.length = 256)
    (hgood : ∀ x, entryBase b ≤ x → x < entryBase b + 256 → s.cellStatus x = 0) {x : Nat} (hx : Within (entryBase b) b.length x) :
    s.unitGood x := by
  rw [hlen] at hx
  refine ⟨?_, hgood x hx.1 hx.2⟩
  have hregion : regionOf x = .strandline := by
    have := Nat.mod_lt (natAt b 96 6) (show 0 < 65536 by decide)
    have hlo := hx.1
    have hhi := hx.2
    unfold entryBase at hlo hhi
    rw [regionOf, if_neg (by omega), if_pos (by omega)]
  rw [inScratch, hregion]
  rfl

/-- Both dies go on, one after the other. -/
theorem strandDies_spec (s : State) :
    let t := (s.strandDie 0).strandDie 1
    (∀ e, e < 2 → StrandDone e s t) ∧ (t.ebb 0).entry = (s.ebb 0).entry ∧ (t.ebb 0).srm = (s.ebb 0).srm ∧
      MarksSignalled ([0, 1].filter s.skips) s t ∧ (∀ x, t.byte x = s.byte x) ∧ t.gate = s.gate ∧
      EbbFrame [.ebbStat, .ebbStgcnt, .mark, .coreStat] s t := by
  dsimp only
  obtain ⟨hzero, hentry, hsrm, hcount, heff⟩ := strandDie_spec s 0
  generalize s.strandDie 0 = u at *
  obtain ⟨hone, -, -, hcount', heff'⟩ := strandDie_spec u 1
  generalize u.strandDie 1 = t at *
  have hdie := heff'.dies 0 (by decide)
  have hrd (r : Reg) (hr : r.info.blk = .ebb) (i : Nat) : u.rd r 1 i = s.rd r 1 i := heff.onlyDie.2 r 1 i (by decide) hr
  refine ⟨fun e he => ?_, by rw [hdie, hentry], by rw [hdie, hsrm], fun n m hn => ?_, fun x => (heff'.sameMem.1 x).trans (heff.sameMem.1 x),
    heff'.gate_eq.trans heff.gate_eq, ebbFrame_trans (heff.mono (by simp)).ebbFrame (heff'.mono (by simp)).ebbFrame⟩
  · obtain rfl | rfl : e = 0 ∨ e = 1 := by omega
    · exact strandDone_congr hzero ⟨rfl, rfl, rfl⟩ (fun _ _ => rfl) hdie fun r hr => heff'.onlyDie.2 r 0 0 (by decide) hr
    · have hebb := heff.dies 1 (by decide)
      exact strandDone_congr hone ⟨by rw [hebb], by rw [hebb], by rw [hebb]⟩ (fun r hr => hrd r hr 0) rfl fun _ _ => rfl
  · have hskip : u.skips 1 = s.skips 1 := by
      rw [State.skips, State.ebbState, State.fd, hrd .ebbStat (by decide), heff.dies 1 (by decide), State.skips, State.ebbState, State.fd]
    have hsum : (([0, 1].filter s.skips).map fun e => b2n (s.markDue e n m)).sum =
        (if s.skips 0 then b2n (s.markDue 0 n m) else 0) + if s.skips 1 then b2n (s.markDue 1 n m) else 0 := by
      cases h0 : s.skips 0 <;> cases h1 : s.skips 1 <;> simp [h0, h1]
    rw [length_filter_markDue, hsum, hcount' n m hn, hcount n m hn, hskip, heff.markDue_eq (by decide) (by decide)]
    omega

/-- The entry of a step is written, and both dies go on. -/
theorem exec_strandlineWrite_of_good {b : List Byte} (hentry : (s.ebb 0).entry = some b) (hlen : b.length = 256)
    (hdue : (s.ebb 0).srecDue = false) (hnoise : s.noiseDue = false)
    (hopen : MemoryOpen s [] ((List.range 256).map (entryBase b + ·)))
    (hgood : ∀ x, entryBase b ≤ x → x < entryBase b + 256 → s.cellStatus x = 0) :
    ∃ t, exec .strandlineWrite s = .next t ∧ OnlyBytes (entryBase b) b s t ∧ (t.ebb 0).entry = none ∧ (t.ebb 0).srm = false ∧
      (∀ e, e < 2 → StrandDone e s t) ∧ MarksSignalled ([0, 1].filter s.skips) s t ∧ t.gate = s.gate ∧
      EbbFrame [.ebbStat, .ebbStgcnt, .mark, .coreStat] s t := by
  obtain ⟨u, hall, hput⟩ := s.writeAll_puts (x := entryBase b) (bs := b) fun x hx => unitGood_of_entry hlen hgood hx
  have hexec := exec_strandlineWrite_of_open hentry hdue hnoise hopen
  rw [hall] at hexec
  obtain ⟨hzero, hone, hbyte, hgate, hframe⟩ := entryTaken_spec u
  have hwrites : DieWrites 0 ([] ++ logRegs) s u := hput.stores.dieWrites
  have hdies (e : Nat) : u.ebb e = s.ebb e := by
    obtain ⟨_, _, hu⟩ := hput.frame
    rw [hu]
    rfl
  have hbefore := ebbFrame_trans hwrites.ebbFrame hframe
  dsimp only at hexec
  generalize u.entryTaken = v at *
  obtain ⟨hdone, hentry', hsrm, hmarks, hbyte', hgate', hframe'⟩ := strandDies_spec v
  have hrd (r : Reg) (n i : Nat) (hr : r ∉ [] ++ logRegs) : v.rd r n i = s.rd r n i := hbefore.1 r n i hr
  have hblk (r : Reg) (hr : r.info.blk = .ebb) : r ∉ [] ++ logRegs := by
    have hlog : ∀ q ∈ [] ++ logRegs, q.info.blk ≠ .ebb := by decide
    exact fun hmem => hlog r hmem hr
  have hview (e : Nat) (he : e < 2) : (v.ebb e).strand = (s.ebb e).strand ∧ (v.ebb e).commit = (s.ebb e).commit ∧ (v.ebb e).hold = (s.ebb e).hold := by
    obtain rfl | rfl : e = 0 ∨ e = 1 := by omega
    · rw [hzero, hdies]
      exact ⟨rfl, rfl, rfl⟩
    · rw [hone, hdies]
      exact ⟨rfl, rfl, rfl⟩
  refine ⟨_, hexec, fun x => (hbyte' x).trans ((hbyte x).trans (hput.only x)), by rw [hentry', hzero], by rw [hsrm, hzero], fun e he => ?_,
    fun n m hn => ?_, hgate'.trans (hgate.trans hwrites.gate_eq), ebbFrame_trans (ebbFrame_mono hbefore (by simp)) hframe'⟩
  · exact strandDone_congr (hdone e he) (hview e he) (fun r hr => hrd r e 0 (hblk r hr)) rfl fun _ _ => rfl
  · have hskips : ([0, 1] : List Nat).filter v.skips = [0, 1].filter s.skips := List.filter_congr fun e he => by
      obtain ⟨hstrand, hcommit, -⟩ := hview e (by simp at he; omega)
      rw [State.skips, State.ebbState, State.fd, hrd .ebbStat e 0 (by decide), hstrand, hcommit, State.skips, State.ebbState, State.fd]
    have hmark := hmarks n m hn
    rw [length_filter_markDue, hskips] at hmark
    rw [hmark, length_filter_markDue, State.markCount, State.fd, hrd .mark n m (by decide), State.markCount, State.fd]
    simp only [State.markDue_congr (fun i => hrd .ebbDonecore _ i (by decide)) (hrd .ebbDone _ 0 (by decide))]

end Sys2Proof.Machine
end

section
/-! SUPPORT. The update pass (R293 to R298, R304 to R308): what each of its stages may change, whatever the memories hold. -/

namespace Sys2Proof.Machine

open Sys2Proof.Claims

variable {s t u : State} {e : Nat} {g : SegEnt} {rs rs' : List Reg}

/-! ### Touches with memory -/

/-- As `DieTouch`, with memory and its check state changed too. -/
def DieWork (e : Nat) (rs : List Reg) (s t : State) : Prop := ∃ mem bad, DieTouch e rs { s with mem := mem, bad := bad } t

theorem DieTouch.dieWork (h : DieTouch e rs s t) : DieWork e rs s t := ⟨s.mem, s.bad, h⟩

theorem DieWork.refl (e : Nat) (rs : List Reg) (s : State) : DieWork e rs s s := (DieTouch.refl e rs s).dieWork

theorem DieWork.trans (h : DieWork e rs s t) (h' : DieWork e rs t u) : DieWork e rs s u := by
  obtain ⟨_, _, h⟩ := h
  obtain ⟨mem, bad, h'⟩ := h'
  exact ⟨mem, bad, (h.with_mem mem bad).trans h'⟩

theorem DieWork.mono (h : DieWork e rs s t) (hsub : rs ⊆ rs') : DieWork e rs' s t := by
  obtain ⟨mem, bad, h⟩ := h
  exact ⟨mem, bad, h.mono hsub⟩

theorem DieWork.ite (p : Prop) [Decidable p] (h : DieWork e rs s t) (h' : DieWork e rs s u) : DieWork e rs s (if p then t else u) := by
  split
  · exact h
  · exact h'

theorem DieWork.dieWrites (h : DieWork e rs s t) : DieWrites e rs s t := by
  obtain ⟨mem, bad, h⟩ := h
  exact ⟨mem, bad, h.effect⟩

theorem DieWork.state (h : DieWork e rs s t) : t.ebbState e = s.ebbState e := by
  obtain ⟨_, _, h⟩ := h
  exact h.state

theorem DieWork.latch (h : DieWork e rs s t) : ∃ l, t.ebb e = { s.ebb e with latch := l } := by
  obtain ⟨_, _, h⟩ := h
  exact h.latch

theorem dieWork_writeAll (s : State) (ws : List MWrite) : DieWork e rs s (s.writeAll ws).1 := by
  obtain ⟨⟨mem, bad, h⟩, -⟩ := s.writeAll_spec ws
  rw [h]
  exact ⟨mem, bad, .refl e rs _⟩

/-! ### Reports -/

/-- What a pass may change of the registers beside the die's state. -/
def passRegs : List Reg :=
  [.ebbStat, .ebbStgcnt, .spdStat, .sltChkcnt, .sltStat, .sltChkaddr, .hbmChkcnt, .hbmStat, .hbmChkaddr] ++ logRegs

/-- A register outside the Ebb blocks. -/
theorem dieTouch_wr_outside {r : Reg} {n i : Nat} {v : W64} (hr : r ∈ rs) (hb : r.info.blk ≠ .ebb) : DieTouch e rs s (s.wr r n i v) :=
  dieTouch_of_effect (dieEffect_wr_outside hr hb) rfl (s.rd_wr_reg _ _ _ _ _ _ _ fun h => by rw [h] at hb; exact hb rfl)

theorem dieTouch_reportUnit {c : Ctx} {f : Nat × Nat} : DieTouch e passRegs s (s.reportUnit c f) := by
  have hfault {v : State} {x : FaultRec} : DieTouch e passRegs v (v.fault x) := dieTouch_fault (by decide)
  unfold State.reportUnit
  dsimp only
  split
  case h_1 =>
    exact .ite _ (dieTouch_wr_outside (by decide) (by decide))
      (.ite _ (.refl e _ s) ((dieTouch_wr_outside (by decide) (by decide)).trans hfault))
  case h_5 => exact .refl e _ s
  all_goals
    refine .trans ((dieTouch_wr_outside (by decide) (by decide)).trans (dieTouch_wr_outside (by decide) (by decide))) (.trans (.ite _ (.refl e _ _)
      (dieTouch_wr_outside (by decide) (by decide))) hfault)

theorem dieTouch_reportUnits {c : Ctx} {fs : List (Nat × Nat)} : DieTouch e passRegs s (s.reportUnits c fs) :=
  foldl_induction (DieTouch.refl e _) (fun _ _ _ => DieTouch.trans) (fun _ _ => dieTouch_reportUnit) fs s

theorem dieTouch_ruleEvents (s : State) (e : Nat) (v : Ev) : DieTouch e [.ebbStat] s (s.ruleEvents e v) := by
  refine (dieTouch_raiseMask (by simp) ?_).trans (dieTouch_latchEbb _ e _)
  cases v.nan <;> cases v.inv <;> cases v.ovf <;> cases v.dz <;> decide

/-! ### A segment -/

/-- Bytes that land in the die's slow tier. -/
theorem dieWork_land {ws : List MWrite} (he : e < 2) (hslow : ∀ w ∈ ws, ∀ d, regionOf w.addr = .slow d → d = e) :
    DieWork e passRegs s (s.land ws).1 := by
  unfold State.land
  dsimp only
  refine (dieWork_writeAll s ws).trans ?_
  generalize (s.writeAll ws).1 = v
  rw [staged_of_die he fun a ha => by
    obtain ⟨w, hw, rfl⟩ := List.mem_map.1 ha
    exact hslow w (List.mem_of_mem_filter hw)]
  exact ((stageDie_spec v e _).2.2.mono (by decide)).dieWork

theorem regionOf_of_inSlow {a n x : Nat} (he : e < 2) (h : inSlow e a n = true) (hx : Within a n x) : regionOf x = .slow e := by
  obtain ⟨hlo, hhi⟩ := hx
  obtain ⟨hbase, hend⟩ : slowBase e ≤ a ∧ a + n ≤ slowBase e + 0x4000000000 := of_decide_eq_true h
  unfold slowBase at hbase hend
  obtain rfl | rfl : e = 0 ∨ e = 1 := by omega
  · rw [regionOf, if_neg (by omega), if_neg (by omega), if_neg (by omega), if_pos (by omega)]
  · rw [regionOf, if_neg (by omega), if_neg (by omega), if_neg (by omega), if_neg (by omega), if_pos (by omega)]

theorem SegEnt.inSlow_of_ok (hok : g.ok e = true) (huses : g.usesRec = true) : inSlow e g.sr 128 = true := by
  simp only [SegEnt.ok, SegEnt.usesRec, Bool.and_eq_true, Bool.or_eq_true, Bool.not_eq_true'] at hok huses
  obtain ⟨-, hsrc | ⟨-, hslow⟩⟩ := hok
  · rw [huses.2] at hsrc
    cases hsrc
  · exact hslow

theorem dieWork_writeWeights {step : Nat} {sc : Option (ScaleRec × Nat)} {vs : List W32} (he : e < 2) (hok : g.ok e = true)
    (hrec : t.segRec e g step = .inl sc) : DieWork e passRegs s (s.writeWeights e g step sc vs).1 := by
  unfold State.writeWeights
  dsimp only
  split
  case h_1 =>
    dsimp only
    split
    case h_1 r k =>
      obtain ⟨huses, hsize⟩ := formed_of_segRec hrec
      refine (dieWork_writeAll s _).trans (.ite _ (dieWork_land he fun w hw d hd => ?_) (.refl e _ _))
      have hin := mem_wholeWrites hw
      rw [hsize] at hin
      rw [regionOf_of_inSlow he (SegEnt.inSlow_of_ok hok huses) hin] at hd
      exact (Region.slow.inj hd).symm
    case h_2 => exact dieWork_writeAll s _
  case h_2 => exact (DieWork.ite _ dieTouch_reportUnit.dieWork (.refl e _ s)).trans (dieWork_writeAll _ _)

theorem dieWork_passSegment {step i : Nat} (he : e < 2) (hok : g.ok e = true) : DieWork e passRegs s (s.passSegment e step i g).1 := by
  have hevents (v : State) (ev : CvtEv) (ev' : Ev) : DieWork e passRegs v ((v.weightEvents e ev).ruleEvents e ev') :=
    (((dieTouch_weightEvents v e ev).trans (dieTouch_ruleEvents _ e ev')).mono (by decide)).dieWork
  have hstreams (v : State) (ks : List Nat) (f : Nat → List MWrite) : DieWork e passRegs v (ks.foldl (fun s k => (s.writeAll (f k)).1) v) :=
    foldl_induction (DieWork.refl e _) (fun _ _ _ => DieWork.trans) (fun s k => dieWork_writeAll s (f k)) ks v
  unfold State.passSegment
  dsimp only
  split
  case h_1 a st hrec => exact .ite _ (.refl e _ s) dieTouch_reportUnit.dieWork
  case h_2 sc hrec =>
    generalize List.flatMap _ (List.map _ (List.range (s.ruleHdr e g.rule).2.1) ++ _) = bad
    generalize List.foldl _ g.n bad = stop
    generalize hu : s.reportUnits { src := 0x104 + e } _ = u
    have hreport : DieWork e passRegs s u := hu ▸ dieTouch_reportUnits.dieWork
    generalize hw : (if g.wen = true then u.writeWeights e g step sc _ else (u, {}, none)) = w
    have hweights : DieWork e passRegs u w.1 := by
      rw [← hw]
      split
      case isTrue hwen =>
        rw [if_pos hwen] at hrec
        exact dieWork_writeWeights he hok hrec
      case isFalse => exact .refl e _ u
    have hall (ev' : Ev) (f : Nat → List MWrite) (ks : List Nat) :
        DieWork e passRegs s (ks.foldl (fun s k => (s.writeAll (f k)).1) ((w.1.weightEvents e w.2.1).ruleEvents e ev')) :=
      ((hreport.trans hweights).trans (hevents _ _ _)).trans (hstreams _ _ _)
    split
    · exact hall _ _ _
    · split
      · exact hall _ _ _
      · exact hall _ _ _

theorem dieWork_passFrom {step : Nat} (he : e < 2) (gs : List (Nat × SegEnt)) (hok : ∀ q ∈ gs, q.2.ok e = true) (s : State) :
    DieWork e passRegs s (State.passFrom e step gs s).1 := by
  induction gs generalizing s with
  | nil => exact .refl e _ s
  | cons q gs ih =>
    obtain ⟨i, g⟩ := q
    obtain ⟨hg, hgs⟩ := List.forall_mem_cons.1 hok
    have hseg := dieWork_passSegment (s := s) (step := step) (i := i) he hg
    rw [State.passFrom]
    split
    case h_1 v hv =>
      rw [hv] at hseg
      exact hseg.trans (ih hgs v)
    case h_2 => exact hseg


/-! ### The pass -/

/-- How a pass ends: done, or in FAULT where it stopped (R304, R308). -/
def State.passEnd (e : Nat) (r : State × Option PassStop) : State :=
  match r with
  | (s, none) => (s.endHold e).modEbb e fun x => { x with passed := true }
  | (s, some p) =>
    let s := (s.setEbbState e 4).ebbRaise e 14 p.seg p.elem p.addr
    let s := (s.modEbb e fun x => { x with snap := none }).snapDone e
    if s.stagedRead e p then s.endHold e else s

theorem exec_updatePass_of_open (he : e < 2) (hready : s.passReady e = true) (hopen : MemoryOpen s (s.passAddrs e).1 (s.passAddrs e).2) :
    exec (.updatePass e) s = .next (State.passEnd e (State.passFrom e (s.ebb e).wstep (s.segments e) (s.setEbbState e 3))) := by
  have hseg : (s.setEbbState e 3).segments e = s.segments e :=
    (dieEffect_setF (rs := [.ebbStat]) (by simp)).segments_eq (by decide) (by decide) e
  show execUpdatePass e s = _
  rw [← hseg]
  unfold execUpdatePass
  rw [if_pos ⟨he, hready⟩]
  exact congrArg Host.Outcome.next (s.accessing_of_open hopen)

theorem passEnd_done (s : State) (e : Nat) :
    let t := State.passEnd e (s, none)
    t.ebbState e = s.ebbState e ∧ t.ebb e = { s.ebb e with hold := false, passed := true } ∧ HoldEnded e s t ∧ DieEffect e [.ebbStgcnt] s t := by
  obtain ⟨hebb, hended, hstat, heff⟩ := endHold_spec s e
  have hfinal := (s.endHold e).ebb_modEbb_same e fun x => { x with passed := true }
  have hebb' : (State.passEnd e (s, none)).ebb e = { s.ebb e with hold := false, passed := true } := by
    rw [State.passEnd, hfinal, hebb]
  exact ⟨congrArg (fld · 16 3) hstat, hebb', holdEnded_congr hended rfl rfl (by rw [hebb', hebb]) rfl, heff.trans dieEffect_modEbb⟩

theorem passEnd_stopped (s : State) (e : Nat) (p : PassStop) :
    let t := State.passEnd e (s, some p)
    t.ebbState e = 4 ∧ t.flag .ebbStat e 0 14 = true ∧ (t.ebb e).snap = none ∧ (t.ebb e).commit = (s.ebb e).commit ∧
      DieEffect e (.ebbSnapstat :: passRegs) s t := by
  unfold State.passEnd
  dsimp only
  have hfault : (s.setEbbState e 4).ebbState e = 4 := s.fd_setF_same _ _ _ _ _ _ (by decide)
  have heff : DieEffect e [.ebbStat] s (s.setEbbState e 4) := dieEffect_setF (by simp)
  have hcommit : ((s.setEbbState e 4).ebb e).commit = (s.ebb e).commit := rfl
  generalize s.setEbbState e 4 = u at *
  obtain ⟨hflag, -, hebbs, -, htouch⟩ := ebbRaise_spec u e p.seg p.elem p.addr (k := 14) (by decide)
  generalize u.ebbRaise e 14 p.seg p.elem p.addr = v at *
  generalize hw : (v.modEbb e fun x => { x with snap := none }).snapDone e = w
  have hwebb : w.ebb e = { v.ebb e with snap := none } := hw ▸ v.ebb_modEbb_same e fun x => { x with snap := none }
  have hweff : DieEffect e [.ebbSnapstat] v w := hw ▸ dieEffect_modEbb.trans (dieEffect_setF (by simp))
  have hwstat : w.rd .ebbStat e 0 = v.rd .ebbStat e 0 := hweff.sameRegs _ _ _ (by decide)
  have hstate : w.ebbState e = 4 := (congrArg (fld · 16 3) hwstat).trans (htouch.state.trans hfault)
  have hraised : w.flag .ebbStat e 0 14 = true := (congrArg (bit · 14) hwstat).trans ((hflag 14).trans rfl)
  have hheld : (w.ebb e).snap = none ∧ (w.ebb e).commit = (s.ebb e).commit := by
    rw [hwebb, State.ebb_congr hebbs]
    exact ⟨rfl, hcommit⟩
  have hall : DieEffect e (.ebbSnapstat :: passRegs) s w :=
    ((heff.mono (by decide)).trans (htouch.effect.mono (by decide))).trans (hweff.mono (by decide))
  split
  case isTrue =>
    obtain ⟨hebb, -, hstat, heff'⟩ := endHold_spec w e
    rw [hebb]
    exact ⟨(congrArg (fld · 16 3) hstat).trans hstate, (congrArg (bit · 14) hstat).trans hraised, hheld.1, hheld.2,
      hall.trans (heff'.mono (by decide))⟩
  case isFalse => exact ⟨hstate, hraised, hheld.1, hheld.2, hall⟩

/-- A pass ends done or in FAULT, and touches no other die. -/
theorem exec_updatePass_ends (he : e < 2) (hready : s.passReady e = true) (hopen : MemoryOpen s (s.passAddrs e).1 (s.passAddrs e).2)
    (hok : ∀ q ∈ s.segments e, q.2.ok e = true) :
    ∃ t, exec (.updatePass e) s = .next t ∧ OnlyDie e s t ∧ t.gate = s.gate ∧ (t.ebb e).commit = true ∧
      ((t.ebbState e = 3 ∧ (t.ebb e).passed = true ∧ (t.ebb e).hold = false) ∨
        (t.ebbState e = 4 ∧ t.flag .ebbStat e 0 14 = true ∧ (t.ebb e).snap = none)) := by
  have hcommit : (s.ebb e).commit = true := by
    simp only [State.passReady, Bool.and_eq_true] at hready
    obtain ⟨⟨⟨⟨⟨-, hcommit⟩, -⟩, -⟩, -⟩, -⟩ := hready
    exact hcommit
  have hstate : (s.setEbbState e 3).ebbState e = 3 := s.fd_setF_same _ _ _ _ _ _ (by decide)
  have hstart : DieEffect e [.ebbStat] s (s.setEbbState e 3) := dieEffect_setF (by simp)
  have hsame : (s.setEbbState e 3).ebb e = s.ebb e := rfl
  have hwork := dieWork_passFrom (step := (s.ebb e).wstep) he (s.segments e) hok (s.setEbbState e 3)
  refine ⟨_, exec_updatePass_of_open he hready hopen, ?_⟩
  generalize State.passFrom e (s.ebb e).wstep (s.segments e) (s.setEbbState e 3) = r at *
  obtain ⟨v, stop⟩ := r
  obtain ⟨l, hlatch⟩ := hwork.latch
  have hbefore : DieWrites e (.ebbSnapstat :: passRegs) s v := (hstart.mono (by decide)).dieWrites.trans (hwork.dieWrites.mono (by simp))
  have hvcommit : (v.ebb e).commit = true := by
    rw [hlatch, hsame]
    exact hcommit
  cases stop with
  | none =>
    obtain ⟨hend, hebb, -, heff⟩ := passEnd_done v e
    have hall := hbefore.trans (heff.mono (by decide)).dieWrites
    exact ⟨hall.onlyDie, hall.gate_eq, by rw [hebb]; exact hvcommit,
      .inl ⟨hend.trans (hwork.state.trans hstate), by rw [hebb], by rw [hebb]⟩⟩
  | some p =>
    obtain ⟨hend, hflag, hsnap, hcommit', heff⟩ := passEnd_stopped v e p
    have hall := hbefore.trans heff.dieWrites
    exact ⟨hall.onlyDie, hall.gate_eq, hcommit'.trans hvcommit, .inr ⟨hend, hflag, hsnap⟩⟩

end Sys2Proof.Machine
end

section
/-! SUPPORT. The update pass over good data (R293 to R295, R304, R305): one segment's state streams and weights. -/

namespace Sys2Proof.Machine

open Sys2Proof.Claims

variable {s t u : State} {e : Nat} {g : SegEnt} {rs : List Reg}

/-! ### Streams of words -/

/-- Bytes put one after another. -/
theorem Puts.append {x : Nat} {bs bs' : List Byte} (h : Puts x bs s t) (h' : Puts (x + bs.length) bs' t u) : Puts x (bs ++ bs') s u where
  only y := by
    rw [h'.only y, h.only y, List.length_append]
    by_cases hlast : x + bs.length ≤ y ∧ y < x + bs.length + bs'.length
    · rw [if_pos hlast, if_pos ⟨by omega, by omega⟩, List.getD_append_right _ _ _ _ (by omega), Nat.sub_add_eq]
    · rw [if_neg hlast]
      by_cases hfirst : x ≤ y ∧ y < x + bs.length
      · rw [if_pos hfirst, if_pos ⟨by omega, by omega⟩, List.getD_append _ _ _ _ (by omega)]
      · rw [if_neg hfirst, if_neg (by omega)]
  good := keepsGood_trans h.good h'.good
  frame := by
    obtain ⟨_, _, rfl⟩ := h.frame
    obtain ⟨_, _, rfl⟩ := h'.frame
    exact ⟨_, _, rfl⟩

theorem Puts.refl (x : Nat) (s : State) : Puts x [] s s :=
  ⟨fun y => (if_neg (by rw [List.length_nil]; omega)).symm, keepsGood_refl _, _, _, rfl⟩

/-- The bytes of `m` streams of `n` words each. -/
def streamBytes (n m : Nat) (val : Nat → Nat → W32) : List Byte :=
  (List.range m).flatMap fun k => wordBytes ((List.range n).map (val k))

theorem length_streamBytes (n m : Nat) (val : Nat → Nat → W32) : (streamBytes n m val).length = 4 * n * m := by
  rw [streamBytes, length_flatMap_range _ m fun _ => length_wordBytes n _, Nat.mul_comm]

theorem word32_of_streamBytes {x n m i k : Nat} {val : Nat → Nat → W32} (h : OnlyBytes x (streamBytes n m val) s t) (hi : i < n) (hk : k < m) :
    t.word32 (x + 4 * n * k + 4 * i) = val k i := by
  have hrow : 4 * n * (k + 1) ≤ 4 * n * m := Nat.mul_le_mul_left _ hk
  rw [Nat.mul_succ] at hrow
  rw [Nat.add_assoc]
  refine word32_of_onlyBytes h (by rw [length_streamBytes]; omega) fun b hb => ?_
  rw [Nat.add_assoc]
  exact (getD_flatMap_range (fun k => wordBytes ((List.range n).map (val k))) (fun _ => length_wordBytes n _) hk (by omega) 0).trans
    (getD_wordBytes (val k) hi hb)

/-- Streams written one after another, where every unit passes its check. -/
theorem writeStreams_puts (s : State) (x n m : Nat) (val : Nat → Nat → W32) (h : ∀ y, Within x (4 * n * m) y → s.unitGood y) :
    Puts x (streamBytes n m val) s
      ((List.range m).foldl (fun s k => (s.writeAll (wholeWrites (x + 4 * n * k) (wordBytes ((List.range n).map (val k))))).1) s) := by
  induction m with
  | zero => exact .refl x s
  | succ m ih =>
    rw [Nat.mul_succ] at h
    have hfirst := ih fun y hy => h y ⟨hy.1, by omega⟩
    rw [List.range_succ, List.foldl_append, List.foldl_cons, List.foldl_nil]
    generalize (List.range m).foldl _ s = v at *
    obtain ⟨w, hall, hput⟩ := v.writeAll_puts (x := x + 4 * n * m) (bs := wordBytes ((List.range n).map (val m))) fun y hy => by
      rw [length_wordBytes] at hy
      exact hfirst.stores.unitGood (h y ⟨by omega, by omega⟩)
    have hjoin : streamBytes n (m + 1) val = streamBytes n m val ++ wordBytes ((List.range n).map (val m)) := by
      rw [streamBytes, List.range_succ, List.flatMap_append, List.flatMap_singleton, streamBytes]
    rw [hall, hjoin]
    exact hfirst.append (by rwa [length_streamBytes])

/-! ### What a pass reads -/

theorem DieEffect.ruleHdr_eq (h : DieEffect e rs s t) (hcode : .ebbRule ∉ rs) (d p : Nat) : t.ruleHdr d p = s.ruleHdr d p := by
  simp only [State.ruleHdr, State.ruleWord, h.sameRegs .ebbRule _ _ hcode]

theorem DieEffect.runElem_eq (h : DieEffect e rs s t) (hread : ∀ r ∈ [Reg.ebbRule, .ebbHset, .tideStepval], r ∉ rs) (d : Nat)
    (g : SegEnt) (i : Nat) : t.runElem d g i = s.runElem d g i := by
  have hrule : .ebbRule ∉ rs := hread _ (by simp)
  have hcode : t.ruleCode d g.rule = s.ruleCode d g.rule := by
    rw [State.ruleCode, h.ruleHdr_eq hrule]
    simp only [State.ruleWord, h.sameRegs .ebbRule _ _ hrule]
    rfl
  have hregs (ns ng : Nat) : t.ruleRegs d g ns ng i = s.ruleRegs d g ns ng i := by
    simp only [State.ruleRegs, h.word32_eq, h.sameRegs .ebbHset _ _ (hread _ (by simp)), h.sameRegs .tideStepval _ _ (hread _ (by simp))]
  unfold State.runElem
  rw [h.ruleHdr_eq hrule, hcode]
  simp only [hregs]

theorem DieEffect.segRec_eq (h : DieEffect e rs s t) (hbank : .spdBankst ∉ rs) (hroom : .ebbHeadroom ∉ rs) (d : Nat) (g : SegEnt) (step : Nat) :
    t.segRec d g step = s.segRec d g step := by
  simp only [State.segRec, State.failsAt, h.cellStatus_eq hbank, h.bytes_eq, State.fd, h.sameRegs .ebbHeadroom _ _ hroom]

/-! ### A segment over good data -/

/-- The FP32 value that a pass gives a state stream at an element. -/
def State.newState (s : State) (e : Nat) (g : SegEnt) (k i : Nat) : W32 := (s.runElem e g i).1.getD k 0#32

/-- What a pass over good data of one segment leaves: state streams, weights, and all else in memory. -/
structure SegmentPassed (e : Nat) (g : SegEnt) (s t : State) : Prop where
  states : ∀ i k, i < g.n → k < (s.ruleHdr e g.rule).2.1 → t.word32 (g.st + 4 * g.n * k + 4 * i) = s.newState e g k i
  weights : g.wen = true → g.fmt = .fp32 → ∀ i, i < g.n → t.word32 (g.w + 4 * i) = canon32 (s.runElem e g i).2.1
  bytes : ∀ x, ¬Within g.st (4 * g.n * (s.ruleHdr e g.rule).2.1) x → ¬(g.wen = true ∧ g.Output x) → t.byte x = s.byte x
  writes : DieWrites e [.ebbStat] s t

/-- The streams that a pass reads pass their checks. -/
theorem failsAt_streams {a n m : Nat} (h : RangeGood s e a (4 * n * m) true) {b : Nat} (hb : b ∈ (List.range m).map fun k => a + 4 * n * k) :
    s.failsAt ((List.range (4 * n)).map (b + ·)) = [] := by
  obtain ⟨k, hk, rfl⟩ := List.mem_map.1 hb
  have hrow : 4 * n * (k + 1) ≤ 4 * n * m := Nat.mul_le_mul_left _ (List.mem_range.1 hk)
  rw [Nat.mul_succ] at hrow
  refine s.failsAt_of_good fun x hx => unitGood_of_range h ?_
  obtain ⟨i, hi, rfl⟩ := List.mem_map.1 hx
  have hi' := List.mem_range.1 hi
  exact ⟨by omega, by omega⟩

/-- The weights of a segment that is wanted in HBM, or nothing. -/
theorem passWeights_of_good {step : Nat} {sc : Option (ScaleRec × Nat)} (val : Nat → W32)
    (hrec : (if g.wen then s.segRec e g step else .inl none) = .inl sc) (hw : g.wen = true → RangeGood s e g.w g.wtotal false)
    (hsr : g.usesRec = true → RangeGood s e g.sr 128 true ∧ ∀ x, Within g.sr 128 x → s.stagingDie x = none)
    (hn : g.fmt.narrow = true → g.n % 32 = 0) :
    ∃ t ev, (if g.wen then s.writeWeights e g step sc ((List.range g.n).map val) else (s, {}, none)) = (t, ev, none) ∧
      Stores (fun x => g.wen = true ∧ g.Output x) s t ∧
      (g.wen = true → g.fmt = .fp32 → ∀ i, i < g.n → t.word32 (g.w + 4 * i) = canon32 (val i)) := by
  cases hwen : g.wen with
  | false => exact ⟨s, {}, rfl, .refl _ s, fun h => absurd h (by decide)⟩
  | true =>
    rw [hwen, if_pos rfl] at hrec
    obtain ⟨t, ev, hweights, hstores, hwords⟩ := writeWeights_of_good val hrec (hw hwen) hsr hn
    exact ⟨t, ev, hweights, hstores.mono fun x hx => ⟨rfl, hx⟩, fun _ => hwords⟩

/-- A segment whose inputs can all be read and whose weights can all be written runs to its end. -/
theorem passSegment_of_whole {step i : Nat} {sc : Option (ScaleRec × Nat)} {ev : CvtEv}
    (hst : RangeGood s e g.st (4 * g.n * (s.ruleHdr e g.rule).2.1) true) (hg : RangeGood s e g.g (4 * g.n * (s.ruleHdr e g.rule).2.2) true)
    (hrec : (if g.wen then s.segRec e g step else .inl none) = .inl sc)
    (hweights : (if g.wen then s.writeWeights e g step sc ((List.range g.n).map fun j => (s.runElem e g j).2.1) else (s, {}, none)) =
      (u, ev, none)) :
    ∃ ev', s.passSegment e step i g = ((List.range (s.ruleHdr e g.rule).2.1).foldl
      (fun v k => (v.writeAll (wholeWrites (g.st + 4 * g.n * k) (wordBytes ((List.range g.n).map (s.newState e g k))))).1)
      ((u.weightEvents e ev).ruleEvents e ev'), none) := by
  have hgood : ((List.range (s.ruleHdr e g.rule).2.1).map (fun k => g.st + 4 * g.n * k) ++
      (List.range (s.ruleHdr e g.rule).2.2).map fun j => g.g + 4 * g.n * j).flatMap (fun b =>
      (s.failsAt ((List.range (4 * g.n)).map (b + ·))).map fun u => ((max u.1 b - b) / 4, u.1)) = [] :=
    List.flatMap_eq_nil_iff.2 fun b hb => by
      rw [(List.mem_append.1 hb).elim (failsAt_streams hst) (failsAt_streams hg)]
      rfl
  have hquiet (p : Nat × Nat → Bool) : s.reportUnits { src := 0x104 + e } ((([] : List (Nat × Nat)).filter p).map fun u => (u.2, 5)) = s := rfl
  have hres : ((List.range g.n).map fun j => s.runElem e g j).take g.n = (List.range g.n).map fun j => s.runElem e g j :=
    List.take_of_length_le (by simp)
  have hvals : ((List.range g.n).map fun j => s.runElem e g j).map (fun r => r.2.1) = (List.range g.n).map fun j => (s.runElem e g j).2.1 :=
    List.map_map
  have hbytes (k : Nat) : ((List.range g.n).map fun j => s.runElem e g j).flatMap (fun r => leBytes 4 (r.1.getD k 0#32).toNat) =
      wordBytes ((List.range g.n).map (s.newState e g k)) := by
    rw [wordBytes_range, List.flatMap_map]
    rfl
  unfold State.passSegment
  dsimp only
  rw [hrec, hgood]
  dsimp only [List.foldl_nil]
  rw [hquiet, hvals, hweights]
  dsimp only
  rw [hres]
  simp only [Nat.lt_irrefl, if_false, hbytes]
  exact ⟨_, rfl⟩

theorem passSegment_of_good {step i : Nat} (hst : RangeGood s e g.st (4 * g.n * (s.ruleHdr e g.rule).2.1) true)
    (hg : RangeGood s e g.g (4 * g.n * (s.ruleHdr e g.rule).2.2) true)
    (hw : g.wen = true → RangeGood s e g.w g.wtotal false ∧ ∃ r, s.segRec e g step = .inl r)
    (hsr : g.usesRec = true → RangeGood s e g.sr 128 true ∧ ∀ x, Within g.sr 128 x → s.stagingDie x = none)
    (hn : g.fmt.narrow = true → g.n % 32 = 0) :
    ∃ t, s.passSegment e step i g = (t, none) ∧ SegmentPassed e g s t ∧ DieWork e [.ebbStat] s t := by
  obtain ⟨sc, hrec⟩ : ∃ sc, (if g.wen then s.segRec e g step else .inl none) = .inl sc := by
    split
    case isTrue hwen => exact (hw hwen).2
    case isFalse => exact ⟨none, rfl⟩
  obtain ⟨u, ev, hweights, hstores, hwords⟩ := passWeights_of_good (fun j => (s.runElem e g j).2.1) hrec (fun hwen => (hw hwen).1) hsr hn
  obtain ⟨ev', hpass⟩ := passSegment_of_whole (i := i) hst hg hrec hweights
  have hevents : DieTouch e [.ebbStat] u ((u.weightEvents e ev).ruleEvents e ev') :=
    (dieTouch_weightEvents u e ev).trans (dieTouch_ruleEvents _ e ev')
  generalize (u.weightEvents e ev).ruleEvents e ev' = v at *
  have hput := writeStreams_puts v g.st g.n (s.ruleHdr e g.rule).2.1 (s.newState e g) fun y hy => by
    obtain ⟨hscratch, hcell⟩ := hstores.unitGood (unitGood_of_range hst hy)
    exact ⟨hscratch, (hevents.effect.cellStatus_eq (by decide) y).trans hcell⟩
  generalize List.foldl _ v (List.range (s.ruleHdr e g.rule).2.1) = t at *
  have hlast := hput.stores
  rw [length_streamBytes] at hlast
  have hwork : DieWork e [.ebbStat] s t := by
    obtain ⟨mem, bad, hu⟩ := hstores.frame
    obtain ⟨mem', bad', ht⟩ := hlast.frame
    have hfirst : DieWork e [.ebbStat] s u := ⟨mem, bad, hu ▸ .refl e _ _⟩
    exact (hfirst.trans hevents.dieWork).trans ⟨mem', bad', ht ▸ .refl e _ _⟩
  refine ⟨t, hpass, ⟨fun i k hi hk => word32_of_streamBytes hput.only hi hk, fun hwen hf i hi => ?_, fun x hx hx' => ?_, hwork.dieWrites⟩, hwork⟩
  · have hword : t.word32 (g.w + 4 * i) = v.word32 (g.w + 4 * i) := by
      rw [State.word32, hlast.bytes_eq fun y hy hst' => ?_, State.word32]
      have hregion := ((hw hwen).1 y (by omega) (by rw [SegEnt.wtotal_fp32 hf]; omega)).1
      rw [(hst y hst'.1 hst'.2).1] at hregion
      cases hregion
    rw [hword, hevents.effect.word32_eq, hwords hwen hf i hi]
  · rw [hlast.bytes x hx, hevents.effect.sameMem.1, hstores.bytes x hx']

end Sys2Proof.Machine
end

section
/-! SUPPORT. The update pass of one segment, and the commands of a step together (R293 to R295, R303 to R309, R554, R558). -/

namespace Sys2Proof.Machine

open Sys2Proof.Claims

variable {s t u : State} {e : Nat} {g : SegEnt}

/-- A pass over good data of one segment is done, and the staging area is free (R287, R304). -/
theorem exec_updatePass_of_good (he : e < 2) (hready : s.passReady e = true) (hopen : MemoryOpen s (s.passAddrs e).1 (s.passAddrs e).2)
    (hseg : s.segments e = [(0, g)]) (hst : RangeGood s e g.st (4 * g.n * (s.ruleHdr e g.rule).2.1) true)
    (hg : RangeGood s e g.g (4 * g.n * (s.ruleHdr e g.rule).2.2) true)
    (hw : g.wen = true → RangeGood s e g.w g.wtotal false ∧ ∃ r, s.segRec e g (s.ebb e).wstep = .inl r)
    (hsr : g.usesRec = true → RangeGood s e g.sr 128 true ∧ ∀ x, Within g.sr 128 x → s.stagingDie x = none)
    (hn : g.fmt.narrow = true → g.n % 32 = 0) :
    ∃ v t, exec (.updatePass e) s = .next t ∧ SegmentPassed e g s v ∧ t.ebbState e = 3 ∧ (t.ebb e).passed = true ∧ HoldEnded e s t ∧
      DieEffect e [.ebbStgcnt] v t := by
  have hexec := exec_updatePass_of_open he hready hopen
  have hstate : (s.setEbbState e 3).ebbState e = 3 := s.fd_setF_same _ _ _ _ _ _ (by decide)
  have heff : DieEffect e [.ebbStat] s (s.setEbbState e 3) := dieEffect_setF (by simp)
  have hdie : (s.setEbbState e 3).ebb e = s.ebb e := rfl
  generalize s.setEbbState e 3 = u at *
  have hhdr := heff.ruleHdr_eq (by decide) e g.rule
  obtain ⟨v, hpass, hdone, hwork⟩ := passSegment_of_good (s := u) (i := 0) (step := (s.ebb e).wstep) (hhdr ▸ heff.rangeGood (by decide) hst)
    (hhdr ▸ heff.rangeGood (by decide) hg)
    (fun hwen => ⟨heff.rangeGood (by decide) (hw hwen).1, by rw [heff.segRec_eq (by decide) (by decide)]; exact (hw hwen).2⟩)
    (fun huses => ⟨heff.rangeGood (by decide) (hsr huses).1, fun x hx =>
      (heff.stagingDie_eq (by decide) (by decide) x).trans ((hsr huses).2 x hx)⟩) hn
  rw [hseg, State.passFrom, hpass] at hexec
  change exec (.updatePass e) s = .next (State.passEnd e (v, none)) at hexec
  obtain ⟨hend, hebb, hended, heff'⟩ := passEnd_done v e
  obtain ⟨l, hlatch⟩ := hwork.latch
  have hcnt : v.rd .ebbStgcnt e 0 = s.rd .ebbStgcnt e 0 :=
    (hwork.dieWrites.sameRegs _ _ _ (by decide)).trans (heff.sameRegs _ _ _ (by decide))
  have helem (i : Nat) : u.runElem e g i = s.runElem e g i := heff.runElem_eq (by decide) e g i
  refine ⟨v, _, hexec, ⟨fun i k hi hk => ?_, fun hwen hf i hi => ?_, fun x hx hx' => ?_, ?_⟩, hend.trans (hwork.state.trans hstate),
    by rw [hebb], holdEnded_congr hended (by rw [hlatch, hdie]) hcnt rfl rfl, heff'⟩
  · rw [hdone.states i k hi (hhdr ▸ hk), State.newState, helem, State.newState]
  · rw [hdone.weights hwen hf i hi, helem]
  · exact (hdone.bytes x (hhdr ▸ hx) hx').trans (heff.sameMem.1 x)
  · exact heff.dieWrites.trans hdone.writes

/-- Settles O50: each command is its stages; what one does at a die leaves the other die. -/
theorem updateStepsComplete : Obligations.UpdateStepsComplete := by
  unfold Obligations.UpdateStepsComplete
  intro s
  refine ⟨fun b hentry hlen => ?_, exec_strandlineWrite_of_none, fun e he hready hopen hok => ⟨exec_updatePass_ends he hready hopen hok, ?_⟩,
    fun e hstate hpassed hnoise => ?_, fun a e hmay => ⟨fun hstate => ?_, fun hstate => ?_⟩, fun a hmay hquiet => ?_⟩
  · intro base skip hdue hnoise hopen hgood
    obtain ⟨t, hexec, honly, hnone, hsrm, hdies, hmarks, hgate, hframe⟩ := exec_strandlineWrite_of_good hentry hlen hdue hnoise hopen hgood
    exact ⟨t, hexec, honly, hnone, hsrm, hdies, hmarks, hgate, hframe⟩
  · intro g hseg ns ng hst hg hw hsr hn
    obtain ⟨v, t, hexec, hdone, hstate, hpassed, hended, heff⟩ := exec_updatePass_of_good he hready hopen hseg hst hg hw
      (fun huses => ⟨(hsr huses).1, fun x hx => (hsr huses).2 x hx.1 hx.2⟩) hn
    have hall : DieWrites e ([.ebbStat, .ebbStgcnt] ++ logRegs) s t :=
      (hdone.writes.mono (by simp)).trans (heff.mono (by simp)).dieWrites
    refine ⟨t, hexec, hstate, hpassed, hended, fun i k hi hk => ?_, fun hwen hf i hi => ?_, fun x hx hx' hx'' => ?_, hall.onlyDie, hall.ebbFrame⟩
    · exact (heff.word32_eq _).trans (hdone.states i k hi hk)
    · exact (heff.word32_eq _).trans (hdone.weights hwen hf i hi)
    · exact (heff.sameMem.1 x).trans (hdone.bytes x hx fun ⟨hwen, hout⟩ => hout.elim (fun hin => hx' ⟨hwen, hin⟩) hx'')
  · obtain ⟨t, hexec, hidle, hchecked, hpassed', hdue, hmarks, heff⟩ := exec_passComplete_of_passed hstate hpassed hnoise
    exact ⟨t, hexec, hidle, hchecked, hpassed', hdue, hmarks, heff.onlyDie, heff.sameMem, heff.gate_eq, (heff.mono (by simp)).ebbFrame⟩
  · obtain ⟨hidle, hchecked, hhold, heff⟩ := clearFault_spec hstate
    exact ⟨_, exec_clrflt hmay, hidle, hchecked, hhold, heff.onlyDie, heff.sameMem, heff.gate_eq, (heff.mono (by simp)).ebbFrame⟩
  · exact (exec_clrflt hmay).trans (congrArg _ (if_pos hstate))
  · obtain ⟨hdies, hmem, hgate, hframe⟩ := eabort_spec s
    exact ⟨_, exec_eabort hmay hquiet, hdies, hmem, hgate, hframe⟩

end Sys2Proof.Machine
end
